-- ==== Sys2Proof/Word.lean ====
section
/-! DEFINITION. The word types and their plainest readings (R5, R6, R89). -/

namespace Sys2Proof

/-- A 32-bit word: a syllable, a scalar register, one lane of a vector register. -/
abbrev Word := BitVec 32

/-- A byte of memory (R6). -/
abbrev Byte := BitVec 8

/-- A table held as a list of entries by number, in ascending order of the number. -/
abbrev Tab (α : Type) := List (Nat × α)

end Sys2Proof
end

