-- ==== Sys2Proof/Machine/ActTables.lean ====
section
/-! DEFINITION. The built-in tables of the ACT node (R226), computed from the formulas of R226: entry k of a table is word k of
its number, the lowest first. -/

namespace Sys2Proof.Machine

/-- The slopes m_k of GELU-tanh. -/
def geluSlopes : Nat :=
  0xA8B06D3EA8280C03A79E2698A7130AD5A6870D34A5F5091BA55B8BE7A4C241E8A429B8DAA3926869A2F95E50A251A2BFA1ADF2EBA10E7385A0663DFA9FB7999A +
  0xB02288E3AFB91DDAAF50A6B5AEE8B7ABAE8068BEAE0C3266AD976B6DAD21C3C5ACAAEC30AC329A03ABB88B02AB3C88FDAABE6CF7AA3E2192A9BBA487A9370714 * 2 ^ 512 +
  0xB5AAB7CBB5629A84B515120AB4C2637FB47B3504B420D7C3B3CC141BB380446CB31FB9B8B2C503D1B270AF25B211984CB1AE6D1DB14EE7AEB0F2FC4CB08D3E2F * 2 ^ 1024 +
  0xB99972B3B9677EF8B92D5A61B900DBEBB8BE24E7B88B3B06B84A57D8B811E560B7D0BEE9B7942718B7509C71B711AE02B6C9CBC7B68A9A9EB63CCD41B5FEFEAE * 2 ^ 1536 +
  0xBC2E41BFBC11F4E2BBF30D04BBC926A8BBA5765CBB8744BFBB5BCADABB3170C8BB0E55DABAE2E003BAB3A134BA8D479DBA5CBDD7BA2B463FBA03F9F0B9C9F82A * 2 ^ 2048 +
  0xBDA96DA9BD9BB150BD8E3228BD8117B9BD690454BD511579BD3A88A8BD257824BD11F3E3BD0002D3BCDF4835BCC1A0A5BCA6F561BC8F2440BC74091CBC4ED1D0 * 2 ^ 2560 +
  0xBDB874D2BDD1D59EBDE5DF8EBDF4EA74BDFF5741BE02C6CBBE03FCB4BE038464BE0194E6BDFCC8BCBDF44E64BDEA1EBBBDDE97BEBDD21088BDC4D8B2BDB737E7 * 2 ^ 3072 +
  0x3EF33E003ED9D3963EC0B5773EA814FC3E9021483E720CEC3E45D9C33E1BF1063DE921B83D9FD9AE3D38B5AA3C76FA98BC43AB8BBD132CA6BD6916EABD9970E3 * 2 ^ 3584 +
  0x3F89970E3F8748B73F8499653F8187573F7C24163F7474A53F6C04CA3F62DBC93F5903BF3F4E898F3F437CC53F37EF5C3F2BF5823F1FA5453F1316353F066100 * 2 ^ 4096 +
  0x3F8B737E3F8C4D8B3F8D21083F8DE97C3F8EA1EC3F8F44E63F8FCC8C3F90329D3F90708C3F907F963F9058D93F8FF5743F8F4EA73F8E5DF93F8D1D5A3F8B874D * 2 ^ 4608 +
  0x3F819DA43F81E8123F823C913F829BD63F8306833F837D213F8400173F848F9F3F852BC13F85D4453F8688AC3F8748233F88117C3F88E3223F89BB153F8A96DB * 2 ^ 5120 +
  0x3F800CA03F80107F3F8015693F801B983F8023523F802CE83F8038B83F80472B3F8058B83F806DE53F8087453F80A5763F80C9273F80F30D3F8123EA3F815C83 * 2 ^ 5632 +
  0x3F8000103F8000183F8000233F8000323F8000493F8000683F8000943F8000D13F8001243F8001953F80022D3F8002F93F8004073F80056B3F80073C3F800997 * 2 ^ 6144 +
  0x3F8000003F8000003F8000003F8000003F8000003F8000003F8000003F8000003F8000013F8000013F8000013F8000023F8000033F8000053F8000073F80000B * 2 ^ 6656 +
  0x3F8000003F8000003F8000003F8000003F8000003F8000003F8000003F8000003F8000003F8000003F8000003F8000003F8000003F8000003F8000003F800000 * 2 ^ 7168 +
  0x3F8000003F8000003F8000003F8000003F8000003F8000003F8000003F8000003F8000003F8000003F8000003F8000003F8000003F8000003F8000003F800000 * 2 ^ 7680

/-- The offsets c_k of GELU-tanh. -/
def geluOffsets : Nat :=
  0xAA1CFAF8A996CFA9A90F244BA88636F9A7F89C8EA7636B28A6CD727FA6374623A5A16DFFA50C6134A47104A6A3CC3A6EA32ACCDDA28CF816A1E59E80A138846B +
  0xB1799A0CB10F8B34B0A36054B037FCD6AFCCFE5AAF61F1A5AEF655DAAE84D07FAE0DA2C5AD955C63AD1BBCCEACA08BB8AC239C36ABA4CF6EAB24168DAAA173E2 * 2 ^ 512 +
  0xB6DD1661B6946B8CB645803BB602395AB5AA2AE9B55C51F7B50D4D8BB4B38CC5B461FCBEB40CDB21B3ADE40AB3549398B300A717B29A2BF5B236E4EBB1D6C3A2 * 2 ^ 1024 +
  0xBAA2A7C3BA78BB7EBA3CC5C3BA0E315FB9D496A1B99DB27AB96823EBB92984EEB8F59C8AB8B07F60B87B993AB831D9D0B7F95858B7AD5133B76EE3ABB723377E * 2 ^ 1536 +
  0xBD119764BCF7D916BCD1ACA0BCB0490FBC9349D1BC749176BC49C09CBC255B34BC06A3A4BBD9CDDEBBAEFCF3BB8BA25BBB5D506ABB2E2A6DBB081881BAD32D3A * 2 ^ 2048 +
  0xBE57EB9ABE49C15EBE3B6A44BE2D155ABE1EED1ABE111703BE03B367BDEDBAADBDD5555CBDBE587FBDA8DC2DBD94EF98BD8299DABD63B59DBD45580DBD2A0371 * 2 ^ 2560 +
  0xBE7ED8FABE862A33BE8BCCFFBE90443BBE93863BBE95900FBE96651FBE960EA6BE949B07BE921D1DBE8EAB69BE8A5F4EBE85543FBE7F4DF5BE72E99DBE65B5D8 * 2 ^ 3072 +
  0xB06A4F05BB4B5357BC174D52BC95881ABCF556EABD346E82BD76BB3FBDA00945BDC7696FBDF0A1F5BE0D689EBE228B13BE374ADCBE4B4038BE5E0B77BE6F5703 * 2 ^ 3584 +
  0xBE6F5701BE5E0B75BE4B4037BE374ADCBE228B14BE0D689DBDF0A1F4BDC7696FBDA00947BD76BB3EBD346E82BCF556EABC95881ABC174D56BB4B535400000000 * 2 ^ 4096 +
  0xBE65B5D1BE72E99BBE7F4DEEBE855440BE8A5F50BE8EAB68BE921D1EBE949B09BE960EA3BE96651CBE95900DBE93863BBE90443ABE8BCCFFBE862A34BE7ED8F9 * 2 ^ 4608 +
  0xBD2A0394BD4557F9BD63B59DBD8299EFBD94EFAABDA8DC34BDBE5890BDD55558BDEDBAA8BE03B362BE111707BE1EED20BE2D1562BE3B6A3BBE49C15EBE57EBA1 * 2 ^ 5120 +
  0xBAD334F1BB0816A0BB2E2C19BB5D5270BB8BA2B7BBAEFBDCBBD9CDDCBC06A3C5BC255A88BC49BFE4BC7491E2BC934986BCB04955BCD1AC9DBCF7D944BD119735 * 2 ^ 5632 +
  0xB723D64FB772C984B7AEFF2CB7F7365CB83239E6B87AE458B8B052C8B8F5E5C4B929A277B9684FD7B99DB7D7B9D4B36BBA0E35A5BA3CCB8FBA78BC8BBAA2A510 * 2 ^ 6144 +
  0xAF236A96AF8E745EAFF5E835B0522AA9B0B1E17AB1151C86B1779E6FB1CBAC13B53097E1B5303009B530B368B5AD501EB600ACD6B653811EB692C5C4B6E3B0A3 * 2 ^ 6656 +
  0xA7AEEFB9A8354A20A8B9B5D9A93C1168A9BC4D32AA3A6C1AAAB6830FAB30B79FABA93DB2AC20548FAC96437BAD0B561DAD7FB1F2ADE82C53AE50A517AEB996FD * 2 ^ 7168 +
  0x9E16811E9EBE5F8C9F6DA34BA0126248A0B20284A155B06AA1FD409EA2942C95A32B373EA3C36193A45C3557A4F527E0A586CF63A6127AFDA69D4380A726D85F * 2 ^ 7680

/-- The slopes m_k of SiLU. -/
def siluSlopes : Nat :=
  0xBBAE5B77BBA582A7BB9D183CBB95172CBB8D7A9FBB863DF1BB7EB95EBB71A52BBB65371EBB596763BB4E2E80BB43854BBB3964EABB2FC6D1BB26A4BDBB1DF8B5 +
  0xBC4504C0BC3B7128BC324CF0BC2993A7BC2140FBBC1950BCBC11BEDABC0A8764BC03A68BBBFA3141BBEDB429BBE1CEF2BBD67AFABBCBB1E0BBC16D7FBBB7A7EC * 2 ^ 512 +
  0xBCD48CB5BCCAF3BDBCC1BB54BCB8E0EEBCB061EFBCA83BB2BCA06B8CBC98EECDBC91C2C8BC8AE4D1BC845242BC7C10F8BC7009D1BC6489F7BC598C6BBC4F0C47 * 2 ^ 1024 +
  0xBD538CEFBD4B5B30BD435DFCBD3B96DBBD3406F3BD2CAF10BD258FB2BD1EA910BD17FB23BD1185ADBD0B4842BD054248BCFEE606BCF3B330BCE8EA1EBCDE88B5 * 2 ^ 1536 +
  0xBDB2569EBDAE0807BDA995FCBDA50885BDA066E9BD9BB7BABD9700E2BD9247ABBD8D90CCBD88E075BD843A58BD7F4361BD7632A6BD6D475FBD6485B9BD5BF142 * 2 ^ 2048 +
  0xBDBCEAFFBDC215D6BDC6198ABDC90DE9BDCB09E4BDCC237DBDCC6FB3BDCC0278BDCAEEA9BDC9460EBDC71954BDC47813BDC170D2BDBE110EBDBA6541BDB678EB * 2 ^ 2560 +
  0x3D8130AB3D39E7123CECABDD3C5E8704BA123F07BC5E119BBCD060D7BD1471FCBD3C7248BD605DF7BD80323BBD8E5B9EBD9AC49BBDA58712BDAEBD09BDB68076 * 2 ^ 3072 +
  0x3EF800AB3EE809FC3ED82B293EC873CC3EB8F3083EA9B7623E9ACE973E8C45793E7C4FA03E6100823E46B0753E2D6FCA3E154C3B3DFCA1C03DD10C703DA7E46A * 2 ^ 3584 +
  0x3F6B03733F65DE723F606BC83F5AACF13F54A40D3F4E53E33F47BFDF3F40EC183F39DD433F3298B43F2B244F3F23867C3F1BC61A3F13EA6B3F0BFB023F03FFAB * 2 ^ 4096 +
  0x3F8B68073F8AEBD13F8A58713F89AC4A3F88E5BA3F8803243F8702F03F85E3923F84A3903F8341833F81BC233F8012483F7C85E43F789AA13F74618F3F6FD9EB * 2 ^ 4608 +
  0x3F8B678F3F8BA6543F8BE1113F8C170D3F8C47813F8C71953F8C94613F8CAEEB3F8CC0273F8CC6FB3F8CC2383F8CB09E3F8C90DF3F8C61993F8C215D3F8BCEB0 * 2 ^ 5120 +
  0x3F86DF8A3F87242E3F876A3B3F87B1953F87FA1B3F8843A53F888E073F88D90D3F89247B3F89700E3F89BB7C3F8A066F3F8A50883F8A99603F8AE0803F8B256A * 2 ^ 5632 +
  0x3F837A233F83A3A83F83CECD3F83FB983F842A123F845A423F848C2D3F84BFD93F84F5483F852C7E3F8565793F85A0383F85DCB73F861AF03F865AD93F869C67 * 2 ^ 6144 +
  0x3F819E193F81B3193F81C9143F81E0143F81F8223F8211493F822B933F82470B3F8263BB3F8281AE3F82A0EF3F82C1883F82E3843F8306ED3F832BCF3F835233 * 2 ^ 6656 +
  0x3F80B7A83F80C16D3F80CBB23F80D67B3F80E1CF3F80EDB43F80FA313F81074D3F81150F3F81237E3F8132A13F8142823F8153273F81649A3F8176E23F818A0A * 2 ^ 7168 +
  0x3F804EFC3F8053523F8057E33F805CB23F8061C33F8067173F806CB43F80729C3F8078D33F807F5D3F80863E3F808D7B3F8095173F809D183F80A5833F80AE5B * 2 ^ 7680

/-- The offsets c_k of SiLU. -/
def siluOffsets : Nat :=
  0xBD32AF2DBD2ADFC6BD2360FEBD1C300ABD154A2ABD0EACB3BD08550ABD0240A7BCF8DA21BCEDAFC2BCE2FD8ABCD8BEF1BCCEEF93BCC58B2EBCBC8DA3BCB3F2F3 +
  0xBDB225C3BDAAE3EABDA3E42FBD9D24E1BD96A44ABD9060B9BD8A5878BD8489D8BD7DE64EBD73257ABD68CDE2BD5EDC46BD554D6DBD4C1E2CBD434B69BD3AD214 * 2 ^ 512 +
  0xBE271C65BE210998BE1B2175BE1563D7BE0FD080BE0A671BBE052742BE001078BDF64468BDECB7BDBDE379A4BDDA88BEBDD1E39ABDC988B6BDC17683BDB9AB68 * 2 ^ 1024 +
  0xBE8E9C6CBE8A7329BE86549ABE82425FBE7C7BD7BE749116BE6CC6C7BE651EECBE5D9B41BE563D46BE4F0643BE47F742BE411120BE3A548BBE33C204BE2D59E5 * 2 ^ 1536 +
  0xBECE9993BECB4D68BEC7D44FBEC43394BEC07045BEBC8F33BEB894ECBEB485C1BEB065BEBEAC38B0BEA80226BEA3C56CBE9F8594BE9B4574BE9707A8BE92CE95 * 2 ^ 2048 +
  0xBED885D4BEDB2FEBBEDD51E3BEDEEF87BEE00D44BEE0B010BEE0DD50BEE09AC0BEDFEE5FBEDEDE5CBEDD7102BEDBACAABED997ADBED73857BED494DCBED1B34D * 2 ^ 2560 +
  0xBE52CD0CBE660D86BE790E58BE85D5EBBE8EE298BE979E58BE9FFBE9BEA7EFB1BEAF6FBFBEB673C7BEBCF519BEC2EE8EBEC85C7DBECD3C9BBED18DE7BED55090 * 2 ^ 3072 +
  0x304CC959BAFF6AE7BBBED152BC3DB4D7BC9CDD7BBCE907B9BD213E3EBD541E27BD864A65BDA50367BDC5E777BDE8A063BE066ADDBE191716BE2C2869BE3F732C * 2 ^ 3584 +
  0xBE3F732DBE2C2869BE191716BE066ADCBDE8A060BDC5E779BDA50365BD864A65BD541E23BD213E3BBCE907B9BC9CDD7BBC3DB4D7BBBED14ABAFF6AEA00000000 * 2 ^ 4096 +
  0xBED5508DBED18DEABECD3C9ABEC85C7FBEC2EE8FBEBCF51BBEB673C9BEAF6FBDBEA7EFB1BE9FFBE7BE979E57BE8EE299BE85D5EBBE790E57BE660D86BE52CD0D * 2 ^ 4608 +
  0xBED1B351BED494DBBED73859BED997ACBEDBACA8BEDD70FFBEDEDE5DBEDFEE63BEE09ABBBEE0DD4FBEE0B012BEE00D42BEDEEF8ABEDD51E6BEDB2FE8BED885D5 * 2 ^ 5120 +
  0xBE92CE94BE9707ABBE9B4575BE9F8591BEA3C56BBEA8021FBEAC38ACBEB065C1BEB485C5BEB894EBBEBC8F38BEC0704BBEC43390BEC7D452BECB4D62BECE9995 * 2 ^ 5632 +
  0xBE2D59ECBE33C1F2BE3A5495BE41111CBE47F738BE4F0640BE563D38BE5D9B3EBE651EDABE6CC6D7BE749127BE7C7BE5BE824261BE86549CBE8A7321BE8E9C64 * 2 ^ 6144 +
  0xBDB9AB93BDC17693BDC988BCBDD1E3BCBDDA88C4BDE379A1BDECB7A5BDF6445EBE00106FBE052739BE0A6724BE0FD08BBE1563E3BE1B2168BE21099ABE271C6C * 2 ^ 6656 +
  0xBD3AD225BD434AFCBD4C1E48BD554D72BD5EDC52BD68CDC0BD732544BD7DE63DBD8489EEBD8A5897BD906089BD96A44EBD9D24C2BDA3E43BBDAAE3CCBDB225F3 * 2 ^ 7168 +
  0xBCB3F23FBCBC8CE9BCC58A62BCCEEEB0BCD8BF9FBCE2FD10BCEDB057BCF8DAF5BD02410ABD085555BD0EACC1BD154A82BD1C2FE2BD2360C9BD2AE014BD32AEC5 * 2 ^ 7680

end Sys2Proof.Machine
end

