-- ==== Sys2Proof/Syntax.lean ====
section
/-! DEFINITION. The abstract syntax: one constructor per row of spec/opcode_table.json (R73 to R79, and the
indivisible steps of the part that the table names beside them). A syllable carries its E bit (R61) and its operand
fields as R62 lays them out. The rows that are not syllables carry nothing: the agent, message or entry that such a step acts on is
named by the state's field `focus`, which the machine's step (or an input of the outside world) sets. -/

namespace Sys2Proof

/-- One instruction or one indivisible step of the part. -/
inductive Instr where
  /-- R74. Does nothing for one bundle slot. -/
  | nop (e : Bool)
  /-- R105. Lands (sa + sb) mod 2^32 in sd after 1 beat. -/
  | add (e : Bool) (d : BitVec 6) (a : BitVec 6) (b : BitVec 6)
  /-- R105. Lands (sa - sb) mod 2^32 in sd. -/
  | sub (e : Bool) (d : BitVec 6) (a : BitVec 6) (b : BitVec 6)
  /-- R105. Lands sa AND sb in sd. -/
  | and (e : Bool) (d : BitVec 6) (a : BitVec 6) (b : BitVec 6)
  /-- R105. Lands sa OR sb in sd. -/
  | or (e : Bool) (d : BitVec 6) (a : BitVec 6) (b : BitVec 6)
  /-- R105. Lands sa XOR sb in sd. -/
  | xor (e : Bool) (d : BitVec 6) (a : BitVec 6) (b : BitVec 6)
  /-- R105. Lands sa AND NOT sb in sd. -/
  | andn (e : Bool) (d : BitVec 6) (a : BitVec 6) (b : BitVec 6)
  /-- R105. Lands sa shifted left by sb[4:0] in sd. -/
  | shl (e : Bool) (d : BitVec 6) (a : BitVec 6) (b : BitVec 6)
  /-- R105. Lands sa shifted right, zero-filled, by sb[4:0] in sd. -/
  | shr (e : Bool) (d : BitVec 6) (a : BitVec 6) (b : BitVec 6)
  /-- R105. Lands sa shifted right arithmetically by sb[4:0] in sd. -/
  | sra (e : Bool) (d : BitVec 6) (a : BitVec 6) (b : BitVec 6)
  /-- R105. Lands sa rotated left by sb[4:0] in sd. -/
  | rot (e : Bool) (d : BitVec 6) (a : BitVec 6) (b : BitVec 6)
  /-- R105. Lands the low 32 bits of sa times sb in sd after 3 beats. -/
  | mul (e : Bool) (d : BitVec 6) (a : BitVec 6) (b : BitVec 6)
  /-- R106. Lands bits 63:32 of the signed product of sa and sb. -/
  | mulh (e : Bool) (d : BitVec 6) (a : BitVec 6) (b : BitVec 6)
  /-- R106. Lands bits 63:32 of the unsigned product of sa and sb. -/
  | mulhU (e : Bool) (d : BitVec 6) (a : BitVec 6) (b : BitVec 6)
  /-- R107. Lands the signed quotient of sa by sb after 12 beats, or traps INT_DIVZ on zero. -/
  | div (e : Bool) (d : BitVec 6) (a : BitVec 6) (b : BitVec 6)
  /-- R107. Lands the unsigned quotient of sa by sb, or traps INT_DIVZ on zero. -/
  | divU (e : Bool) (d : BitVec 6) (a : BitVec 6) (b : BitVec 6)
  /-- R107. Lands the signed remainder of sa by sb, or traps INT_DIVZ on zero. -/
  | rem (e : Bool) (d : BitVec 6) (a : BitVec 6) (b : BitVec 6)
  /-- R107. Lands the unsigned remainder of sa by sb, or traps INT_DIVZ on zero. -/
  | remU (e : Bool) (d : BitVec 6) (a : BitVec 6) (b : BitVec 6)
  /-- R105. Lands the signed lesser of sa and sb. -/
  | min (e : Bool) (d : BitVec 6) (a : BitVec 6) (b : BitVec 6)
  /-- R105. Lands the unsigned lesser of sa and sb. -/
  | minU (e : Bool) (d : BitVec 6) (a : BitVec 6) (b : BitVec 6)
  /-- R105. Lands the signed greater of sa and sb. -/
  | max (e : Bool) (d : BitVec 6) (a : BitVec 6) (b : BitVec 6)
  /-- R105. Lands the unsigned greater of sa and sb. -/
  | maxU (e : Bool) (d : BitVec 6) (a : BitVec 6) (b : BitVec 6)
  /-- R108. Lands 1 if the condition coded in x holds between sa and sb, else 0. -/
  | cmp (e : Bool) (d : BitVec 6) (a : BitVec 6) (b : BitVec 6) (c : BitVec 5)
  /-- R109. Lands sa if sb is nonzero, else the old sd. -/
  | cmov (e : Bool) (d : BitVec 6) (a : BitVec 6) (b : BitVec 6)
  /-- R109. Lands the count of leading zero bits of sa. -/
  | clz (e : Bool) (d : BitVec 6) (a : BitVec 6)
  /-- R109. Lands the count of one bits of sa. -/
  | popc (e : Bool) (d : BitVec 6) (a : BitVec 6)
  /-- R110. Extracts a bit field of sa at pos with width sb[5:0]. -/
  | bext (e : Bool) (d : BitVec 6) (a : BitVec 6) (b : BitVec 6) (p : BitVec 5)
  /-- R110. Inserts the low bits of sa into sd at pos with width sb[5:0]. -/
  | bins (e : Bool) (d : BitVec 6) (a : BitVec 6) (b : BitVec 6) (p : BitVec 5)
  /-- R111. Lands sa plus the sign-extended immediate. -/
  | addi (e : Bool) (d : BitVec 6) (a : BitVec 6) (i : BitVec 11)
  /-- R111. Lands sa AND the sign-extended immediate. -/
  | andi (e : Bool) (d : BitVec 6) (a : BitVec 6) (i : BitVec 11)
  /-- R111. Lands sa OR the sign-extended immediate. -/
  | ori (e : Bool) (d : BitVec 6) (a : BitVec 6) (i : BitVec 11)
  /-- R111. Lands sa XOR the sign-extended immediate. -/
  | xori (e : Bool) (d : BitVec 6) (a : BitVec 6) (i : BitVec 11)
  /-- R111. Lands sa shifted left by the immediate. -/
  | shli (e : Bool) (d : BitVec 6) (a : BitVec 6) (i : BitVec 11)
  /-- R111. Lands sa shifted right, zero-filled, by the immediate. -/
  | shri (e : Bool) (d : BitVec 6) (a : BitVec 6) (i : BitVec 11)
  /-- R111. Lands sa shifted right arithmetically by the immediate. -/
  | srai (e : Bool) (d : BitVec 6) (a : BitVec 6) (i : BitVec 11)
  /-- R111. Lands sa times the immediate after 3 beats. -/
  | muli (e : Bool) (d : BitVec 6) (a : BitVec 6) (i : BitVec 11)
  /-- R111. Lands 1 if sa equals the immediate. -/
  | cmpeqi (e : Bool) (d : BitVec 6) (a : BitVec 6) (i : BitVec 11)
  /-- R111. Lands 1 if sa is less than the immediate, signed. -/
  | cmplti (e : Bool) (d : BitVec 6) (a : BitVec 6) (i : BitVec 11)
  /-- R111. Lands 1 if sa is less than the sign-extended immediate, unsigned. -/
  | cmpltui (e : Bool) (d : BitVec 6) (a : BitVec 6) (i : BitVec 11)
  /-- R112. Lands the sign-extended 17-bit immediate. -/
  | li (e : Bool) (d : BitVec 6) (i : BitVec 17)
  /-- R112. Replaces bits 31:15 of sd with the immediate. -/
  | lih (e : Bool) (d : BitVec 6) (i : BitVec 17)
  /-- R157. Lands the numbered strand special register in sd after 2 beats. -/
  | mfs (e : Bool) (d : BitVec 6) (n : BitVec 11)
  /-- R157. Writes sa to the numbered strand special register with L = 1. -/
  | mts (e : Bool) (a : BitVec 6) (n : BitVec 11)
  /-- R403. Lands CYC[31:0] after 1 beat. -/
  | rdcyc (e : Bool) (d : BitVec 6)
  /-- R160. Lands the identity word selected by n. -/
  | rdid (e : Bool) (d : BitVec 6) (n : BitVec 11)
  /-- R113. Lands qa AND qb in a predicate. -/
  | pand (e : Bool) (d : BitVec 6) (a : BitVec 6) (b : BitVec 6)
  /-- R113. Lands qa OR qb in a predicate. -/
  | por (e : Bool) (d : BitVec 6) (a : BitVec 6) (b : BitVec 6)
  /-- R113. Lands qa XOR qb in a predicate. -/
  | pxor (e : Bool) (d : BitVec 6) (a : BitVec 6) (b : BitVec 6)
  /-- R113. Lands qa AND NOT qb in a predicate. -/
  | pandn (e : Bool) (d : BitVec 6) (a : BitVec 6) (b : BitVec 6)
  /-- R113. Lands all bits of sa in a predicate. -/
  | pfs (e : Bool) (d : BitVec 6) (a : BitVec 6)
  /-- R113. Lands a predicate's bits in a scalar register. -/
  | pts (e : Bool) (d : BitVec 6) (a : BitVec 6)
  /-- R113. Lands the number of one bits of a predicate. -/
  | pcnt (e : Bool) (d : BitVec 6) (a : BitVec 6)
  /-- R113. Lands the index of the lowest one bit of a predicate, or 32. -/
  | pfirst (e : Bool) (d : BitVec 6) (a : BitVec 6)
  /-- R188. Loads a sign-extended byte through a handle, landing in 3 beats. -/
  | ldb (e : Bool) (d : BitVec 6) (h : BitVec 4) (a : BitVec 6) (i : BitVec 7)
  /-- R188. Loads a zero-extended byte through a handle. -/
  | ldbu (e : Bool) (d : BitVec 6) (h : BitVec 4) (a : BitVec 6) (i : BitVec 7)
  /-- R188. Loads a sign-extended half-word through a handle. -/
  | ldh (e : Bool) (d : BitVec 6) (h : BitVec 4) (a : BitVec 6) (i : BitVec 7)
  /-- R188. Loads a zero-extended half-word through a handle. -/
  | ldhu (e : Bool) (d : BitVec 6) (h : BitVec 4) (a : BitVec 6) (i : BitVec 7)
  /-- R188. Loads a word through a handle. -/
  | ldw (e : Bool) (d : BitVec 6) (h : BitVec 4) (a : BitVec 6) (i : BitVec 7)
  /-- R188. Stores sd[7:0] through a handle at the end of its issue cycle. -/
  | stb (e : Bool) (d : BitVec 6) (h : BitVec 4) (a : BitVec 6) (i : BitVec 7)
  /-- R188. Stores sd[15:0] through a handle. -/
  | sth (e : Bool) (d : BitVec 6) (h : BitVec 4) (a : BitVec 6) (i : BitVec 7)
  /-- R188. Stores sd through a handle. -/
  | stw (e : Bool) (d : BitVec 6) (h : BitVec 4) (a : BitVec 6) (i : BitVec 7)
  /-- R190. Loads 128 bytes into vd with the given tag, landing in 4 beats. -/
  | vld (e : Bool) (d : BitVec 6) (h : BitVec 4) (a : BitVec 6) (t : BitVec 3) (i : BitVec 4)
  /-- R190. Checks vd's tag and stores its 128 bytes. -/
  | vst (e : Bool) (d : BitVec 6) (h : BitVec 4) (a : BitVec 6) (t : BitVec 3) (i : BitVec 4)
  /-- R190. Loads one word into every lane of vd. -/
  | vldb (e : Bool) (d : BitVec 6) (h : BitVec 4) (a : BitVec 6) (t : BitVec 3) (i : BitVec 4)
  /-- R192. Gathers one word per lane at the offsets held in va. -/
  | vgth (e : Bool) (d : BitVec 6) (h : BitVec 4) (a : BitVec 6) (t : BitVec 3) (i : BitVec 4)
  /-- R192. Scatters one word per lane to the offsets held in va. -/
  | vsct (e : Bool) (d : BitVec 6) (h : BitVec 4) (a : BitVec 6) (t : BitVec 3) (i : BitVec 4)
  /-- R191. Loads one word per lane at the stride held in s(a+1). -/
  | vlds (e : Bool) (d : BitVec 6) (h : BitVec 4) (a : BitVec 6) (t : BitVec 3) (i : BitVec 4)
  /-- R191. Stores one word per lane at the stride held in s(a+1). -/
  | vsts (e : Bool) (d : BitVec 6) (h : BitVec 4) (a : BitVec 6) (t : BitVec 3) (i : BitVec 4)
  /-- R114. Translates a virtual page to a page handle, landing in 6 beats, or kills the context on XLAT_MISS. -/
  | xlat (e : Bool) (d : BitVec 6) (a : BitVec 6) (b : BitVec 6)
  /-- R115. Clears V and REV of a handle. -/
  | hinv (e : Bool) (d : BitVec 6)
  /-- R116. Lands word 0 of a handle in sd. -/
  | hchk (e : Bool) (d : BitVec 6) (a : BitVec 6)
  /-- R195. Adds sb to a local word atomically and lands the old word in 5 beats. -/
  | amoadd (e : Bool) (d : BitVec 6) (h : BitVec 4) (a : BitVec 6) (b : BitVec 6)
  /-- R195. ANDs sb into a local word atomically. -/
  | amoand (e : Bool) (d : BitVec 6) (h : BitVec 4) (a : BitVec 6) (b : BitVec 6)
  /-- R195. ORs sb into a local word atomically. -/
  | amoor (e : Bool) (d : BitVec 6) (h : BitVec 4) (a : BitVec 6) (b : BitVec 6)
  /-- R195. XORs sb into a local word atomically. -/
  | amoxor (e : Bool) (d : BitVec 6) (h : BitVec 4) (a : BitVec 6) (b : BitVec 6)
  /-- R195. Writes the signed lesser of the word and sb atomically. -/
  | amomin (e : Bool) (d : BitVec 6) (h : BitVec 4) (a : BitVec 6) (b : BitVec 6)
  /-- R195. Writes the signed greater of the word and sb atomically. -/
  | amomax (e : Bool) (d : BitVec 6) (h : BitVec 4) (a : BitVec 6) (b : BitVec 6)
  /-- R195. Swaps sb into a local word atomically. -/
  | amoswp (e : Bool) (d : BitVec 6) (h : BitVec 4) (a : BitVec 6) (b : BitVec 6)
  /-- R195. Writes sb if the word equals sd, atomically. -/
  | amocas (e : Bool) (d : BitVec 6) (h : BitVec 4) (a : BitVec 6) (b : BitVec 6)
  /-- R195. Adds sb to a local word as FP32 with RNE, atomically. -/
  | amofadd (e : Bool) (d : BitVec 6) (h : BitVec 4) (a : BitVec 6) (b : BitVec 6)
  /-- R196. Stalls until the covered earlier operations are performed within the scope. -/
  | fence (e : Bool) (k : BitVec 2) (s : BitVec 3)
  /-- R161. Branches unconditionally. -/
  | br (e : Bool) (o : BitVec 17)
  /-- R161. Branches when sc is zero. -/
  | bz (e : Bool) (c : BitVec 6) (o : BitVec 17)
  /-- R161. Branches when sc is nonzero. -/
  | bnz (e : Bool) (c : BitVec 6) (o : BitVec 17)
  /-- R161. Branches when a predicate is all ones. -/
  | bqa (e : Bool) (c : BitVec 6) (o : BitVec 17)
  /-- R161. Branches when a predicate is zero. -/
  | bqn (e : Bool) (c : BitVec 6) (o : BitVec 17)
  /-- R162. Branches and lands the return address in s63. -/
  | call (e : Bool) (o : BitVec 17)
  /-- R162. Branches to sa[14:0]. -/
  | jr (e : Bool) (a : BitVec 6)
  /-- R342. Closes the kernel: waits, then stops, traps, ends, parks or starts the next iteration. -/
  | loop (e : Bool)
  /-- R163. Stalls until the named unit's completion counter has fired. -/
  | wait (e : Bool) (a : BitVec 6)
  /-- R343. Starts the lowest idle strand as a sibling at the target, or traps SPAWN_BUSY. -/
  | spawn (e : Bool) (c : BitVec 6) (o : BitVec 17)
  /-- R338. Binds the descriptor at sa into the record cache and delivers the id or a failure word. -/
  | bind (e : Bool) (d : BitVec 6) (a : BitVec 6)
  /-- R340. Frees the record cache entry that sa names. -/
  | unbind (e : Bool) (a : BitVec 6)
  /-- R349. Cancels the record, placement, phase or job that sa names. -/
  | cancel (e : Bool) (a : BitVec 6) (l : BitVec 11)
  /-- R350. Sets the record's declared and effective priority. -/
  | prio (e : Bool) (a : BitVec 6)
  /-- R167. Raises SW_TRAP with TVAL = n. -/
  | trap (e : Bool) (n : BitVec 23)
  /-- R172. Returns from the current trap level, restoring RRB and scheduling replay entries. -/
  | rtt (e : Bool)
  /-- R164. Ends the strand's execution of its record once its operations are complete. -/
  | halt (e : Bool)
  /-- R165. Ends the strand's turn in the deficit round-robin. -/
  | yield (e : Bool)
  /-- R167. Raises EBRK with TVAL = n. -/
  | ebrk (e : Bool) (n : BitVec 23)
  /-- R157. Lands a privileged special register in sd after 2 beats. -/
  | mfc (e : Bool) (d : BitVec 6) (n : BitVec 11)
  /-- R157. Writes sa to a privileged special register with L = 1. -/
  | mtc (e : Bool) (a : BitVec 6) (n : BitVec 11)
  /-- R329. Appends a 16-byte entry to a hardware queue as a release. -/
  | qpush (e : Bool) (a : BitVec 6) (b : BitVec 6) (h : BitVec 4) (t : BitVec 6)
  /-- R329. Removes a 16-byte entry from a hardware queue as an acquire. -/
  | qpop (e : Bool) (a : BitVec 6) (b : BitVec 6) (h : BitVec 4) (t : BitVec 6)
  /-- R137. Adds I32 lanes. -/
  | vaddI (e : Bool) (d : BitVec 6) (a : BitVec 6) (b : BitVec 6) (q : BitVec 3) (m : BitVec 2)
  /-- R137. Subtracts I32 lanes. -/
  | vsubI (e : Bool) (d : BitVec 6) (a : BitVec 6) (b : BitVec 6) (q : BitVec 3) (m : BitVec 2)
  /-- R137. Multiplies I32 lanes modulo 2^32. -/
  | vmulI (e : Bool) (d : BitVec 6) (a : BitVec 6) (b : BitVec 6) (q : BitVec 3) (m : BitVec 2)
  /-- R137. Takes the signed lesser of I32 lanes. -/
  | vminI (e : Bool) (d : BitVec 6) (a : BitVec 6) (b : BitVec 6) (q : BitVec 3) (m : BitVec 2)
  /-- R137. Takes the signed greater of I32 lanes. -/
  | vmaxI (e : Bool) (d : BitVec 6) (a : BitVec 6) (b : BitVec 6) (q : BitVec 3) (m : BitVec 2)
  /-- R137. ANDs lanes with joined tag. -/
  | vand (e : Bool) (d : BitVec 6) (a : BitVec 6) (b : BitVec 6) (q : BitVec 3) (m : BitVec 2)
  /-- R137. ORs lanes with joined tag. -/
  | vor (e : Bool) (d : BitVec 6) (a : BitVec 6) (b : BitVec 6) (q : BitVec 3) (m : BitVec 2)
  /-- R137. XORs lanes with joined tag. -/
  | vxor (e : Bool) (d : BitVec 6) (a : BitVec 6) (b : BitVec 6) (q : BitVec 3) (m : BitVec 2)
  /-- R137. Shifts I32 lanes left. -/
  | vshl (e : Bool) (d : BitVec 6) (a : BitVec 6) (b : BitVec 6) (q : BitVec 3) (m : BitVec 2)
  /-- R137. Shifts I32 lanes right, zero-filled. -/
  | vshr (e : Bool) (d : BitVec 6) (a : BitVec 6) (b : BitVec 6) (q : BitVec 3) (m : BitVec 2)
  /-- R137. Shifts I32 lanes right arithmetically. -/
  | vsra (e : Bool) (d : BitVec 6) (a : BitVec 6) (b : BitVec 6) (q : BitVec 3) (m : BitVec 2)
  /-- R138. Sets predicate bits where I32 lanes are equal. -/
  | vceqI (e : Bool) (d : BitVec 6) (a : BitVec 6) (b : BitVec 6) (q : BitVec 3) (m : BitVec 2)
  /-- R138. Sets predicate bits where I32 lanes are less, signed. -/
  | vcltI (e : Bool) (d : BitVec 6) (a : BitVec 6) (b : BitVec 6) (q : BitVec 3) (m : BitVec 2)
  /-- R138. Sets predicate bits where I32 lanes are less, unsigned. -/
  | vcltuI (e : Bool) (d : BitVec 6) (a : BitVec 6) (b : BitVec 6) (q : BitVec 3) (m : BitVec 2)
  /-- R139. Adds FP32 lanes. -/
  | vaddF (e : Bool) (d : BitVec 6) (a : BitVec 6) (b : BitVec 6) (q : BitVec 3) (m : BitVec 2)
  /-- R139. Subtracts FP32 lanes. -/
  | vsubF (e : Bool) (d : BitVec 6) (a : BitVec 6) (b : BitVec 6) (q : BitVec 3) (m : BitVec 2)
  /-- R139. Multiplies FP32 lanes. -/
  | vmulF (e : Bool) (d : BitVec 6) (a : BitVec 6) (b : BitVec 6) (q : BitVec 3) (m : BitVec 2)
  /-- R139. Computes vd + va × vb with one rounding. -/
  | vfmaF (e : Bool) (d : BitVec 6) (a : BitVec 6) (b : BitVec 6) (q : BitVec 3) (m : BitVec 2)
  /-- R139. Computes vd − va × vb with one rounding. -/
  | vfmsF (e : Bool) (d : BitVec 6) (a : BitVec 6) (b : BitVec 6) (q : BitVec 3) (m : BitVec 2)
  /-- R139. Divides FP32 lanes, correctly rounded, in 14 beats. -/
  | vdivF (e : Bool) (d : BitVec 6) (a : BitVec 6) (b : BitVec 6) (q : BitVec 3) (m : BitVec 2)
  /-- R139. Takes the square root of FP32 lanes. -/
  | vsqrtF (e : Bool) (d : BitVec 6) (a : BitVec 6) (q : BitVec 3) (m : BitVec 2)
  /-- R139. Takes the reciprocal of FP32 lanes, rounded once with ties to even. -/
  | vrcpF (e : Bool) (d : BitVec 6) (a : BitVec 6) (q : BitVec 3) (m : BitVec 2)
  /-- R139. Takes the reciprocal square root of FP32 lanes. -/
  | vrsqF (e : Bool) (d : BitVec 6) (a : BitVec 6) (q : BitVec 3) (m : BitVec 2)
  /-- R139. Takes the lesser of FP32 lanes. -/
  | vminF (e : Bool) (d : BitVec 6) (a : BitVec 6) (b : BitVec 6) (q : BitVec 3) (m : BitVec 2)
  /-- R139. Takes the greater of FP32 lanes. -/
  | vmaxF (e : Bool) (d : BitVec 6) (a : BitVec 6) (b : BitVec 6) (q : BitVec 3) (m : BitVec 2)
  /-- R139. Clears the sign bit of each lane. -/
  | vabsF (e : Bool) (d : BitVec 6) (a : BitVec 6) (q : BitVec 3) (m : BitVec 2)
  /-- R139. Inverts the sign bit of each lane. -/
  | vnegF (e : Bool) (d : BitVec 6) (a : BitVec 6) (q : BitVec 3) (m : BitVec 2)
  /-- R138. Sets predicate bits where FP32 lanes are equal. -/
  | vceqF (e : Bool) (d : BitVec 6) (a : BitVec 6) (b : BitVec 6) (q : BitVec 3) (m : BitVec 2)
  /-- R138. Sets predicate bits where FP32 lanes are less. -/
  | vcltF (e : Bool) (d : BitVec 6) (a : BitVec 6) (b : BitVec 6) (q : BitVec 3) (m : BitVec 2)
  /-- R138. Sets predicate bits where FP32 lanes are less or equal. -/
  | vcleF (e : Bool) (d : BitVec 6) (a : BitVec 6) (b : BitVec 6) (q : BitVec 3) (m : BitVec 2)
  /-- R139. Computes 2^x per lane, rounded once with ties to even. -/
  | vexp2F (e : Bool) (d : BitVec 6) (a : BitVec 6) (q : BitVec 3) (m : BitVec 2)
  /-- R139. Computes log2 x per lane, rounded once with ties to even. -/
  | vlog2F (e : Bool) (d : BitVec 6) (a : BitVec 6) (q : BitVec 3) (m : BitVec 2)
  /-- R140. Converts I32 lanes to FP32. -/
  | vcvtFI (e : Bool) (d : BitVec 6) (a : BitVec 6) (q : BitVec 3) (m : BitVec 2)
  /-- R140. Converts FP32 lanes to saturated I32. -/
  | vcvtIF (e : Bool) (d : BitVec 6) (a : BitVec 6) (q : BitVec 3) (m : BitVec 2)
  /-- R142. Packs FP32 lanes into E4M3 part N of vd, counting CVT_SAT8. -/
  | vpkE4m3 (e : Bool) (d : BitVec 6) (a : BitVec 6) (p : BitVec 2) (q : BitVec 3) (m : BitVec 2)
  /-- R141. Unpacks E4M3 part N to FP32. -/
  | vupE4m3 (e : Bool) (d : BitVec 6) (a : BitVec 6) (p : BitVec 2) (q : BitVec 3) (m : BitVec 2)
  /-- R142. Packs saturated I32 lanes into INT8 part N of vd. -/
  | vpkI8 (e : Bool) (d : BitVec 6) (a : BitVec 6) (p : BitVec 2) (q : BitVec 3) (m : BitVec 2)
  /-- R141. Sign-extends INT8 part N to I32. -/
  | vupI8 (e : Bool) (d : BitVec 6) (a : BitVec 6) (p : BitVec 2) (q : BitVec 3) (m : BitVec 2)
  /-- R142. Packs FP32 lanes into BF16 part N of vd. -/
  | vpkBf16 (e : Bool) (d : BitVec 6) (a : BitVec 6) (p : BitVec 1) (q : BitVec 3) (m : BitVec 2)
  /-- R141. Unpacks BF16 part N to FP32. -/
  | vupBf16 (e : Bool) (d : BitVec 6) (a : BitVec 6) (p : BitVec 1) (q : BitVec 3) (m : BitVec 2)
  /-- R143. Sums FP32 lanes in a fixed tree. -/
  | vredaddF (e : Bool) (d : BitVec 6) (a : BitVec 6) (q : BitVec 3) (m : BitVec 2)
  /-- R143. Takes the FP32 maximum of lanes in a fixed tree. -/
  | vredmaxF (e : Bool) (d : BitVec 6) (a : BitVec 6) (q : BitVec 3) (m : BitVec 2)
  /-- R143. Sums I32 lanes. -/
  | vredaddI (e : Bool) (d : BitVec 6) (a : BitVec 6) (q : BitVec 3) (m : BitVec 2)
  /-- R143. Takes the signed maximum of I32 lanes. -/
  | vredmaxI (e : Bool) (d : BitVec 6) (a : BitVec 6) (q : BitVec 3) (m : BitVec 2)
  /-- R144. Permutes lanes of va by indices in vb. -/
  | vperm (e : Bool) (d : BitVec 6) (a : BitVec 6) (b : BitVec 6) (q : BitVec 3) (m : BitVec 2)
  /-- R144. Broadcasts one lane of va. -/
  | vbcast (e : Bool) (d : BitVec 6) (a : BitVec 6) (l : BitVec 6) (q : BitVec 3) (m : BitVec 2)
  /-- R144. Slides lanes of va by n, filling with zero. -/
  | vslide (e : Bool) (d : BitVec 6) (a : BitVec 6) (n : BitVec 6) (q : BitVec 3) (m : BitVec 2)
  /-- R144. Selects lanes of va or vb by predicate. -/
  | vsel (e : Bool) (d : BitVec 6) (a : BitVec 6) (b : BitVec 6) (q : BitVec 3)
  /-- R144. Copies va to vd. -/
  | vmov (e : Bool) (d : BitVec 6) (a : BitVec 6) (q : BitVec 3) (m : BitVec 2)
  /-- R145. Copies va to vd across clusters. -/
  | vxm (e : Bool) (d : BitVec 6) (a : BitVec 6) (q : BitVec 3) (m : BitVec 2)
  /-- R146. Writes sa into lane sb[4:0] of vd. -/
  | vins (e : Bool) (d : BitVec 6) (a : BitVec 6) (b : BitVec 6) (q : BitVec 3) (m : BitVec 2)
  /-- R147. Lands lane sb[4:0] of va in a scalar register. -/
  | vext (e : Bool) (d : BitVec 6) (a : BitVec 6) (b : BitVec 6)
  /-- R148. Relands vd with a new format tag. -/
  | vtag (e : Bool) (d : BitVec 6) (g : BitVec 3) (q : BitVec 3) (m : BitVec 2)
  /-- R148. Lands the tag of va in a scalar register. -/
  | vgtag (e : Bool) (d : BitVec 6) (a : BitVec 6)
  /-- R144. Writes each lane's index. -/
  | viota (e : Bool) (d : BitVec 6) (q : BitVec 3) (m : BitVec 2)
  /-- R144. Writes sa into every lane with tag RAW. -/
  | vsplat (e : Bool) (d : BitVec 6) (a : BitVec 6) (q : BitVec 3) (m : BitVec 2)
  /-- R149. Applies E8M12 block scales in va to FP32 lanes of vb. -/
  | vbscl (e : Bool) (d : BitVec 6) (a : BitVec 6) (b : BitVec 6) (q : BitVec 3) (m : BitVec 2)
  /-- R236. Writes a field of a matrix descriptor set. -/
  | mset (e : Bool) (a : BitVec 6) (f : BitVec 5) (n : BitVec 5)
  /-- R236. Delivers a field of a matrix descriptor set. -/
  | mget (e : Bool) (d : BitVec 6) (f : BitVec 5) (n : BitVec 5)
  /-- R237. Queues the expansion of a weight tile into the idle bank. -/
  | wld (e : Bool) (a : BitVec 6) (b : BitVec 6) (s : BitVec 5) (t : BitVec 6)
  /-- R238. Queues a flip of the active bank. -/
  | mswap (e : Bool) (t : BitVec 6)
  /-- R239. Passes activation rows as the last block and drains them to sb. -/
  | mmul (e : Bool) (a : BitVec 6) (b : BitVec 6) (s : BitVec 5) (t : BitVec 6)
  /-- R239. Passes activation rows, adding one K-block to the accumulators. -/
  | macc (e : Bool) (a : BitVec 6) (s : BitVec 5) (t : BitVec 6)
  /-- R240. Drains accumulator rows through the result chain. -/
  | mdrain (e : Bool) (a : BitVec 6) (s : BitVec 5) (t : BitVec 6)
  /-- R241. Checks, writes and arms a result chain descriptor. -/
  | mchain (e : Bool) (a : BitVec 6) (b : BitVec 6) (s : BitVec 5) (t : BitVec 6)
  /-- R242. Writes chk of a descriptor set and delivers the mode that would be in force. -/
  | mchk (e : Bool) (a : BitVec 6) (s : BitVec 5) (t : BitVec 6)
  /-- R407. Delivers a counter or monitor item and optionally clears it. -/
  | mstat (e : Bool) (a : BitVec 6) (b : BitVec 6) (s : BitVec 5) (t : BitVec 6)
  /-- R243. Stalls until the strand's earlier array commands complete and raises a pending error. -/
  | mfence (e : Bool)
  /-- R252. Writes a field of a copy descriptor set. -/
  | cset (e : Bool) (a : BitVec 6) (f : BitVec 5) (n : BitVec 5)
  /-- R252. Delivers a field of a copy descriptor set. -/
  | cget (e : Bool) (d : BitVec 6) (f : BitVec 5) (n : BitVec 5)
  /-- R256. Starts a copy of up to 64 KiB described by a copy descriptor set. -/
  | cpy (e : Bool) (a : BitVec 6) (b : BitVec 6) (s : BitVec 5) (t : BitVec 6)
  /-- R256. Starts a block copy across consecutive pages of one cell. -/
  | cpyb (e : Bool) (a : BitVec 6) (b : BitVec 6) (s : BitVec 5) (t : BitVec 6)
  /-- R260. Sends a one-sided remote store and delivers its new token. -/
  | rst (e : Bool) (a : BitVec 6) (b : BitVec 6) (r : BitVec 1) (h : BitVec 4) (t : BitVec 6)
  /-- R262. Sends a remote store carried behind the token read from st. -/
  | rstc (e : Bool) (a : BitVec 6) (b : BitVec 6) (r : BitVec 1) (h : BitVec 4) (t : BitVec 6)
  /-- R261. Sends a remote word read and delivers the word. -/
  | rld (e : Bool) (a : BitVec 6) (r : BitVec 1) (h : BitVec 4) (t : BitVec 6)
  /-- R261. Reads 128 remote bytes into the local offset sb. -/
  | rldBlock (e : Bool) (a : BitVec 6) (b : BitVec 6) (r : BitVec 1) (h : BitVec 4) (t : BitVec 6)
  /-- R260. Sends a remote FP32 atomic add returning the old word. -/
  | rfadd (e : Bool) (a : BitVec 6) (b : BitVec 6) (r : BitVec 1) (h : BitVec 4) (t : BitVec 6)
  /-- R260. Sends a remote integer atomic add. -/
  | radd (e : Bool) (a : BitVec 6) (b : BitVec 6) (r : BitVec 1) (h : BitVec 4) (t : BitVec 6)
  /-- R260. Sends a remote signed atomic max. -/
  | rmax (e : Bool) (a : BitVec 6) (b : BitVec 6) (r : BitVec 1) (h : BitVec 4) (t : BitVec 6)
  /-- R260. Sends a remote atomic swap. -/
  | rswp (e : Bool) (a : BitVec 6) (b : BitVec 6) (r : BitVec 1) (h : BitVec 4) (t : BitVec 6)
  /-- R376. Delivers the landed and error status of a token. -/
  | tchk (e : Bool) (a : BitVec 6) (t : BitVec 6)
  /-- R377. Stalls until a token has landed, as an acquire. -/
  | twt (e : Bool) (a : BitVec 6)
  /-- R378. Makes a token that lands when both input tokens have landed. -/
  | tjoin (e : Bool) (a : BitVec 6) (b : BitVec 6) (t : BitVec 6)
  /-- R287. Pushes a packet on an out-channel, waiting for a free buffer. -/
  | spush (e : Bool) (a : BitVec 6) (b : BitVec 6) (s : BitVec 5) (t : BitVec 6)
  /-- R288. Claims the next slot of an in-channel. -/
  | spop (e : Bool) (s : BitVec 5) (t : BitVec 6)
  /-- R289. Releases the oldest popped slots of an in-channel. -/
  | srel (e : Bool) (a : BitVec 6) (s : BitVec 5)
  /-- R290. Delivers a field of a channel end. -/
  | sget (e : Bool) (a : BitVec 6) (o : BitVec 1) (c : BitVec 4) (t : BitVec 6)
  /-- R290. Writes a field of a channel end and delivers the old value. -/
  | sset (e : Bool) (a : BitVec 6) (o : BitVec 1) (c : BitVec 4) (t : BitVec 6)
  /-- R291. Pushes one packet to every member of a multicast group. -/
  | mcast (e : Bool) (a : BitVec 6) (b : BitVec 6) (s : BitVec 5) (t : BitVec 6)
  /-- R292. Writes an in-channel's rate words and restarts its controller. -/
  | rctl (e : Bool) (a : BitVec 6) (b : BitVec 6) (s : BitVec 5)
  /-- R392. Arms a transaction barrier for a new phase. -/
  | tbinit (e : Bool) (a : BitVec 6) (b : BitVec 6) (s : BitVec 5) (t : BitVec 6)
  /-- R393. Counts an arrival and sectors on a barrier as a release. -/
  | tbarr (e : Bool) (a : BitVec 6) (s : BitVec 5) (t : BitVec 6)
  /-- R394. Stalls until a barrier phase completes or a timeout passes. -/
  | tbwait (e : Bool) (a : BitVec 6) (b : BitVec 6) (s : BitVec 5) (t : BitVec 6)
  /-- R64. A syllable with a reserved opcode, a nonzero zero-marked field or an unassigned sub-operation value raises ILLEGAL_OP. -/
  | reservedEncoding (w : Word)
  /-- R80. A fixed-latency result or replay entry lands in its physical register at its due beat. -/
  | resultLanding
  /-- R331. A held fault entry is appended once its queue is enabled and has room. -/
  | faultEntryAppend
  /-- R344. On a free strand the context engine starts or restores the highest-priority eligible record. -/
  | contextRestore
  /-- R341. A bound record starts its first iteration once its start condition holds. -/
  | recordStart
  /-- R335. A record ends once its operations complete, closing its channels and firing its completion. -/
  | recordEnd
  /-- R348. After each AGELIM cycles a waiting record gains one effective priority. -/
  | prioAging
  /-- R339. A write to RBIND binds the staged descriptor and sets RBRES. -/
  | rbind
  /-- R215. The expander starts a queued wld once its target bank can be written. -/
  | wldExpansionStart
  /-- R237. The expansion ends, leaving the bank READY or EMPTY and delivering the wld word. -/
  | wldComplete
  /-- R216. After earlier wlds end, ACT flips and the new bank value is delivered. -/
  | mswapFlip
  /-- R220. A row's block partial reaches its accumulators 66 cycles after its last feed. -/
  | arrayRowAccumulate
  /-- R228. The drain unit reads a row, runs it through the chain and writes or pushes it. -/
  | drainRow
  /-- R241. The chain's bias and table reads end and mchain delivers 0. -/
  | chainParametersRead
  /-- R257. The destination performs one copy sector and counts barrier sectors. -/
  | copySectorPerform
  /-- R260. A remote store request arrives and is performed at the destination. -/
  | remoteStorePerform
  /-- R260. A remote read request arrives and is answered with the word. -/
  | remoteReadPerform
  /-- R260. A remote atomic arrives and is performed, returning the old word. -/
  | remoteAtomicPerform
  /-- R260. A read or atomic response reaches the source and is delivered. -/
  | responseArrival
  /-- R264. An error response reaches the source and lands the operation with an error. -/
  | errorResponse
  /-- R364. A landed acknowledgement decrements the token entry's COUNT. -/
  | landedAck
  /-- R367. A carried request is held, answered HELD and watched, or NACKed. -/
  | carriedRequestArrival
  /-- R366. A HELD answer reaches the source and releases later carried requests of the queue. -/
  | held
  /-- R371. A NACK reaches the source, which resends after back-off or abandons. -/
  | nack
  /-- R371. The back-off ends and the NACKed request is resent. -/
  | nackBackoffExpiry
  /-- R368. A WATCH reaches a token's origin, which releases, records a watcher or answers BUSY. -/
  | watch
  /-- R370. A RELEASE reaches a holder, readying its hold entries or ending a wait. -/
  | release
  /-- R368. A BUSY answer frees the hold entry with NACK, or schedules a WATCH retry. -/
  | busy
  /-- R377. The back-off after BUSY ends and the WATCH is resent. -/
  | watchRetryExpiry
  /-- R377. No RELEASE arrives within TOKEXP cycles, so the wait or join fails with an expiry. -/
  | watchTimeout
  /-- R370. A READY hold entry is performed in order and acknowledged. -/
  | holdEntryPerform
  /-- R372. A held entry reaching TOKEXP is discarded with an EXPIRED response. -/
  | holdEntryExpiry
  /-- R376. A QUERY reaches a token's origin and is answered with its status. -/
  | query
  /-- R376. The QUERY answer returns and tchk delivers it. -/
  | queryAnswer
  /-- R376. No QUERY answer within TOKEXP cycles, so tchk delivers 0x3. -/
  | queryTimeout
  /-- R278. A stream packet fills its in-channel slot, or is discarded if the end is not OPEN. -/
  | packetArrival
  /-- R277. A credit increments an out-channel's free-buffer count. -/
  | creditArrival
  /-- R271. A close notice makes the peer out-channel CLOSED. -/
  | closeNotice
  /-- R285. A dead notice makes a channel end DEAD. -/
  | deadNotice
  /-- R296. A producer weight arrives and is applied in the next cycle. -/
  | weightArrival
  /-- R296. At each period end the rate controller updates I and sends new weights. -/
  | controllerPeriodEnd
  /-- R287. A push's payload has been read and its st is delivered. -/
  | pushComplete
  /-- R288. The claimed slot's packet has arrived and its header offset is delivered. -/
  | spopDelivery
  /-- R289. After earlier reads finish, released slots free and credits go to the peer. -/
  | srelRelease
  /-- R324. A write to IDOOR doorbells a staged ingress packet. -/
  | ingressDoorbell
  /-- R324. A doorbelled stage is forwarded to its in-channel once the peer is open and IFBC allows. -/
  | ingressStageForward
  /-- R324. Setting ICTL.EN sets IFBC to the slot count. -/
  | ingressEnable
  /-- R324. Clearing ICTL.EN discards pending doorbells and frees both stages. -/
  | ingressDisable
  /-- R325. Setting ECTL.EN sets WPTR to 0 and accepts packets. -/
  | egressEnable
  /-- R325. Clearing ECTL.EN makes later packets be discarded with a dead notice. -/
  | egressDisable
  /-- R325. A write to ERELEASE returns n credits to the producing out-channel. -/
  | egressRelease
  /-- R325. An egress packet is written to its host slot and the vector signalled. -/
  | egressPacketWrite
  /-- R432. An open notice sets the host endpoint's peer and PST. -/
  | openNotice
  /-- R327. A host write to QNOTIFY appends entries and signals the consumer. -/
  | queueNotify
  /-- R327. A host write to QHEAD consumes entries, or is counted in QOVF. -/
  | queueHeadWrite
  /-- R431. A qpush or qpop request is performed at its queue. -/
  | queueCommandPerform
  /-- R431. A queue answer reaches the cell and st is delivered. -/
  | queueAnswer
  /-- R310. A link packet is accepted in order, discarded as a duplicate, or discarded with a NAK. -/
  | linkPacketReceive
  /-- R309. An ACK flit frees replay flits and returns credits. -/
  | linkAck
  /-- R310. A NAK flit makes the sender replay from the expected LSEQ. -/
  | linkNak
  /-- R310. At least every 64 cycles the receiver sends an ACK. -/
  | ackTimer
  /-- R313. Both ends agree on a width and the link becomes UP. -/
  | trainingDone
  /-- R313. A training attempt fails; the third in a row isolates the link. -/
  | trainingFail
  /-- R315. A lane fails; the link retrains narrower and replays. -/
  | laneFailure
  /-- R313. Retraining ends at a width of at least 2 and the link is UP. -/
  | retrainDone
  /-- R313. Retraining does not finish within 4,000 cycles and the link isolates. -/
  | retrainTimeout
  /-- R313. No flit for 65,536 cycles isolates the link. -/
  | linkSilenceTimeout
  /-- R313. A received ISOLATE flit isolates the link end. -/
  | isolateFlit
  /-- R317. A write of PCTL.ISOLATE sends ISOLATE and isolates the link. -/
  | linkIsolate
  /-- R314. A write of PCTL.RETRAIN trains the link at full width. -/
  | linkRetrain
  /-- R402. A received TIME flit steers the module's cycle counter. -/
  | timeFlit
  /-- R402. Every 65,536 cycles each UP link sends a TIME flit. -/
  | timeFlitTimer
  /-- R406. A write to PLAT sets PLAT.MAX to 0. -/
  | platMaxClear
  /-- R381. A routing entry write takes effect, holding ordered traffic on a FIRST change. -/
  | routingWrite
  /-- R383. A write of ARM flips the chosen code bits of the target word. -/
  | errorInject
  /-- R382. A write to a log control word clears the log. -/
  | errorLogClear
  /-- R394. A tbwait's timeout passes and it delivers the timeout status. -/
  | tbwaitTimeout
  /-- R400. A Spire core write to a numerical counter sets it to 0. -/
  | counterClear
  /-- R398. A bind notice increments LIVE of the record's placement entry. -/
  | bindNotice
  /-- R398. An end notice decrements LIVE and may send a unit report to HOME. -/
  | endNotice
  /-- R398. A unit report at HOME decrements NMOD and may fire the counter. -/
  | unitReport
  /-- R398. A fire notice sets FIRED, updates the parent unit and raises the vector. -/
  | fireNotice
  /-- R399. A level 1 to 3 cancel is forwarded to modules and cells, which cancel matching records. -/
  | cancelNotice
  /-- R399. The I/O die answers a wait query once the unit has fired. -/
  | unitWaitAnswer
  /-- R402. A host read of CYC bits 31:0 latches bits 63:32. -/
  | cycRead
  /-- R421. A placement image is received, checked, loaded and bound with HOLD. -/
  | placementImage
  /-- R422. HOME counts a configuration acknowledgement and sends the start notice when all are in. -/
  | configAck
  /-- R422. A placement failure at HOME cancels the placement. -/
  | configFailure
  /-- R422. The start notice clears HOLD on the placement's records. -/
  | startNotice
  /-- R415. Module reset returns every function to its Reset values and begins self-test. -/
  | moduleReset
  /-- R415. The I/O die finishes self-test and enters WAIT. -/
  | selfTestDone
  /-- R417. A write of BCTL.GO in WAIT starts verification of the staged image. -/
  | bootGo
  /-- R418. A boot image arriving on VC 7 is staged and verified as though GO had been written. -/
  | bootImageArrival
  /-- R417. Verification ends in FAIL, or in RUN with firmware loaded, links trained and MID set. -/
  | bootVerifyDone
  /-- R419. A function finishes clearing and self-test and sets its ready bit. -/
  | functionReady
  /-- R424. CKCTL.GO with DIR 0 starts writing module state to the host. -/
  | checkpointSave
  /-- R424. CKCTL.GO with DIR 1 starts writing state back from the host. -/
  | checkpointRestore
  /-- R424. The last checkpoint write is performed and BUSY clears. -/
  | checkpointDone
  /-- R423. ATTCMD.GO starts a signed attestation report. -/
  | attestation
  /-- R423. The report is written to ATTREP and its completion bit set. -/
  | attestationDone
  /-- R426. REPCMD.GO with COL 0 remaps a row to a spare. -/
  | repairRow
  /-- R426. REPCMD.GO with COL 1 remaps a column to a spare. -/
  | repairColumn
  /-- R426. The repair copy ends and BUSY clears. -/
  | repairDone
  /-- R427. Every 2^20 cycles firmware adjusts CEIL against PCAP. -/
  | powerCapCheck
  /-- R427. TEMP reaching 105 °C forces CEIL to at most 16. -/
  | thermalThrottle
  /-- R427. TEMP reaching 115 °C removes power from the dies. -/
  | thermalShutdown
  /-- R34. Loss of power loses all state. -/
  | powerLoss
  /-- R425. HOME's Spire core moves a failed module's stages to a spare and restarts the placement. -/
  | stageMigration
  /-- R413. Firmware serves an RA request by granting RA or replying with a refusal. -/
  | raRequestService
  /-- R413. Firmware marks the home page DISC for a migration notice. -/
  | migrationNoticeService
  /-- R414. A write to a register with no row of its own sets its writable fields. -/
  | registerWrite
  /-- R297. After each cycle's issue decision, every strand's pacing bucket grows by its WGT.EFF, up to 1,024. -/
  | pacingBucketRefill
  /-- R398. A write of CLOSED = 1 in a phase or job unit-table entry with LIVE = 0 completes the unit on the module and sends its report to HOME. -/
  | unitClose
  /-- R346. The context save ends 70 cycles plus one per replay entry after the loop, the record becomes PARKED, PREQ clears and the strand is freed. -/
  | contextSaveComplete
deriving DecidableEq, Repr

end Sys2Proof
end

