-- ==== Sys2Proof/Machine/StrandState.lean ====
section
/-! DEFINITION. What one strand holds: its register files, special registers, landing queue and trap-level stack
(R80 to R83, R90 to R102, R120 to R125, R153 to R156, R169). -/

namespace Sys2Proof.Machine

/-- A handle record of four words (R97, R98). -/
structure Handle where
  w0 : Word
  w1 : Word
  w2 : Word
  w3 : Word
deriving DecidableEq, Repr

/-- A vector register: 32 lanes and a format tag (R120, R125). -/
structure VReg where
  lanes : Vector Word 32
  tag : BitVec 3
deriving DecidableEq, Repr

/-- A physical register of a strand, or a special register named by its number (R81, R153, R154). -/
inductive Reg where
  | s (n : Nat)      -- scalar register 0 to 63
  | q (n : Nat)      -- predicate slot 0 to 11
  | h (n : Nat)      -- handle 0 to 15
  | v (n : Nat)      -- vector register 0 to 63
  | sp (n : Nat)     -- strand special register by its number of R153
  | pr (n : Nat)     -- privileged special register by its number of R154
  | xd (i w : Nat)   -- word w of entry i of the cell's translation set, through XDATA (R157)
  | iter             -- what `loop` writes: RRB, LC, ITER and the taint fields (R177, R342)
deriving DecidableEq, Repr

/-- A value on its way to a register. -/
inductive Val where
  | word (x : Word)
  | handle (x : Handle)
  | vec (x : VReg)
  | loopStep (start fixed : Bool)
deriving DecidableEq, Repr

/-- One entry of the landing queue, or a replay entry, whose `due` is then relative (R83, R169). -/
structure Landing where
  reg : Reg
  val : Val
  due : Nat
  /-- The order of issue, by which two landings of one beat are ordered (R82). -/
  seq : Nat
  /-- FPF flags that take effect at the landing: NV DZ OF UF NX (R135). -/
  flags : BitVec 5
  /-- CVT_SAT8 and NAN_SCALE increments that take effect at the landing (R136). -/
  cvtSat : Nat
  nanScale : Nat
  /-- The error tag of a load that consumed an uncorrectable word (R119, R430). -/
  taint : Option (BitVec 8)
deriving DecidableEq, Repr

/-- The banked registers of one trap level with its replay registers (R156, R169). NREP is the length of `replay`. -/
structure TrapBank where
  cause : BitVec 8
  pc : BitVec 15
  val : Word
  adv : Bool
  taint : Bool
  slot : BitVec 3
  rrb : BitVec 3
  save : Word
  replay : List Landing
deriving DecidableEq, Repr

/-- The trap that an error carried by a delivery raises at the bundle that reads the register (R84). -/
inductive Note where
  | trap (op : Nat) (cause : BitVec 8) (val : Word)
  | taint (tag : BitVec 8)
  | popped (chan : Nat) (seq : Word) (ownPacket : Bool)
  /-- A tchk of these tokens: an error that waits for one of them is raised at the reading bundle (R376). -/
  | concerns (tokens : List Word)
deriving DecidableEq, Repr

/-- A scalar register that waits for a scoreboarded result, by the issue number of the operation (R84). -/
structure Pend where
  reg : Nat
  op : Nat
deriving DecidableEq, Repr

/-- What the delivery of a register left to happen at the bundle that first reads it (R84, R234, R265, R288, R430). -/
structure Delivered where
  reg : Nat
  /-- The issue number of the operation that delivered. -/
  op : Nat
  notes : List Note
deriving DecidableEq, Repr

/-- An error of an engine command that waits to be raised at one of its join points, with the issue number of the
command; `array` tells an array command from a copy command (R234, R265). -/
structure WaitingErr where
  op : Nat
  array : Bool
  cause : BitVec 8
  val : Word
  /-- The token of the operation, and the destination (chip and unit) that a fence covers. -/
  token : Word
  chip : Nat
  unit : Nat
deriving DecidableEq, Repr

/-- The wait that a strand's stalled bundle has begun: its first cycle, the cycle of its timeout, whether a query that it
sent has been answered, and whether the timeout has passed (R163, R377, R394, R399). -/
structure Waiting where
  since : Nat
  limit : Option Nat
  answered : Bool
  failed : Bool
deriving DecidableEq, Repr

/-- What the strand's stalled bundle waits with: the cycle in which it first tried to issue, the wait of its engine syllable
(twt, tbwait, and a command that carries a foreign token) and the query of its `wait`. A bundle may hold one of each. -/
structure Waits where
  first : Option Nat
  engine : Option Waiting
  unit : Option Waiting
deriving DecidableEq, Repr

/-- A bundle that has not tried to issue. -/
def Waits.none : Waits := ⟨.none, .none, .none⟩

/-- What a strand is doing (R335, R343, R345, R164). -/
inductive StrandMode where
  | idle
  | running
  | engine      -- held by the context engine: being saved, restored or started
  | stopped     -- a Spire core after `halt` or a kill
deriving DecidableEq, Repr

/-- One strand. -/
structure Strand where
  mode : StrandMode
  /-- The record cache entry that the strand runs under; without meaning while it is idle. -/
  entry : Nat
  /-- The strand was started by `spawn` (R343). -/
  sibling : Bool
  /-- A bound strand or sibling at `halt` waits for nothing more (R164). -/
  halted : Bool
  pc : BitVec 15
  s : Vector Word 64
  q : Vector Word 12
  h : Vector Handle 16
  v : Vector VReg 64
  lc : Word
  rrb : BitVec 3
  fpc : BitVec 4
  fpf : BitVec 5
  ltok : Word
  iter : Word
  recid : BitVec 16
  tl : BitVec 2
  etag : BitVec 8
  preq : Bool
  sdctrap : Bool
  taint : Bool
  /-- The beat of the taint that gave ETAG, and the issue number of its event's bundle (R430). -/
  taintAt : Nat × Nat
  spill : Word
  /-- TVEC.BASE, bits 14:6 (R156). -/
  tvec : BitVec 9
  bank1 : TrapBank
  bank2 : TrapBank
  xword : BitVec 2
  xidx : BitVec 8
  landing : List Landing
  pend : List Pend
  delivered : List Delivered
  errs : List WaitingErr
  /-- Beats issued since the record started (R9). -/
  beat : Nat
  /-- The strand issues nothing before this cycle (R77, R169). -/
  idleUntil : Nat
  bucket : Nat
  /-- DEF of R347, which a turn may leave below 0. -/
  deficit : Int
  /-- The cycle of the context's latest acquire (R202). -/
  lacq : Nat
  /-- The SEQ of the packet that the strand popped last from its record's trigger channel (R276). -/
  lastSeq : Option Word
  /-- The cycle of the strand's latest issue, and the cycle in which a `yield` bars it (R165, R348). -/
  lastIssue : Nat
  yielded : Option Nat
  waiting : Waits
  /-- The strand's next bundle could issue in the latest cycle in which it was looked at (R347). -/
  ready : Bool
  /-- The latest cycle in which the strand waited on an out-channel's FBC or for a need (R296). -/
  fbcWait : Option Nat
deriving DecidableEq, Repr

/-- A handle record of four zero words (log 7, DESIGN CHOICE). -/
def Handle.zero : Handle := ⟨0, 0, 0, 0⟩

/-- A vector register of zeros with tag RAW (R122) (log 7, DESIGN CHOICE). -/
def VReg.zero : VReg := ⟨Vector.replicate 32 0, 0⟩

/-- The banked registers as they stand at record start (R156) (log 7, DESIGN CHOICE). -/
def TrapBank.zero : TrapBank := ⟨0, 0, 0, false, false, 0, 0, 0, []⟩

/-- A strand that has run no record: every register at the Reset value of R155 and R156, or 0 where a record would
supply the value (log 7, DESIGN CHOICE). -/
def Strand.reset : Strand where
  mode := .idle
  entry := 0
  sibling := false
  halted := false
  pc := 0
  s := Vector.replicate 64 0
  q := Vector.replicate 12 0
  h := Vector.replicate 16 Handle.zero
  v := Vector.replicate 64 VReg.zero
  lc := 0
  rrb := 0
  fpc := 8
  fpf := 0
  ltok := 0
  iter := 0
  recid := 0
  tl := 0
  etag := 0
  preq := false
  sdctrap := false
  taint := false
  taintAt := (0, 0)
  spill := 0
  tvec := 0
  bank1 := TrapBank.zero
  bank2 := TrapBank.zero
  xword := 0
  xidx := 0
  landing := []
  pend := []
  delivered := []
  errs := []
  beat := 0
  idleUntil := 0
  bucket := 1024
  deficit := 0
  lacq := 0
  lastSeq := none
  lastIssue := 0
  yielded := none
  waiting := .none
  ready := false
  fbcWait := none

/-- The strand of a Spire core: its h0 is a window with V, WIN, R, W and LA (R26, R97), over the core's whole aperture-0 space
(log 58, DESIGN CHOICE). -/
def Strand.resetSpire : Strand := { Strand.reset with h := Strand.reset.h.set 0 ⟨0xA7000000, 0, 0x800000, 0⟩ }

end Sys2Proof.Machine
end

