-- ==== Sys2Proof/Machine/RecordState.lean ====
section
/-! DEFINITION. The record cache, the descriptor of a record and the context engine (R333 to R337, R344 to R346), with the
race detectors of SHARED regions (R202). -/

namespace Sys2Proof.Machine

/-- The classes of a declared region (R181, R182). -/
inductive RegionClass where
  | priv | shared | inbox | weight
deriving DecidableEq, Repr

/-- A declared region: its place among the descriptor's sixteen, its class, its cell offset and its size (R336). -/
structure Region where
  index : Nat
  cls : RegionClass
  off : Nat
  size : Nat
deriving DecidableEq, Repr

/-- The fields of a record descriptor (R336). -/
structure Desc where
  pro : BitVec 15
  ker : BitVec 15
  epi : BitVec 15
  arrival : Bool
  trig : Nat
  trips : Word
  prio : Nat
  ceil : Nat
  weight : Nat
  smax : Nat
  vmax : Nat
  qmax : Nat
  hmax : Nat
  wbase : Nat
  wsize : Nat
  spill : Nat
  spoff : Nat
  hold : Bool
  strand : Nat
  tbars : Nat
  tvec : BitVec 9
  inmask : BitVec 16
  outmask : BitVec 16
  /-- The needs of the sixteen out-channels. -/
  need : List Nat
  /-- The eight launch words. -/
  launch : List Word
  regions : List Region
deriving DecidableEq, Repr

/-- STATE of a record cache entry (R334, R335). -/
inductive RecState where
  | free | bound | running | parked | ended
deriving DecidableEq, Repr

/-- The completion status of a record (R334). -/
inductive RecStatus where
  | none | done | cancelled | killed
deriving DecidableEq, Repr

/-- One entry of the record cache with what the cell holds for it. -/
structure RecEntry where
  gen : BitVec 12
  state : RecState
  strand : Nat
  status : RecStatus
  hold : Bool
  desc : Desc
  prioDecl : Nat
  prioEff : Nat
  cancelled : Bool
  /-- The record has stopped with this status and ends once its operations have completed (R335, R349, R175). -/
  ending : Option RecStatus
  /-- Rank of the entry among the entries that have ended, by which a bind reclaims the earliest (R338). -/
  endOrder : Nat
  /-- The cycle since which the record has been eligible without being started or restored (R344). -/
  eligible : Option Nat
  /-- The cycle from which aging counts (R348). -/
  ageFrom : Nat
  /-- The saved context of a PARKED record (R345, R346). -/
  saved : Option Strand
  /-- The placement, phase and job that the record belongs to (R396). -/
  placement : Nat
  phase : Nat
  job : Nat
  /-- ILAST, IMIN, IMAX and ICNT, and the cycle of the latest iteration start (R405). -/
  ilast : Word
  imin : Word
  imax : Word
  icnt : Word
  iterAt : Option Nat
deriving DecidableEq, Repr

/-- What the context engine does: the strand and the entry of the record that it saves or restores (R345, R346). -/
inductive CtxJob where
  | save (strand : Nat) (entry : Nat)
  | restore (strand : Nat) (entry : Nat)
deriving DecidableEq, Repr

/-- The detector of one SHARED region (R202). A context is a record id with a strand number. -/
structure Race where
  off : Nat
  size : Nat
  wr : Option (Nat × Nat)
  wrel : Option Nat
deriving DecidableEq, Repr

/-- A descriptor with every field zero. -/
def Desc.zero : Desc where
  pro := 0
  ker := 0
  epi := 0
  arrival := false
  trig := 0
  trips := 0
  prio := 0
  ceil := 0
  weight := 256
  smax := 0
  vmax := 0
  qmax := 0
  hmax := 0
  wbase := 0
  wsize := 0
  spill := 0
  spoff := 0
  hold := false
  strand := 0
  tbars := 0
  tvec := 0
  inmask := 0
  outmask := 0
  need := List.replicate 16 0
  launch := List.replicate 8 0
  regions := []

/-- A FREE entry (R334). -/
def RecEntry.free : RecEntry where
  gen := 0
  state := .free
  strand := 0
  status := .none
  hold := false
  desc := Desc.zero
  prioDecl := 0
  prioEff := 0
  cancelled := false
  ending := none
  endOrder := 0
  eligible := none
  ageFrom := 0
  saved := none
  placement := 0
  phase := 0
  job := 0
  ilast := 0
  imin := 0
  imax := 0
  icnt := 0
  iterAt := none

end Sys2Proof.Machine
end

