-- ==== Sys2Proof/Machine/BundleState.lean ====
section
/-! DEFINITION. The open bundle: what each of its syllables, read one by one, would do (R65 to R72, R434). Everything is
plain data; the values are read before the bundle takes effect (R68). -/

namespace Sys2Proof.Machine

/-- The classes of R66. -/
inductive Cls where
  | scalar | memory | vector | engine | control
deriving DecidableEq, Repr

/-- A trap that a syllable would raise: its rank in R72, its cause and its value. -/
structure TrapReq where
  rank : Nat
  cause : BitVec 8
  val : Word
  /-- One more than the number of the operation whose late error this is, or 0 (R234, R265). -/
  src : Nat
deriving DecidableEq, Repr

/-- The one-sided remote operations of the copy engine (R260 to R262). -/
inductive RemoteKind where
  | rst | rstc | rld | rldBlock | rfadd | radd | rmax | rswp
deriving DecidableEq, Repr

/-- A command of an engine or control syllable with the operands that it read at issue; `t` is the token register's
physical number, or 0 for none. -/
inductive Cmd where
  | mset (n f : Nat) (x : Word)
  | mget (n f d : Nat)
  | wld (set : Nat) (a b : Word) (t : Nat)
  | mswap (t : Nat)
  | mmul (set : Nat) (a b : Word) (t : Nat)
  | macc (set : Nat) (a : Word) (t : Nat)
  | mdrain (set : Nat) (a : Word) (t : Nat)
  | mchain (ch : Nat) (a b : Word) (t : Nat)
  | mchk (set : Nat) (a : Word) (t : Nat)
  | mstat (item : Nat) (a b : Word) (t : Nat)
  | mfence
  | cset (n f : Nat) (x : Word)
  | cget (n f d : Nat)
  | copy (set : Nat) (sh dh : Handle) (a b : Word) (t : Nat)
  | remote (kind : RemoteKind) (relaxed : Bool) (h : Handle) (a b : Word) (carried : Word) (t : Nat)
  /-- A one-sided operation performed in the issuing cell, at a cell offset, with the word that stands there before the bundle
  and whether reading it met an uncorrectable error (R263). -/
  | localOp (kind : RemoteKind) (off : Nat) (old : Word) (bad : Bool) (b : Word) (t : Nat)
  | tchk (a : Word) (t : Nat)
  | twt (a : Word)
  | tjoin (a b : Word) (t : Nat)
  | spush (ch : Nat) (a b : Word) (t : Nat)
  | spop (ch : Nat) (t : Nat)
  | srel (ch : Nat) (a : Word)
  | sget (out : Bool) (ch : Nat) (a : Word) (t : Nat)
  | sset (out : Bool) (ch : Nat) (a : Word) (t : Nat)
  | mcast (g : Nat) (a b : Word) (t : Nat)
  | rctl (ch : Nat) (a b : Word)
  | tbinit (tb : Nat) (a b : Word) (t : Nat)
  | tbarr (tb : Nat) (a : Word) (t : Nat)
  | tbwait (tb : Nat) (a b : Word) (t : Nat)
  | qpush (h : Handle) (a b : Word) (t : Nat)
  | qpop (h : Handle) (a b : Word) (t : Nat)
  | bind (addr : Word) (d : Nat)
  | unbind (id : Word)
  | cancel (level : Nat) (id : Word)
  | prio (x : Word)
  | spawn (target : BitVec 15) (first : Nat) (args : List Word)
  | wait
  | fence (kind scope : Nat)
  | loopStart
  | loopEnd
  | jump (target : BitVec 15)
  | rtt
  | halt
  | yield
deriving DecidableEq, Repr

/-- One thing that a syllable does when its bundle issues. -/
inductive Effect where
  /-- A fixed-latency result (R80). -/
  | land (l : Landing)
  /-- The return address of a call: the address after the bundle (R162). -/
  | link (l : Landing)
  /-- Bytes written at a cell offset by a plain store or an atomic (R69). -/
  | store (off : Nat) (bytes : List Byte)
  /-- A write to a SHARED region, for its detector: the region's offset (R202). -/
  | raceWrite (region : Nat)
  /-- A load of a discarded page (R186). -/
  | discRead
  /-- A read of a run of bytes in which an error is planted (R180, R383). -/
  | found (off n : Nat)
  /-- A load or a store of the module's management window by a Spire core (R414). -/
  | modRead (off : Nat)
  | modWrite (off : Nat) (w : Word)
  /-- A release or an acquire of the strand's context (R201). -/
  | release
  | acquire
  | cmd (c : Cmd)
deriving DecidableEq, Repr

/-- What a bundle that must wait begins, once, when its wait begins. -/
inductive BeginWait where
  | nothing
  /-- A WATCH of a foreign token (R377). -/
  | token (tok : Word)
  /-- A query of a unit's completion (R399). -/
  | unit (level : Nat) (id : Word)
  /-- A timeout of so many cycles (R394). -/
  | timeout (cycles : Nat)
deriving DecidableEq, Repr

/-- How a `loop` syllable stands at the present cycle, by the case of R342 that holds. -/
inductive LoopCase where
  | none | stop | fin | park | start | wait
deriving DecidableEq, Repr

/-- One syllable of the open bundle, evaluated. -/
structure Syl where
  cls : Cls
  /-- The cluster of a vector syllable: 0 for X, 1 for Y (R67). -/
  cluster : Nat
  /-- Fixed-latency destinations with their latencies (R71). -/
  dests : List (Reg × Nat)
  /-- Special registers that the syllable writes at once with `loop` or another write (R159). -/
  specials : List Reg
  /-- Scalar registers read, and scalar registers named as destination (R84); physical numbers. -/
  reads : List Nat
  names : List Nat
  /-- Checks that need no register value (R434, item 1), then those that do (item 3). -/
  static : List TrapReq
  dyn : List TrapReq
  blocked : Bool
  /-- Out-channels on whose FBC the syllable waits, and whether its `loop` waits on an empty trigger (R275, R296, R404). -/
  fbcWait : List Nat
  starved : Bool
  /-- The cell offset of the descriptor image that an mchain checks when the bundle closes (R70, R241). -/
  image : Option Nat
  begins : BeginWait
  loop : LoopCase
  effects : List Effect
deriving DecidableEq, Repr

/-- How the latest bundle ended. -/
inductive BundleEnd where
  | none | issued | empty | trapped | stalled | parked | stopped
deriving DecidableEq, Repr

/-- The open bundle: the strand that issues it, its first address and its syllables so far. -/
structure Bundle where
  m : Nat
  u : Nat
  k : Nat
  pc : BitVec 15
  syls : List Syl
deriving DecidableEq, Repr

end Sys2Proof.Machine
end

