-- ==== Sys2Proof/Machine/NetState.lean ====
section
/-! DEFINITION. What travels between units (R18, R253, R278, R309, R322, R366 to R378, R396 to R399, R420, R431), and the
commands of the copy engine (R251 to R265). -/

namespace Sys2Proof.Machine

/-- A unit of the chain by its chip id: a cell, a Spire core, the I/O die or the host behind it (R12, R25). -/
structure Addr where
  chip : Nat
  unit : Nat
deriving DecidableEq, Repr

/-- What a remote request does at its destination (R260). -/
inductive ReqKind where
  | write
  | read (n : Nat)
  | atomic (k : RemoteKind)
deriving DecidableEq, Repr

/-- A remote request or one sector of a copy (R254, R260). `bad` lists the 8-byte words of `data` that carry a code marked
uncorrectable (R257). -/
structure Req where
  kind : ReqKind
  copy : Bool
  ordered : Bool
  off : Nat
  data : List Byte
  bad : List Nat
  operand : Word
  carry : Word
  token : Word
  op : Nat
  sector : Nat
  sectors : Nat
  tbar : Option Nat
  strand : Nat
deriving DecidableEq, Repr

/-- How a request stands at its source (R366, R371). -/
inductive OutState where
  | ready
  | sent
  | held
  | backoff (until' : Nat)
deriving DecidableEq, Repr

/-- A request that has not landed, as its source keeps it. -/
structure OutReq where
  req : Req
  dst : Addr
  first : Nat
  nacks : Nat
  state : OutState
deriving DecidableEq, Repr

/-- What a command of the copy engine is (R256, R260). -/
inductive EngKind where
  | copy | store | atomic | readWord | readBlock
deriving DecidableEq, Repr

/-- A command of the copy engine in flight (R255). A side is local when its address is none. -/
structure EngOp where
  op : Nat
  k : Nat
  recid : Nat
  kind : EngKind
  t : Nat
  entry : Option Nat
  token : Word
  relaxed : Bool
  serial : Bool
  src : Option Addr
  srcOff : Nat
  dst : Option Addr
  dstOff : Nat
  len : Nat
  /-- The source page is discarded and reads zeros (R250). -/
  zeros : Bool
  tbar : Option Nat
  andThen : Word
  /-- sb of a copy, from which its `then` command takes an operand (R258). -/
  sb : Word
  carry : Word
  /-- The next sector to start, and how many sectors are performed or acknowledged. -/
  next : Nat
  done : Nat
  nextAt : Nat
  out : List OutReq
  err : Word
deriving DecidableEq, Repr

/-- What the state of a token wait belongs to: a strand's bundle, a local copy, an input of a JOIN entry, or a tchk
(R263, R368, R376, R377). -/
inductive WaitFor where
  | strand (k : Nat)
  | copy (op : Nat)
  | join (entry : Nat) (second : Bool)
  | query (k t op : Nat)
deriving DecidableEq, Repr

/-- How such a wait stands: its WATCH or QUERY is out, or it waits to send it again, or it has ended. -/
inductive WatchState where
  | out
  | backoff (until' : Nat)
  | landed
  | failed (err : Word)
deriving DecidableEq, Repr

/-- A wait on a foreign token. -/
structure TokenWait where
  what : WaitFor
  token : Word
  first : Nat
  tries : Nat
  state : WatchState
deriving DecidableEq, Repr

/-- A stream packet (R278, R282). -/
structure Packet where
  slot : Nat
  srcrec : BitVec 16
  /-- Word 3 of the header: the producer. -/
  origin : Word
  seq : Word
  len : Nat
  eos : Bool
  pblk : Bool
  pstv : Bool
  poison : Bool
  etag : BitVec 8
  payload : List Byte
deriving DecidableEq, Repr

/-- What a message says. -/
inductive Body where
  | request (r : Req)
  | response (op sector : Nat) (word : Word) (data : List Byte) (bad : List Nat) (tainted : Bool)
  | error (op sector : Nat) (word : Word)
  | ack (op sector : Nat)
  | held (op sector : Nat)
  | nack (op sector : Nat)
  | watch (token : Word) (tag : Nat)
  | watchError (token : Word) (tag : Nat) (word : Word)
  | release (token : Word)
  | busy (token : Word) (tag : Nat)
  | query (token : Word) (op : Nat)
  | queryAnswer (op : Nat) (x : Word)
  | packet (chan : Nat) (p : Packet)
  /-- `n` credits for an out-channel, from in-channel or endpoint `from'`. -/
  | credit (chan n from' : Nat)
  | close (chan : Nat) (toOut : Bool)
  | dead (chan : Nat) (toOut : Bool)
  | weight (chan : Nat) (x : Word)
  | openNote (ep : Nat) (egress : Bool) (peer : Word)
  | queueCmd (push : Bool) (queue : Nat) (words : List Word) (op k t : Nat)
  | queueAns (op k t : Nat) (x : Word) (words : List Word)
  | faultEntry (queue : Nat) (words : List Word)
  | bindNote (level id : Nat)
  | endNote (level id status phase job : Nat)
  | unitReport (level id status : Nat) (err : Word)
  | fire (level id status : Nat)
  | cancelNote (level id : Nat) (forwarded : Bool)
  | unitQuery (level id k since : Nat)
  | unitAnswer (k since : Nat)
  | configAck (placement : Nat)
  | configFail (placement status : Nat)
  | startNote (placement : Nat)
  /-- A boot image, or a placement image. -/
  | image (boot : Bool) (data : List Byte)
deriving DecidableEq, Repr

/-- Where a message is: inside its module and due at a cycle, at its unit or at the switch; held at the switch; at a link,
with the link packets of it that have been sent; or sent on a link and not yet accepted at its far end. -/
inductive Where where
  | inside (due : Nat) (final : Bool)
  | switch
  | link (l part : Nat)
  | sent (l : Nat)
deriving DecidableEq, Repr

/-- A message in flight. -/
structure Msg where
  id : Nat
  mod : Nat
  place : Where
  src : Addr
  strand : Nat
  dst : Addr
  vc : Nat
  body : Body
  /-- The links by which a request has come into the modules on its way, the latest first; of an error that goes back over that
  path, those it still takes (R317). -/
  path : List Nat
deriving DecidableEq, Repr

/-- The seven fields of a copy descriptor set (R251). -/
structure CopySet where
  sh : Word
  dh : Word
  len : Word
  tbar : Word
  andThen : Word
  carry : Word
  ord : Word
deriving DecidableEq, Repr

/-- STATE of a token-table entry (R361). -/
inductive TokState where
  | free | pending | landed | landedErr | join
deriving DecidableEq, Repr

/-- A watcher slot: its node (chip times 1,024 plus cell) and whether it is SENT or WATCHING (R361). -/
structure Slot where
  node : Nat
  watching : Bool
deriving DecidableEq, Repr

/-- A token-table entry (R361); `order` ranks the landings (R362), and `k` is the strand that allocated it. -/
structure TokEntry where
  state : TokState
  gen : BitVec 4
  recid : Nat
  count : Nat
  err : Word
  ina : Word
  inb : Word
  slots : List (Option Slot)
  carry : Word
  order : Nat
  k : Nat
deriving DecidableEq, Repr

/-- A hold-queue entry that is not FREE: the held request, its source, its arrival cycle and whether it is READY, and
since when (R369). -/
structure HoldEntry where
  req : Req
  src : Addr
  strand : Nat
  since : Nat
  arrival : Nat
  ready : Option Nat
deriving DecidableEq, Repr

/-- A delivery of a scoreboarded result at the start of a cycle (R84). -/
structure Delivery where
  due : Nat
  k : Nat
  op : Nat
  reg : Nat
  val : Word
  notes : List Note
deriving DecidableEq, Repr

/-- The Reset column of R251. -/
def CopySet.reset : CopySet := ⟨0, 0, 256, 0, 0, 0, 0⟩

/-- A FREE entry (R362). -/
def TokEntry.free : TokEntry := ⟨.free, 0, 0, 0, 0, 0, 0, [none, none, none, none], 0, 0, 0⟩

end Sys2Proof.Machine
end

