-- ==== Sys2Proof/Machine/ArrayState.lean ====
section
/-! DEFINITION. What the array of a cell holds: matrix descriptor sets, stationary banks, accumulators, chains, its queue and
its units (R210 to R246). -/

namespace Sys2Proof.Machine

/-- A matrix descriptor set (R231). -/
structure MatrixSet where
  wsrc : Nat
  wfmt : Nat
  wscl : Nat
  ascl : Nat
  rows : Nat
  kblk : Nat
  cols : Nat
  chain : Nat
  amode : Nat
  chk : Nat
  astr : Nat
deriving DecidableEq, Repr

/-- The states of a bank (R216). -/
inductive BankState where
  | empty | loading | ready | active | draining
deriving DecidableEq, Repr

/-- A stationary bank (R213): its planes of 4,096 digits each in element order (R54), the offset X, P', the column scales,
the loaded columns, the mirror bit, and the columns that hold an E4M3 NaN weight (R52). -/
structure Bank where
  state : BankState
  planes : List (List (BitVec 6))
  x : Int
  pass : Nat
  scales : List Word
  cols : Nat
  mirror : Bool
  nanCols : List Nat
  /-- The cycle in which the bank last became writable (R215). -/
  since : Nat
deriving DecidableEq, Repr

/-- One row of the accumulator file (R220): the block count, the mode and row count of block 0, the 48-bit accumulators, the
FP32 sums, Xref, the row scale and column scales of block 0 with their loaded columns, the columns with a NaN weight, and
the poison. -/
structure AccRow where
  n : Nat
  scaled : Bool
  c : List Int
  f : List Word
  xref : Int
  sa : Word
  ws : List Word
  loaded : Nat
  nanCols : List Nat
  poison : Bool
deriving DecidableEq, Repr

/-- A node of a result chain (R224). -/
structure Node where
  word0 : Word
  arg : Word
deriving DecidableEq, Repr

/-- A chain descriptor with its ARMED bit and the number of the mchain that armed it. -/
structure Chain where
  nodes : List Node
  armed : Bool
  arming : Nat
deriving DecidableEq, Repr

/-- The parameters that an mchain reads, for each node of the chain: a BIAS vector, a user ACT table, or nothing (R225, R226,
R241). -/
structure ChainPar where
  arming : Nat
  words : List (List Word)
  loaded : Bool
deriving DecidableEq, Repr

/-- An mchain whose parameter reads have not ended. -/
structure Arming where
  op : Nat
  k : Nat
  recid : Nat
  t : Nat
  /-- The nodes of the chain as this mchain arms it. -/
  nodes : List Node
  issue : Nat
  endAt : Option Nat
deriving DecidableEq, Repr

/-- A wld in the array queue or on the expander. -/
structure WldCmd where
  op : Nat
  k : Nat
  recid : Nat
  t : Nat
  issue : Nat
  bank : Nat
  data : Nat
  scales : Nat
  fmt : Nat
  cols : Nat
  chk : Nat
  endAt : Option Nat
deriving DecidableEq, Repr

/-- A command of the pass unit: an mswap, or the pass of an macc or mmul. `drainOp` is the number of the mmul's drain. -/
structure PassCmd where
  op : Nat
  k : Nat
  recid : Nat
  t : Nat
  issue : Nat
  swap : Bool
  set : Nat
  a : Nat
  m : MatrixSet
  sdctrap : Bool
  drainOp : Option Nat
  started : Bool
  /-- The next row to feed and the cycle in which it starts; the rows accumulated; whether a row was poisoned, with an
  activation word's tag; and the error of the command. -/
  next : Nat
  nextAt : Nat
  done : Nat
  bad : Bool
  actTaint : Bool
  err : Option (BitVec 8 × Word)
deriving DecidableEq, Repr

/-- A row on its way through the array: its partials, its row scale, and whether it is poisoned or fails its check. -/
structure FlightRow where
  op : Nat
  row : Nat
  due : Nat
  bank : Nat
  s : List Int
  sa : Word
  x : Int
  scales : List Word
  loaded : Nat
  nanCols : List Nat
  poisoned : Bool
  failed : Bool
deriving DecidableEq, Repr

/-- What a push reads of its strand at issue (R276, R283, R228). -/
structure PushInfo where
  seq : Option Word
  poison : Bool
  etag : BitVec 8
  recid : BitVec 16
deriving DecidableEq, Repr

/-- A row that has gone through the chain and waits for its cycle to leave. -/
structure OutRow where
  at' : Nat
  data : List Byte
  poisoned : Bool
deriving DecidableEq, Repr

/-- An mdrain, or the drain of an mmul. -/
structure DrainCmd where
  op : Nat
  k : Nat
  recid : Nat
  t : Nat
  issue : Nat
  mmul : Bool
  queued : Bool
  set : Nat
  rows : Nat
  cols : Nat
  chain : Nat
  nodes : List Node
  arming : Nat
  dst : Nat
  sat : Bool
  push : PushInfo
  next : Nat
  nextAt : Nat
  out : Option OutRow
  bad : Bool
  actTaint : Bool
  started : Bool
  /-- The channel has died: the remaining rows are not written (R228). -/
  dropped : Bool
  /-- The errors that travel with its completion: that of an mmul's pass before its own (R234). -/
  errs : List (BitVec 8 × Word)
deriving DecidableEq, Repr

/-- The state that every array command issued so far will leave (R233). -/
structure Predicted where
  act : Nat
  full : List Bool
  mirror : List Bool
  /-- By row: block count, rows and mode of block 0. -/
  rows : Tab (Nat × Nat × Nat)
deriving DecidableEq, Repr

/-- The array of a cell. -/
structure ArrayUnit where
  sets : Tab MatrixSet
  banks : List Bank
  act : Nat
  rows : Tab AccRow
  chains : Tab Chain
  pars : List ChainPar
  armings : List Arming
  wlds : List WldCmd
  passes : List PassCmd
  drains : List DrainCmd
  flight : List FlightRow
  /-- The first cycle in which the pass unit may feed the next row. -/
  passFree : Nat
  pred : Predicted
deriving DecidableEq, Repr

/-- The Reset column of R231. -/
def MatrixSet.reset : MatrixSet := ⟨0x200000, 0, 0x200000, 0, 64, 1, 64, 0, 0, 3, 64⟩

/-- An EMPTY bank (R213) (log 7, DESIGN CHOICE). -/
def Bank.empty : Bank := ⟨.empty, [], 0, 1, [], 0, false, [], 0⟩

/-- A row of block count 0 (R220) (log 7, DESIGN CHOICE). -/
def AccRow.empty : AccRow :=
  ⟨0, false, List.replicate 64 0, List.replicate 64 0, 0, 0, List.replicate 64 0, 0, [], false⟩

/-- A chain of NONE nodes, not armed (R224) (log 7, DESIGN CHOICE). -/
def Chain.empty : Chain := ⟨List.replicate 8 ⟨0, 0⟩, false, 0⟩

/-- The array at module reset and placement load (R213) (log 7, DESIGN CHOICE). -/
def ArrayUnit.reset : ArrayUnit where
  sets := []
  banks := [{ Bank.empty with state := .empty }, Bank.empty]
  act := 0
  rows := []
  chains := []
  pars := []
  armings := []
  wlds := []
  passes := []
  drains := []
  flight := []
  passFree := 0
  pred := ⟨0, [false, false], [false, false], []⟩

end Sys2Proof.Machine
end

