-- ==== Sys2Proof/Machine/Fp.lean ====
section
/-! DEFINITION. Number formats and exact arithmetic (R35 to R49): every value is handled as an exact number and rounded once. -/

namespace Sys2Proof.Machine

/-- FPF flags in the order NV DZ OF UF NX (R155). -/
abbrev FpFlags := BitVec 5

def flagNV : FpFlags := 16
def flagDZ : FpFlags := 8
def flagOF : FpFlags := 4
def flagUF : FpFlags := 2
def flagNX : FpFlags := 1

/-- The rounding modes of FPC.RM (R155). -/
def rmRNE : BitVec 2 := 0
def rmRTZ : BitVec 2 := 1
def rmRUP : BitVec 2 := 2
def rmRDN : BitVec 2 := 3

/-- A floating-point operand: a NaN that signals or not, an infinity, or `(-1)^neg * mant * 2^exp`. -/
inductive Num where
  | nan (signals : Bool)
  | inf (neg : Bool)
  | fin (neg : Bool) (mant : Nat) (exp : Int)
deriving DecidableEq, Repr

/-- The result of every operation that gives NaN (R36). -/
def qnan : Word := 0x7FC00000

def f32Inf (neg : Bool) : Word := if neg then 0xFF800000 else 0x7F800000
def f32Max (neg : Bool) : Word := if neg then 0xFF7FFFFF else 0x7F7FFFFF
def f32Zero (neg : Bool) : Word := if neg then 0x80000000 else 0

/-- The FP32 operand that a word holds (R37); with `ftz` a subnormal is read as a zero of its sign (R39). -/
def f32Num (ftz : Bool) (w : Word) : Num :=
  let neg := w.getLsbD 31
  let e : Nat := w.toNat / 2 ^ 23 % 256
  let f : Nat := w.toNat % 2 ^ 23
  if e = 255 then
    if f = 0 then .inf neg else .nan (f < 2 ^ 22)
  else if e = 0 then
    if ftz then .fin neg 0 (-149) else .fin neg f (-149)
  else .fin neg (f + 2 ^ 23) ((e : Int) - 150)

/-- A magnitude rounded to `p` significant bits, with units no smaller than `2^qmin`: the significand, its unit's
exponent, and whether the value was inexact. -/
def roundMag (p : Nat) (qmin : Int) (rm : BitVec 2) (neg : Bool) (mant : Nat) (exp : Int) : Nat × Int × Bool :=
  let q := max ((Nat.log2 mant : Int) + exp - ((p : Int) - 1)) qmin
  let sh := q - exp
  if sh ≤ 0 then (mant * 2 ^ (-sh).toNat, q, false)
  else
    let n := sh.toNat
    let r := mant / 2 ^ n
    let rem := mant % 2 ^ n
    let up :=
      if rm = rmRNE then 2 ^ n < 2 * rem ∨ (2 * rem = 2 ^ n ∧ r % 2 = 1)
      else if rm = rmRUP then neg = false ∧ rem ≠ 0
      else if rm = rmRDN then neg = true ∧ rem ≠ 0
      else False
    (if up then r + 1 else r, q, rem ≠ 0)

/-- Whether the value, rounded to `p` bits with no bound on its exponent, is below the least normal `2^(qmin+p-1)`
(R38: tininess is detected after rounding). -/
def tinyMag (p : Nat) (qmin : Int) (rm : BitVec 2) (neg : Bool) (mant : Nat) (exp : Int) : Bool :=
  let e := (Nat.log2 mant : Int) + exp
  let least := qmin + (p : Int) - 1
  if e ≥ least then false
  else
    let r := roundMag p (e - (p : Int)) rm neg mant exp
    decide ((Nat.log2 r.1 : Int) + r.2.1 < least)

/-- One rounding of an exact nonzero magnitude to FP32 under a mode and FTZ (R35, R38, R39). With `sticky` the value lies
strictly between `mant` and `mant + 1` units. -/
def roundF32 (rm : BitVec 2) (ftz neg : Bool) (mant : Nat) (exp : Int) (sticky : Bool) : Word × FpFlags :=
  let mant := 2 * mant + sticky.toNat
  let exp := exp - 1
  if mant = 0 then (f32Zero neg, 0)
  else
    let (r, q, inexact) := roundMag 24 (-149) rm neg mant exp
    let tiny := tinyMag 24 (-149) rm neg mant exp
    let sign := if neg then 2 ^ 31 else 0
    if r < 2 ^ 23 then
      if ftz ∧ r ≠ 0 then (f32Zero neg, flagUF ||| flagNX)
      else (BitVec.ofNat 32 (sign + r), if inexact then flagUF ||| flagNX else 0)
    else
      let (r, q) := if r = 2 ^ 24 then (2 ^ 23, q + 1) else (r, q)
      if q > 104 then
        (if rm = rmRTZ ∨ (rm = rmRUP ∧ neg) ∨ (rm = rmRDN ∧ ¬ neg) then f32Max neg else f32Inf neg, flagOF ||| flagNX)
      else
        (BitVec.ofNat 32 (sign + (q + 150).toNat * 2 ^ 23 + (r - 2 ^ 23)),
          (if inexact then flagNX else 0) ||| (if tiny ∧ inexact then flagUF else 0))

/-- The flag of a signalling NaN among operands (R38). -/
def nanFlag (xs : List Num) : FpFlags :=
  if xs.any (fun x => x = .nan true) then flagNV else 0

def Num.isNan : Num → Bool
  | .nan _ => true
  | _ => false

/-- The exact sum of two finite numbers, rounded once; a zero sum takes the sign of R38's IEEE rule. -/
def addFin (rm : BitVec 2) (ftz : Bool) (n1 : Bool) (m1 : Nat) (e1 : Int) (n2 : Bool) (m2 : Nat) (e2 : Int) :
    Word × FpFlags :=
  let e := min e1 e2
  let a : Nat := m1 * 2 ^ (e1 - e).toNat
  let b : Nat := m2 * 2 ^ (e2 - e).toNat
  let x : Int := (if n1 then -(a : Int) else a) + (if n2 then -(b : Int) else b)
  if x = 0 then
    (f32Zero (if m1 = 0 ∧ m2 = 0 ∧ n1 = n2 then n1 else (m1 ≠ 0 ∨ m2 ≠ 0 ∨ n1 ≠ n2) && rm == rmRDN), 0)
  else roundF32 rm ftz (x < 0) x.natAbs e false

/-- a + b (R35, R38). -/
def fpAddNum (rm : BitVec 2) (ftz : Bool) (x y : Num) : Word × FpFlags :=
  match x, y with
  | .inf n, .inf n' => if n = n' then (f32Inf n, 0) else (qnan, flagNV)
  | .inf n, .fin .. => (f32Inf n, 0)
  | .fin .., .inf n => (f32Inf n, 0)
  | .fin n1 m1 e1, .fin n2 m2 e2 => addFin rm ftz n1 m1 e1 n2 m2 e2
  | _, _ => (qnan, nanFlag [x, y])

def negNum : Num → Num
  | .nan s => .nan s
  | .inf n => .inf !n
  | .fin n m e => .fin (!n) m e

/-- The FP32 operations on words (R139); `rm` and `ftz` are FPC.RM and FPC.FTZ of the issuing bundle. -/
def fpAdd (rm : BitVec 2) (ftz : Bool) (a b : Word) : Word × FpFlags :=
  fpAddNum rm ftz (f32Num ftz a) (f32Num ftz b)

def fpSub (rm : BitVec 2) (ftz : Bool) (a b : Word) : Word × FpFlags :=
  fpAddNum rm ftz (f32Num ftz a) (negNum (f32Num ftz b))

def fpMul (rm : BitVec 2) (ftz : Bool) (a b : Word) : Word × FpFlags :=
  match f32Num ftz a, f32Num ftz b with
  | .fin n1 m1 e1, .fin n2 m2 e2 =>
    if m1 = 0 ∨ m2 = 0 then (f32Zero (n1 != n2), 0)
    else roundF32 rm ftz (n1 != n2) (m1 * m2) (e1 + e2) false
  | .inf n1, .inf n2 => (f32Inf (n1 != n2), 0)
  | .inf n1, .fin n2 m2 _ => if m2 = 0 then (qnan, flagNV) else (f32Inf (n1 != n2), 0)
  | .fin n1 m1 _, .inf n2 => if m1 = 0 then (qnan, flagNV) else (f32Inf (n1 != n2), 0)
  | x, y => (qnan, nanFlag [x, y])

/-- d + a * b or, with `sub`, d - a * b, with one rounding (R139). For 0 * infinity and a quiet NaN invalid is set. -/
def fpFma (rm : BitVec 2) (ftz sub : Bool) (d a b : Word) : Word × FpFlags :=
  let x := f32Num ftz a
  let y := f32Num ftz b
  let z := f32Num ftz d
  let invalid : FpFlags × Bool :=
    match x, y with
    | .inf _, .fin _ m _ => (flagNV, m = 0)
    | .fin _ m _, .inf _ => (flagNV, m = 0)
    | _, _ => (0, false)
  if invalid.2 then (qnan, flagNV)
  else if x.isNan || y.isNan || z.isNan then (qnan, nanFlag [x, y, z])
  else
    let p : Num :=
      match x, y with
      | .fin n1 m1 e1, .fin n2 m2 e2 => .fin (n1 != n2) (m1 * m2) (e1 + e2)
      | .inf n1, .inf n2 => .inf (n1 != n2)
      | .inf n1, .fin n2 _ _ => .inf (n1 != n2)
      | .fin n1 _ _, .inf n2 => .inf (n1 != n2)
      | q, _ => q
    fpAddNum rm ftz z (if sub then negNum p else p)

def fpDiv (rm : BitVec 2) (ftz : Bool) (a b : Word) : Word × FpFlags :=
  match f32Num ftz a, f32Num ftz b with
  | .fin n1 m1 e1, .fin n2 m2 e2 =>
    if m2 = 0 then
      if m1 = 0 then (qnan, flagNV) else (f32Inf (n1 != n2), flagDZ)
    else if m1 = 0 then (f32Zero (n1 != n2), 0)
    else
      let num := m1 * 2 ^ 64
      roundF32 rm ftz (n1 != n2) (num / m2) (e1 - e2 - 64) (num % m2 ≠ 0)
  | .inf _, .inf _ => (qnan, flagNV)
  | .inf n1, .fin n2 _ _ => (f32Inf (n1 != n2), 0)
  | .fin n1 _ _, .inf n2 => (f32Zero (n1 != n2), 0)
  | x, y => (qnan, nanFlag [x, y])

/-- The square root of `m * 2^e` as a magnitude with 40 or more bits, its exponent, and whether it is inexact. -/
def sqrtMag (m : Nat) (e : Int) : Nat × Int × Bool :=
  let odd := e % 2 ≠ 0
  let m := if odd then m * 2 else m
  let e := if odd then e - 1 else e
  let m := m * 2 ^ 120
  let r := Nat.sqrt m
  (r, e / 2 - 60, r * r ≠ m)

def fpSqrt (rm : BitVec 2) (ftz : Bool) (a : Word) : Word × FpFlags :=
  match f32Num ftz a with
  | .nan s => (qnan, nanFlag [.nan s])
  | .inf neg => if neg then (qnan, flagNV) else (f32Inf false, 0)
  | .fin neg m e =>
    if m = 0 then (f32Zero neg, 0)
    else if neg then (qnan, flagNV)
    else
      let (r, q, sticky) := sqrtMag m e
      roundF32 rm ftz false r q sticky

/-- 1/x, rounded once with ties to even (R40). -/
def fpRcp (ftz : Bool) (a : Word) : Word × FpFlags := fpDiv rmRNE ftz 0x3F800000 a

/-- 1/sqrt x, rounded once with ties to even (R38, R40). -/
def fpRsq (ftz : Bool) (a : Word) : Word × FpFlags :=
  match f32Num ftz a with
  | .nan s => (qnan, nanFlag [.nan s])
  | .inf neg => if neg then (qnan, flagNV) else (0, 0)
  | .fin neg m e =>
    if m = 0 then (f32Inf neg, flagDZ)
    else if neg then (qnan, flagNV)
    else
      -- 1/sqrt(m * 2^e) = sqrt(2^200 / m) * 2^(-(e + 200)/2), with the parity of e moved into the dividend
      let odd := e % 2 ≠ 0
      let num := if odd then 2 ^ 201 else 2 ^ 200
      let e' := if odd then e + 1 else e
      let quo := num / m
      let r := Nat.sqrt quo
      roundF32 rmRNE ftz false r (-(e' / 2) - 100) (r * r ≠ quo ∨ num % m ≠ 0)

/-- The order key of a number for comparisons: exact, with both zeros equal. -/
def numLt (x y : Num) : Bool :=
  match x, y with
  | .inf n, .inf n' => n && !n'
  | .inf n, .fin .. => n
  | .fin .., .inf n => !n
  | .fin n1 m1 e1, .fin n2 m2 e2 =>
    let e := min e1 e2
    let a : Nat := m1 * 2 ^ (e1 - e).toNat
    let b : Nat := m2 * 2 ^ (e2 - e).toNat
    decide ((if n1 then -(a : Int) else a) < (if n2 then -(b : Int) else b))
  | _, _ => false

def numEq (x y : Num) : Bool := !x.isNan && !y.isNan && !numLt x y && !numLt y x

/-- A number that needs no rounding, back as FP32 bits. -/
def numBits (ftz : Bool) (w : Word) : Word :=
  if ftz && (w.toNat / 2 ^ 23 % 256 == 0) then f32Zero (w.getLsbD 31) else w

/-- The lesser or greater of two FP32 values with the rules of R38 for NaN and signed zeros. -/
def fpMinMax (ftz greater : Bool) (a b : Word) : Word × FpFlags :=
  let x := f32Num ftz a
  let y := f32Num ftz b
  if x.isNan || y.isNan then (qnan, nanFlag [x, y])
  else
    let a := numBits ftz a
    let b := numBits ftz b
    if numEq x y then (if greater then a &&& b else a ||| b, 0)
    else (if numLt x y != greater then a else b, 0)

/-- An FP32 comparison: false with a NaN operand, and invalid only when it signals (R38). -/
def fpCompare (ftz : Bool) (f : Num → Num → Bool) (a b : Word) : Bool × FpFlags :=
  let x := f32Num ftz a
  let y := f32Num ftz b
  if x.isNan || y.isNan then (false, nanFlag [x, y]) else (f x y, 0)

/-! ### 2^x and log2 x, each the exact function rounded once (R40) -/

/-- `2^f` with 200 bits after the point, for the fraction `f` given by its bits from the top: each bit multiplies by the
next of the numbers 2^(1/2), 2^(1/4), ..., which repeated square roots give (log 10, DEDUCED). -/
def exp2Bits : List Bool → Nat → Nat → Nat
  | [], _, acc => acc
  | b :: r, c, acc =>
    let c := Nat.sqrt (c * 2 ^ 200)
    exp2Bits r c (if b then acc * c / 2 ^ 200 else acc)

/-- The bits of a fraction `f / 2^n`, the highest first. -/
def fracBits (n f : Nat) : List Bool := (List.range n).map fun i => (f / 2 ^ (n - 1 - i)) % 2 == 1

/-- 2^x (R40, R139). The exact value of a fraction that is not 0 is irrational, so 200 bits and a sticky bit decide the
rounding (log 10, DEDUCED). -/
def fpExp2 (ftz : Bool) (a : Word) : Word × FpFlags :=
  match f32Num ftz a with
  | .nan s => (qnan, nanFlag [.nan s])
  | .inf neg => if neg then (0, 0) else (f32Inf false, 0)
  | .fin neg m e =>
    if m = 0 then (0x3F800000, 0)
    else
      let top := (Nat.log2 m : Int) + e
      if top < -30 then
        -- so near 1 that the rounding gives 1
        (0x3F800000, flagNX)
      else if top ≥ 9 then
        if neg then (0, flagUF ||| flagNX) else (f32Inf false, flagOF ||| flagNX)
      else
        -- |x| = fixed / 2^60
        let fixed : Nat := if e + 60 ≥ 0 then m * 2 ^ (e + 60).toNat else m / 2 ^ (-(e + 60)).toNat
        let x : Int := if neg then -(fixed : Int) else fixed
        let n : Int := x / 2 ^ 60
        let f : Nat := (x % 2 ^ 60).toNat
        if f = 0 then roundF32 rmRNE ftz false 1 n false
        else roundF32 rmRNE ftz false (exp2Bits (fracBits 60 f) (2 ^ 201) (2 ^ 200)) (n - 200) true

/-- The bits of log2 of `x / 2^400`, for x from 1 up to 2, by repeated squaring: `n` bits after the point
(log 10, DEDUCED). -/
def log2Bits : Nat → Nat → Nat → Nat
  | 0, _, acc => acc
  | n + 1, x, acc =>
    let y := x * x / 2 ^ 400
    if y ≥ 2 ^ 401 then log2Bits n (y / 2) (2 * acc + 1) else log2Bits n y (2 * acc)

/-- log2 x (R38, R40) (log 10, DEDUCED). -/
def fpLog2 (ftz : Bool) (a : Word) : Word × FpFlags :=
  match f32Num ftz a with
  | .nan s => (qnan, nanFlag [.nan s])
  | .inf neg => if neg then (qnan, flagNV) else (f32Inf false, 0)
  | .fin neg m e =>
    if m = 0 then (f32Inf true, flagDZ)
    else if neg then (qnan, flagNV)
    else
      let top := Nat.log2 m
      let n : Int := (top : Int) + e
      if m = 2 ^ top then
        if n = 0 then (0, 0) else roundF32 rmRNE ftz (n < 0) n.natAbs 0 false
      else
        let frac := log2Bits 160 (m * 2 ^ (400 - top)) 0
        if n ≥ 0 then roundF32 rmRNE ftz false (n.toNat * 2 ^ 160 + frac) (-160) true
        else roundF32 rmRNE ftz true ((-n).toNat * 2 ^ 160 - frac - 1) (-160) true

/-! ### Conversions -/

/-- vcvt.f.i: a signed integer to FP32 (R140). -/
def fpOfInt (rm : BitVec 2) (a : Word) : Word × FpFlags :=
  roundF32 rm false (a.toInt < 0) a.toInt.natAbs 0 false

/-- vcvt.i.f: FP32 to a saturated integer (R140). -/
def fpToInt (rm : BitVec 2) (ftz : Bool) (a : Word) : Word × FpFlags :=
  match f32Num ftz a with
  | .nan _ => (0, flagNV)
  | .inf neg => (if neg then 0x80000000 else 0x7FFFFFFF, flagNV)
  | .fin neg m e =>
    if m = 0 then (0, 0)
    else
      let (r, q, inexact) := roundMag 400 0 rm neg m e
      let v : Nat := r * 2 ^ q.toNat
      let x : Int := if neg then -(v : Int) else v
      if x > 2147483647 then (0x7FFFFFFF, flagNV)
      else if x < -2147483648 then (0x80000000, flagNV)
      else (BitVec.ofInt 32 x, if inexact then flagNX else 0)

/-- FP32 to BF16, rounded to nearest with ties to even (R42). -/
def fpToBf16 (ftz : Bool) (a : Word) : BitVec 16 × FpFlags :=
  match f32Num ftz a with
  | .nan s => (0x7FC0, nanFlag [.nan s])
  | .inf neg => (if neg then 0xFF80 else 0x7F80, 0)
  | .fin neg m e =>
    let sign := if neg then 2 ^ 15 else 0
    if m = 0 then (BitVec.ofNat 16 sign, 0)
    else
      let (r, q, inexact) := roundMag 8 (-133) rmRNE neg m e
      let tiny := tinyMag 8 (-133) rmRNE neg m e
      let (r, q) := if r = 2 ^ 8 then (2 ^ 7, q + 1) else (r, q)
      if q > 120 then (BitVec.ofNat 16 (sign + 0x7F80), flagOF ||| flagNX)
      else
        (BitVec.ofNat 16 (sign + (if r < 2 ^ 7 then r else (q + 134).toNat * 2 ^ 7 + (r - 2 ^ 7))),
          (if inexact then flagNX else 0) ||| (if tiny ∧ inexact then flagUF else 0))

/-- BF16 to FP32: exact, but for a NaN (R42). -/
def fpOfBf16 (x : BitVec 16) : Word × FpFlags :=
  let w : Word := BitVec.ofNat 32 (x.toNat * 2 ^ 16)
  match f32Num false w with
  | .nan s => (qnan, nanFlag [.nan s])
  | _ => (w, 0)

/-- The exact value of an E4M3 byte as a number (R43). -/
def e4m3Num (x : Byte) : Num :=
  let neg := x.getLsbD 7
  let e : Nat := x.toNat / 8 % 16
  let m : Nat := x.toNat % 8
  if e = 15 ∧ m = 7 then .nan false
  else if e = 0 then .fin neg m (-9)
  else .fin neg (8 + m) ((e : Int) - 10)

/-- FP32 to E4M3 under FPC.E4M3SAT (R44): the byte, the flags and whether CVT_SAT8 counts. -/
def fpToE4m3 (ftz sat : Bool) (a : Word) : Byte × FpFlags × Bool :=
  match f32Num ftz a with
  | .nan s => (0x7F, nanFlag [.nan s], false)
  | .inf neg => (if sat then (if neg then 0xFE else 0x7E) else (if neg then 0xFF else 0x7F), flagOF ||| flagNX, true)
  | .fin neg m e =>
    let sign := if neg then 128 else 0
    if m = 0 then (BitVec.ofNat 8 sign, 0, false)
    else if numLt (.fin false 464 0) (.fin false m e) then
      (BitVec.ofNat 8 (sign + if sat then 0x7E else 0x7F), flagOF ||| flagNX, true)
    else
      let (r, q, inexact) := roundMag 4 (-9) rmRNE neg m e
      let tiny := tinyMag 4 (-9) rmRNE neg m e
      let (r, q) := if r = 16 then (8, q + 1) else (r, q)
      (BitVec.ofNat 8 (sign + if r < 8 then r else (q + 10).toNat * 8 + (r - 8)),
        (if inexact then flagNX else 0) ||| (if tiny ∧ inexact then flagUF else 0), false)

/-- E4M3 to FP32: exact, and a NaN gives 0x7FC0_0000 (R44). -/
def fpOfE4m3 (x : Byte) : Word :=
  match e4m3Num x with
  | .fin neg m e => (roundF32 rmRNE false neg m e false).1
  | _ => qnan

/-- The lane result of vbscl (R149): value, flags and whether NAN_SCALE counts. -/
def fpBlockScale (rm : BitVec 2) (ftz : Bool) (s x : Word) : Word × FpFlags × Bool :=
  let e : Nat := s.toNat / 2 ^ 12 % 256
  let m : Nat := s.toNat % 2 ^ 12
  if e = 0 then (0, 0, false)
  else if e = 255 then (qnan, nanFlag [f32Num false x], true)
  else
    match f32Num ftz x with
    | .nan sig => (qnan, nanFlag [.nan sig], false)
    | .inf neg => (f32Inf neg, 0, false)
    | .fin neg mx ex =>
      let r := roundF32 rm ftz neg (mx * (4096 + m)) (ex + (e : Int) - 127 - 12) false
      (r.1, r.2, false)

/-- FP32 sum with ties to even, subnormals kept and no flags: RNE of R89, as amofadd and the array use it (R57, R195). -/
def fpAddRNE (a b : Word) : Word := (fpAdd rmRNE false a b).1

end Sys2Proof.Machine
end

