-- ==== Sys2Proof/Machine/ChanState.lean ====
section
/-! DEFINITION. Channel ends, pushes and releases in progress, transaction barriers, error logs and the cell's held fault
entries (R269 to R302, R331, R382, R383, R388, R404, R426). -/

namespace Sys2Proof.Machine

/-- The states of a channel end (R270). -/
inductive EndState where
  | unconf | opened | closed | dead
deriving DecidableEq, Repr

/-- A packet that has completely arrived in a slot (R277, R281). -/
structure Arrived where
  slot : Nat
  seq : Word
  eos : Bool
  poison : Bool
  etag : BitVec 8
deriving DecidableEq, Repr

/-- A slot claimed by an spop whose register has not been delivered (R288). -/
structure Claim where
  slot : Nat
  k : Nat
  recid : Nat
  op : Nat
  t : Nat
  /-- The channel is the trigger of the record that popped (R276). -/
  own : Bool
deriving DecidableEq, Repr

/-- An in-channel (R272) with its controller (R294 to R296) and its occupancy monitors (R404). -/
structure InChan where
  state : EndState
  base : Nat
  size : Nat
  slots : Nat
  peer : Word
  mode : Bool
  owner : BitVec 16
  rate0 : Word
  rate1 : Word
  rtt : Nat
  seq : Word
  occ : Nat
  popPtr : Nat
  relPtr : Nat
  popped : Nat
  /-- Packets completely arrived and not yet released; a popped one keeps its entry until its release. -/
  arrived : List Arrived
  claims : List Claim
  wp : Nat
  wc : Nat
  /-- A consumer weight that is applied in the next cycle (R279, R296). -/
  wcNext : Option (Nat × Nat)
  integ : Int
  avg : Nat
  frozen : Bool
  miss : Bool
  sum : Nat
  frz : Bool
  /-- The first cycle of the controller's period. -/
  start : Nat
  omin : Nat
  omax : Nat
  hist : List Word
  /-- The bin that this cycle's sample counts into, with its value before (R407). -/
  binAt : Option (Nat × Word)
deriving DecidableEq, Repr

/-- An out-channel (R272) with its BLK monitor (R404). -/
structure OutChan where
  state : EndState
  slots : Nat
  peer : Word
  mode : Bool
  owner : BitVec 16
  grouped : Bool
  group : Nat
  seq : Word
  fbc : Nat
  wptr : Nat
  weight : Nat
  /-- A weight that has arrived and is applied in the next cycle (R296). -/
  weightNext : Option (Nat × Nat)
  /-- A weight has arrived since the end opened. -/
  weighted : Bool
  /-- SIZE of the peer as recorded at open (R286). -/
  peerSize : Nat
  pblk : Bool
  pstv : Bool
  blk : Word
  /-- The latest cycle that BLK counts, with its value before (R407). -/
  blkAt : Option (Nat × Word)
deriving DecidableEq, Repr

/-- One destination of a push: an out-channel with the slot that it takes. -/
structure PushTo where
  chan : Nat
  slot : Nat
  peer : Word
  mode : Bool
  pblk : Bool
  pstv : Bool
  dead : Bool
deriving DecidableEq, Repr

/-- A push or mcast whose payload is being read (R287, R291). -/
structure PushJob where
  op : Nat
  k : Nat
  recid : Nat
  t : Nat
  off : Nat
  len : Nat
  seq : Word
  eos : Bool
  poison : Bool
  etag : BitVec 8
  to' : List PushTo
  mcast : Bool
  /-- Its reads have begun; the bytes read so far, and whether a word of them had an uncorrectable error (R287). -/
  begun : Bool
  data : List Byte
  bad : Bool
deriving DecidableEq, Repr

/-- A release that waits for earlier reads (R289). -/
structure RelJob where
  op : Nat
  k : Nat
  recid : Nat
  chan : Nat
  n : Nat
deriving DecidableEq, Repr

/-- The states of a transaction barrier (R388). -/
inductive TbState where
  | idle | armed | done
deriving DecidableEq, Repr

/-- A transaction barrier (R388). -/
structure Tbar where
  exparr : Nat
  arr : Nat
  phase : BitVec 8
  expsec : Nat
  state : TbState
  sec : Nat
  donecyc : Word
deriving DecidableEq, Repr

/-- A tbarr that waits for the strand's earlier engine writes (R393), or a tbinit that has issued in this cycle (R390). -/
structure TbJob where
  op : Nat
  k : Nat
  recid : Nat
  tb : Nat
  init : Bool
  a : Word
  b : Word
  t : Nat
deriving DecidableEq, Repr

/-- One entry of an error log (R382). -/
structure LogEntry where
  valid : Bool
  ue : Bool
  addr : Nat
  synd : BitVec 8
  recid : Nat
  strand : Nat
  source : Nat
  cycle : Word
deriving DecidableEq, Repr

/-- The error log of a store with its control word (R382). -/
structure ErrLog where
  entries : List LogEntry
  index : Nat
  overflow : BitVec 16
deriving DecidableEq, Repr

/-- A bit error planted in a stored word: the word's number (offset divided by 8, or by 4 in the I-store), the flipped code
bits, and whether a read has found it, so that it is no new error (R382, R383). -/
structure Flip where
  store : Nat
  word : Nat
  bits : List Nat
  seen : Bool
deriving DecidableEq, Repr

/-- A spare row or column in use (R426). -/
structure Remap where
  store : Nat
  bank : Nat
  col : Bool
  addr : Nat
deriving DecidableEq, Repr

/-- The Reset column of R272 for an in-channel (log 7, DESIGN CHOICE). -/
def InChan.reset : InChan where
  state := .unconf
  base := 0
  size := 64
  slots := 2
  peer := 0
  mode := false
  owner := 0
  rate0 := 0
  rate1 := 0x01000001
  rtt := 0
  seq := 0
  occ := 0
  popPtr := 0
  relPtr := 0
  popped := 0
  arrived := []
  claims := []
  wp := 256
  wc := 256
  wcNext := none
  integ := 0
  avg := 0
  frozen := false
  miss := false
  sum := 0
  frz := false
  start := 0
  omin := 0
  omax := 0
  hist := List.replicate 16 0
  binAt := none

/-- The Reset column of R272 for an out-channel; its FBC is DESIGN CHOICE 0 while the end has never opened (log 7, DESIGN
CHOICE). -/
def OutChan.reset : OutChan where
  state := .unconf
  slots := 2
  peer := 0
  mode := false
  owner := 0
  grouped := false
  group := 0
  seq := 0
  fbc := 0
  wptr := 0
  weight := 256
  weightNext := none
  weighted := false
  peerSize := 64
  pblk := false
  pstv := false
  blk := 0
  blkAt := none

/-- An IDLE barrier (R388). -/
def Tbar.reset : Tbar := ⟨0, 0, 0, 0, .idle, 0, 0⟩

/-- An empty log (R382). -/
def ErrLog.reset : ErrLog := ⟨List.replicate 8 ⟨false, false, 0, 0, 0, 0, 0, 0⟩, 0, 0⟩

end Sys2Proof.Machine
end

