-- ==== Sys2Proof/Machine/IoState.lean ====
section
/-! DEFINITION. What the I/O die of a module holds: links, routing, queues, host endpoints, unit table, classifier, module
registers and boot (R305 to R332, R379 to R386, R397, R402, R406, R414 to R427, R432). -/

namespace Sys2Proof.Machine

/-- The states of a link (R313). -/
inductive LinkState where
  | down | train | up | retrain | isolated
deriving DecidableEq, Repr

/-- A link packet in the replay buffer (R310): its number, its message, whether it is the message's last, its flits, its
virtual channel, the cycle in which its header flit was sent, and whether it has been sent since the latest replay. -/
structure Sent where
  lseq : BitVec 12
  msg : Nat
  last : Bool
  flits : Nat
  vc : Nat
  at' : Nat
  out : Bool
  /-- It holds the credits for its flits: those of a packet that a training finds unaccepted are taken anew (R311). -/
  paid : Bool
deriving DecidableEq, Repr

/-- An outstanding request of a link (R316): the number of its message, its source and strand, its operation and sector. -/
structure Outst where
  msg : Nat
  src : Addr
  strand : Nat
  op : Nat
  sector : Nat
  dst : Addr
  path : List Nat
deriving DecidableEq, Repr

/-- A channel end on the link's own module side (R316): for a host endpoint the unit is the I/O die. -/
structure EndKey where
  addr : Addr
  out : Bool
  chan : Nat
deriving DecidableEq, Repr

/-- One link (R305 to R319, R406). -/
structure Link where
  state : LinkState
  width : Nat
  first : Nat
  failed : BitVec 16
  changes : Nat
  rplyEvents : Nat
  rplyPackets : Nat
  hist : Word
  nbrChip : Nat
  nbrLink : Nat
  nbrValid : Bool
  /-- Sender: the next LSEQ, the replay buffer, and free flits of the receiver's buffer per virtual channel. -/
  tx : BitVec 12
  /-- Replays begun after a NAK. -/
  era : Nat
  replay : List Sent
  credits : List Nat
  /-- The sender has sent its latest flit at this time, in sevenths of a cycle (R306); and the virtual channel that the round
  robin serves next. -/
  txFree : Nat
  rr : Nat
  /-- Receiver: the next LSEQ expected, packets accepted since the latest ACK, credits owed, and discarding up to the replay that
follows a number of the sender's replays. -/
  rx : BitVec 12
  owed : Nat
  freed : List Nat
  discarding : Option Nat
  /-- Flits of VC 7 that a module in RESET holds in the receive buffer (R415). -/
  heldFlits : Nat
  lastAck : Nat
  lastRx : Nat
  outst : List Outst
  chans : List EndKey
  chovf : Bool
  platMax : Nat
  platLast : Nat
  attempts : Nat
  /-- The cycle in which training or retraining began. -/
  since : Nat
  /-- The cycle of the next TIME flit (R402). -/
  timeAt : Nat
  /-- An image on VC 7 has come or gone over this link. -/
  imaged : Bool
  /-- The head and the hop count of the latest TIME flit since the link came UP (R402). -/
  heard : Option (Nat × Nat)
  /-- Chip id and link number of the TRAIN flit received in this training (R309, R313). -/
  ident : Option (Nat × Nat)
  /-- The link is in its training at boot, or waits for its neighbour's chip id since; then Spire firmware writes the routing entry
of the neighbour (R379). -/
  booting : Bool
deriving DecidableEq, Repr

/-- A routing-table entry (R379). -/
structure Route where
  v : Bool
  here : Bool
  first : Nat
  mask : BitVec 64
  /-- Former FIRST links that still hold outstanding requests for this chip (R381). -/
  old : List Nat
deriving DecidableEq, Repr

/-- A hardware queue (R327). -/
structure Queue where
  en : Bool
  kind : Nat
  target : Nat
  base : Nat
  log : Nat
  head : Nat
  tail : Nat
  ovf : Nat
deriving DecidableEq, Repr

/-- An ingress endpoint (R324, R432). A stage is its bytes; `doorbells` lists the doorbelled stages in order. -/
structure Ingress where
  fbc : Nat
  wgt : Nat
  en : Bool
  pst : Nat
  nven : Bool
  nvec : Nat
  slots : Nat
  peer : Word
  valid : Bool
  wptr : Nat
  /-- EN has been 1 and was then written 0 (R432). -/
  wasOff : Bool
  doorbells : List Nat
  /-- The stage being forwarded and the cycle in which its forward has read it. -/
  busy : Option (Nat × Nat)
  stage0 : List Host.Cell
  stage1 : List Host.Cell
deriving DecidableEq, Repr

/-- An egress endpoint (R325, R432). -/
structure Egress where
  lo : Word
  hi : Word
  en : Bool
  slots : Nat
  vec : Nat
  size : Nat
  wptr : Nat
  peer : Word
  valid : Bool
  pst : Nat
  wasOff : Bool
deriving DecidableEq, Repr

/-- A unit-table entry (R397). -/
structure UnitEntry where
  v : Bool
  level : Nat
  fired : Bool
  status : Nat
  id : Nat
  closed : Bool
  live : Nat
  home : Nat
  nmod : Nat
  kills : Nat
  cells : BitVec 1024
  /-- The greatest status that has reached HOME, and whether this module has sent its report. -/
  combined : Nat
  reported : Bool
  /-- The id of the unit above, as the records that have ended named it (R396, R398). -/
  parent : Option Nat
deriving DecidableEq, Repr

/-- A classifier entry (R384). -/
structure ClassEntry where
  v : Bool
  cls : Nat
  store : Nat
  req : Bool
  celln : Nat
  bank : Nat
  row : Nat
  col : Nat
  count : Nat
  last : Word
deriving DecidableEq, Repr

/-- The states of boot (R414, R415). -/
inductive BootState where
  | reset | wait | verify | run | fail
deriving DecidableEq, Repr

/-- A placement that HOME is loading (R421, R422): its id, its module count, the acknowledgements so far, and whether a
failure has come or the start notice has gone. -/
structure Placement where
  id : Nat
  mods : Nat
  acks : Nat
  failed : Bool
  started : Bool
  members : List Nat
deriving DecidableEq, Repr

/-- A fault entry held in its source (R331): the source's place in the source order, and the entry's words. -/
structure HeldFault where
  src : Nat
  words : List Word
deriving DecidableEq, Repr

/-- A wait query that a cell's strand has sent to the I/O die (R399). -/
structure UnitWait where
  unit : Nat
  strand : Nat
  level : Nat
  id : Nat
  since : Nat
deriving DecidableEq, Repr

/-- A checkpoint or a restore in progress (R424): its host address, how many of its 5,120 parts have been moved, and the cycle
from which the next may be. -/
structure Transfer where
  restore : Bool
  addr : Nat
  next : Nat
  due : Nat
deriving DecidableEq, Repr

/-- What firmware still writes after a repair (R426): the cell, the command, and the cycle. -/
structure Fix where
  unit : Nat
  cmd : Word
  due : Nat
deriving DecidableEq, Repr

/-- The I/O die. -/
structure IoDie where
  /-- MID.CHIPID, MID.VALID. -/
  chip : Nat
  midValid : Bool
  boot : BootState
  bootErr : Nat
  /-- The cycle in which the present stage of boot ends, and the link that the image came on. -/
  bootAt : Nat
  imageLink : Option Nat
  stage : List Host.Cell
  /-- The verified boot image (R418). -/
  image : List Byte
  /-- CYC, its latch, and the steps that synchronisation still makes (R402). -/
  cyc : BitVec 64
  cycLatch : Word
  steer : Int
  pceil : Nat
  /-- CEIL as the cycle found it (R427). -/
  ceilNow : Nat
  pwr : Word
  pcap : Nat
  temp : Nat
  ckDir : Bool
  ckLo : Word
  ckHi : Word
  transfer : Option Transfer
  sfaultq : Word
  nonce : Tab Word
  nonceNext : Tab Word
  attBusy : Option Nat
  attrep : Tab Word
  pvec : Tab Word
  uvec : Tab Word
  rdyvec : Word
  spvec : Tab Word
  msixTable : Tab Word
  /-- The ready bitmap by words: 0 to 31 the cells, 32 ports, 33 die meshes, 34 Spire cores, 35 the host interface (R419),
  and the functions that have not reported, each with its cycle. -/
  ready : Tab Word
  unready : List (Nat × Nat)
  splits : Tab Nat
  /-- Writes of the module's Spire cores to the management window that have not taken effect in this cycle (R414). -/
  writes : List (Nat × Word)
  links : Tab Link
  routes : Tab Route
  queues : Tab Queue
  qsram : List Host.Cell
  ingress : Tab Ingress
  egress : Tab Egress
  units : Tab UnitEntry
  unitWaits : List UnitWait
  /-- Replies of Spire firmware that wait for room in their queue (R413). -/
  replies : List (Nat × Word)
  /-- The queues that firmware has seen to hold entries, each with the cycle in which it serves the first (R413). -/
  serves : Tab Nat
  fixes : List Fix
  classifier : Tab ClassEntry
  cethr : Nat
  held : List HeldFault
  placements : List Placement
  /-- The placement images received, the latest first (R339, R421). -/
  images : List (List Byte)
  measurement : List Byte
  imageDigest : List Byte
  powered : Bool
  /-- The latest vectors signalled to the host, and what the I/O die has written to host memory. -/
  msix : List (Nat × Nat)
  hostMem : List Host.Cell
deriving DecidableEq, Repr

/-- The Reset column of R319. -/
def Link.reset : Link where
  state := .down
  width := 0
  first := 0
  failed := 0
  changes := 0
  rplyEvents := 0
  rplyPackets := 0
  hist := 0
  nbrChip := 0
  nbrLink := 0
  nbrValid := false
  tx := 0
  era := 0
  replay := []
  credits := List.replicate 8 64
  txFree := 0
  rr := 0
  rx := 0
  owed := 0
  freed := List.replicate 8 0
  discarding := none
  heldFlits := 0
  lastAck := 0
  lastRx := 0
  outst := []
  chans := []
  chovf := false
  platMax := 0
  platLast := 0
  attempts := 0
  since := 0
  timeAt := 0
  imaged := false
  heard := none
  ident := none
  booting := false

/-- The Reset columns of R379, R327, R324, R325, R397 and R384. -/
def Route.reset : Route := ⟨false, false, 0, 0, []⟩
def Queue.reset : Queue := ⟨false, 0, 0, 0, 6, 0, 0, 0⟩
def Ingress.reset : Ingress := ⟨0, 256, false, 0, false, 0, 0, 0, false, 0, false, [], none, [], []⟩
def Egress.reset : Egress := ⟨0, 0, false, 0, 0, 0, 0, 0, false, 0, false⟩
def UnitEntry.reset : UnitEntry := ⟨false, 0, false, 0, 0, false, 0, 0, 0, 0, 0, 0, false, none⟩
def ClassEntry.reset : ClassEntry := ⟨false, 0, 0, false, 0, 0, 0, 0, 0, 0⟩

/-- The I/O die at module reset (R313, R327, R379, R384, R414, R415, R419). -/
def IoDie.reset : IoDie where
  chip := 0
  midValid := false
  boot := .reset
  bootErr := 0
  bootAt := 0
  imageLink := none
  stage := []
  image := []
  cyc := 0
  cycLatch := 0
  steer := 0
  pceil := 256
  ceilNow := 256
  pwr := 0
  pcap := 1400
  temp := 0
  ckDir := false
  ckLo := 0
  ckHi := 0
  transfer := none
  sfaultq := 0
  nonce := []
  nonceNext := []
  attBusy := none
  attrep := []
  pvec := []
  uvec := []
  rdyvec := 0
  spvec := []
  msixTable := []
  ready := []
  unready := []
  splits := []
  writes := []
  links := []
  routes := []
  queues := []
  qsram := []
  ingress := []
  egress := []
  units := []
  unitWaits := []
  replies := []
  serves := []
  fixes := []
  classifier := []
  cethr := 8
  held := []
  placements := []
  images := []
  measurement := List.replicate 64 0
  imageDigest := List.replicate 64 0
  powered := true
  msix := []
  hostMem := []

end Sys2Proof.Machine
end

