-- ==== Sys2Proof/Machine/CellState.lean ====
section
/-! DEFINITION. What one cell, or one Spire core, holds (R21, R24, R178 to R180, R202, R210, R333, R354, R382, R400, R426). -/

namespace Sys2Proof.Machine

/-- One entry of the translation set: flags, virtual tag and frame (R354). -/
structure XEntry where
  flags : Word
  tag : Word
  frame : Word
deriving DecidableEq, Repr

/-- The eight numerical counters of a cell (R400). -/
structure Counters where
  accSat : BitVec 16
  cvtSat8 : BitVec 16
  nanScale : BitVec 16
  nanOut : BitVec 16
  infOut : BitVec 16
  wldRange : BitVec 16
  sdcMismatch : BitVec 16
  discRead : BitVec 16
deriving DecidableEq, Repr

/-- One engine command in flight on the range-overlap scoreboard, by the number of its operation: its ranges (offset and
length), which hold plain accesses back, and the parts that it has not finished, which hold engine commands back (R198,
R199). -/
structure ScbEntry where
  op : Nat
  k : Nat
  reads : List (Nat × Nat)
  writes : List (Nat × Nat)
  readsLeft : List (Nat × Nat)
  writesLeft : List (Nat × Nat)
  /-- The operation whose place in the strand's order the command has: its own, or that of the copy whose `then` field it is
  (R258, R393). -/
  rank : Nat
deriving DecidableEq, Repr

/-- A qpush or qpop in flight. A qpush has not left its cell while it waits for the strand's earlier write-type operations
within the module (R329); `sent` tells that the request has left. -/
structure QueueWait where
  op : Nat
  k : Nat
  recid : Nat
  push : Bool
  queue : Nat
  off : Nat
  t : Nat
  sent : Bool
deriving DecidableEq, Repr

/-- A bind whose descriptor is being read: its offset, the strand that issued it with its record, its register, and the cycle
in which the read ends (R338). -/
structure BindJob where
  op : Nat
  k : Nat
  entry : Nat
  off : Nat
  t : Nat
  endAt : Option Nat
deriving DecidableEq, Repr

/-- A cell (R21), or a Spire core with its SRAM as its memory (R24). -/
structure Cell where
  spire : Bool
  strands : Vector Strand 4
  /-- D-store, W-store and I-store by the cell offsets of R179, or the SRAM of a Spire core: the bytes that are not 0. -/
  mem : List Host.Cell
  /-- The 64-bit words, by offset divided by 8, whose code reads as uncorrectable (R180). -/
  bad : List Nat
  races : List Race
  scb : List ScbEntry
  recs : Tab RecEntry
  /-- How many records of the cell have ended. -/
  ends : Nat
  ctxJob : Option (CtxJob × Nat)
  ctxQueue : List CtxJob
  binds : List BindJob
  ptr : Nat
  agelim : Word
  tokexp : Word
  /-- TOKEXP as the cycle found it (R372). -/
  tokexpNow : Word
  faultq : Word
  rbres : Word
  xset : Tab XEntry
  cds : Tab CopySet
  ops : List EngOp
  /-- The first cycle in which the copy engine may start another sector (R254). -/
  engineAt : Nat
  tokens : Tab TokEntry
  /-- How many tokens have landed, by which allocation finds the earliest (R362). -/
  landings : Nat
  hold : Tab HoldEntry
  /-- How many carried requests the cell has held, by which READY entries are ordered (R370). -/
  arrivals : Nat
  /-- The waits of this cell on foreign tokens. -/
  waits : List TokenWait
  deliveries : List Delivery
  /-- Sectors performed here of copies whose arrival is not counted yet, by source and operation (R257). -/
  parts : List (Addr × Nat × Nat)
  /-- Writes to control registers that have been performed and not yet taken effect in this cycle. -/
  regWrites : List (Nat × Word)
  cnts : Counters
  /-- The counters as the cycle found them, and what the cycle has added (R407). -/
  cntsWas : Counters
  cntsNew : Counters
  /-- The chain statistics (R401). -/
  cmax : Word
  cnan : BitVec 16
  arr : ArrayUnit
  ins : Tab InChan
  outs : Tab OutChan
  pushes : List PushJob
  rels : List RelJob
  tbs : Tab Tbar
  tbjobs : List TbJob
  /-- Words 0 to 63 of the staging area of RBIND (R339). -/
  staging : Tab Word
  logs : Tab ErrLog
  /-- The two injection words of each store (R383) and the errors planted and not yet found. -/
  inject : Tab (Word × Word)
  flips : List Flip
  /-- REPCMD, the last command that started, REPSTAT's NOSPARE, the cycle in which the repair ends, and the spares in use
  (R426). -/
  repcmd : Word
  repaired : Word
  nospare : Bool
  repairAt : Option Nat
  remaps : List Remap
  /-- Fault entries that wait for their queue (R331). -/
  faults : List HeldFault
  /-- qpush and qpop commands in flight (R329). -/
  qwaits : List QueueWait
deriving DecidableEq, Repr

/-- The strand of a given number as the cell holds it at module reset (log 3, DEDUCED) (log 7, DESIGN CHOICE). -/
def Cell.reset (spire : Bool) : Cell where
  spire := spire
  strands := Vector.replicate 4 (if spire then Strand.resetSpire else Strand.reset)
  mem := []
  bad := []
  races := []
  scb := []
  recs := []
  ends := 0
  ctxJob := none
  ctxQueue := []
  binds := []
  ptr := 0
  agelim := 4096
  tokexp := 0x00200000
  tokexpNow := 0x00200000
  faultq := 0
  rbres := 0
  xset := []
  cds := []
  ops := []
  engineAt := 0
  tokens := []
  landings := 0
  hold := []
  arrivals := 0
  waits := []
  deliveries := []
  parts := []
  regWrites := []
  cnts := ⟨0, 0, 0, 0, 0, 0, 0, 0⟩
  cntsWas := ⟨0, 0, 0, 0, 0, 0, 0, 0⟩
  cntsNew := ⟨0, 0, 0, 0, 0, 0, 0, 0⟩
  cmax := 0
  cnan := 0
  arr := ArrayUnit.reset
  ins := []
  outs := []
  pushes := []
  rels := []
  tbs := []
  tbjobs := []
  staging := []
  logs := []
  inject := []
  flips := []
  repcmd := 0
  repaired := 0
  nospare := false
  repairAt := none
  remaps := []
  faults := []
  qwaits := []

end Sys2Proof.Machine
end

