-- ==== Sys2Proof/Machine/State.lean ====
section
/-! DEFINITION. The machine's state: the chain of modules with all that the spec gives each of them, and the model's own
fields (the cycle, the open bundle, what is in flight). `State.reset` is the machine right after reset. -/

namespace Sys2Proof.Machine

/-- What an indivisible step other than a syllable acts on: a module, a unit of it, an entry or message, a value, and
further values where the step needs them. -/
structure Focus where
  m : Nat
  u : Nat
  j : Nat
  v : Nat
  data : List Nat
deriving DecidableEq, Repr

/-- Something that the outside world does in a given cycle. -/
structure Input where
  cycle : Nat
  instr : Instr
  focus : Focus
deriving DecidableEq, Repr

/-- One module. -/
structure Module where
  cells : Tab Cell
  io : IoDie
deriving DecidableEq, Repr

/-- One end of a cable: a module and a link of it. -/
structure Plug where
  m : Nat
  link : Nat
deriving DecidableEq, Repr

/-- What a flit, or a run of flits, on a wire carries (R307 to R309). -/
inductive FlitBody where
  | packet (lseq : BitVec 12) (msg vc flits : Nat) (last : Bool)
  | ack (lseq : BitVec 12) (credits : List Nat)
  | nak (lseq : BitVec 12)
  | time (hops : Nat) (cyc : BitVec 64) (head : Nat)
  | train (chip link : Nat)
  | isolate
  /-- A control flit of another CTYPE: IDLE, or a reserved one. -/
  | control (ctype : Nat)
deriving DecidableEq, Repr

/-- A flit on its way to one end of a link. -/
structure Flit where
  id : Nat
  due : Nat
  to' : Plug
  body : FlitBody
  /-- How many replays its sender had begun (R310). -/
  era : Nat
deriving DecidableEq, Repr

/-- The part of the cycle that the machine is in (R204): a numbered stage before or after the issue decisions; the issue
decision of a unit, by its place among the units; the opening of the bundle that a unit has chosen; the pacing buckets; the
end of the cycle. -/
inductive Phase where
  | stage (n : Nat)
  | issue (next : Nat)
  | open' (next : Nat) (b : Bundle)
  | refill
  | tick
deriving DecidableEq, Repr

/-- The chain. -/
structure State where
  cycle : Nat
  phase : Phase
  /-- Steps of the present stage that have not been looked at. -/
  todo : List (Instr × Focus)
  cur : Option Bundle
  last : BundleEnd
  focus : Focus
  mods : Tab Module
  inputs : List Input
  /-- The messages in flight, and the number of the next one. -/
  net : List Msg
  nextId : Nat
  /-- How the links of the chain are cabled, and the flits on the cables. -/
  cables : List (Plug × Plug)
  flits : List Flit
  /-- Counts the operations issued, by which landings and errors are ordered (R82, R234). -/
  seq : Nat
  /-- Counts the free values taken (log 6, DESIGN CHOICE). -/
  free : Nat
deriving DecidableEq, Repr

/-- What stops the machine with a fault. No rule of the spec stops the part as a whole. -/
inductive Fault where
  /-- Raised by `step` on a chain of no module, which is no machine of the spec. Safe: nothing is proved of a state
  after it. -/
  | emptyChain
deriving DecidableEq, Repr

/-- Why an instruction has no meaning in a state. -/
inductive Refusal where
  /-- The instruction has no meaning in this model yet. Safe. -/
  | notModelled (mnemonic : String)
  /-- A syllable was given to `exec` while no bundle is open; `step` opens the bundle first. Safe. -/
  | noOpenBundle
  /-- A step that is not a syllable was asked for while its condition does not hold. Safe. -/
  | eventNotDue (mnemonic : String)
deriving DecidableEq, Repr

/-- A focus on nothing. -/
def Focus.zero : Focus := ⟨0, 0, 0, 0, []⟩

/-- The module right after reset. -/
def Module.reset : Module where
  cells := []
  io := IoDie.reset

/-- The machine right after reset: a chain of one module, nothing in flight (log 2, DESIGN CHOICE). -/
def State.reset : State where
  cycle := 0
  phase := .stage 0
  todo := []
  cur := none
  last := .none
  focus := Focus.zero
  mods := [(0, Module.reset)]
  inputs := []
  net := []
  nextId := 0
  cables := []
  flits := []
  seq := 0
  free := 0

end Sys2Proof.Machine
end

