-- ==== Sys2Proof/Machine/Ops.lean ====
section
/-! DEFINITION. The named operations over tables, memory, cells and strands that every meaning uses. -/

namespace Sys2Proof.Machine

/-- The outcome of one instruction. -/
abbrev Out := Host.Outcome State Fault Refusal

/-- The entry of a table, or `d` where the table lists none. -/
def tget {α : Type} (d : α) : Tab α → Nat → α
  | [], _ => d
  | (j, x) :: r, k => if j = k then x else tget d r k

/-- The table with entry `k` replaced. -/
def tput {α : Type} : Tab α → Nat → α → Tab α
  | [], k, v => [(k, v)]
  | (j, x) :: r, k, v =>
    if j < k then (j, x) :: tput r k v
    else if j = k then (k, v) :: r
    else (k, v) :: (j, x) :: r

/-- The table without entry `k`. -/
def tdel {α : Type} (t : Tab α) (k : Nat) : Tab α := t.filter fun p => p.1 != k

/-- A list in the order of its keys; equal keys keep their order. -/
def insertBy {α : Type} (key : α → Nat) (x : α) : List α → List α
  | [] => [x]
  | y :: r => if key x < key y then x :: y :: r else y :: insertBy key x r

def sortBy {α : Type} (key : α → Nat) (l : List α) : List α := l.foldl (fun r x => insertBy key x r) []

/-! ### Memory: the bytes that are not 0, in rising order of their addresses -/

/-- The canonical form of a memory. -/
def memWf : List Host.Cell → Bool
  | [] => true
  | [(_, b)] => b != 0
  | (a, b) :: (a', b') :: r => b != 0 && decide (a < a') && memWf ((a', b') :: r)

/-- One byte of a memory; an address that is not listed reads 0 (log 3, DEDUCED). -/
def memByte : List Host.Cell → Nat → Byte
  | [], _ => 0
  | (j, x) :: r, a => if j = a then x else memByte r a

/-- `n` bytes from address `a` up. -/
def memBytes (mem : List Host.Cell) (a n : Nat) : List Byte :=
  let seg := mem.filter fun p => a ≤ p.1 && p.1 < a + n
  (List.range n).map fun i => memByte seg (a + i)

/-- The cells of a run of bytes that starts at address `a`, without the bytes that are 0. -/
def memRun : Nat → List Byte → List Host.Cell
  | _, [] => []
  | a, b :: r => if b = 0 then memRun (a + 1) r else (a, b) :: memRun (a + 1) r

/-- The memory with a run of bytes written from address `a` up. -/
def memWrite (mem : List Host.Cell) (a : Nat) (bytes : List Byte) : List Host.Cell :=
  mem.filter (fun p => p.1 < a) ++ memRun a bytes ++ mem.filter (fun p => a + bytes.length ≤ p.1)

/-- A number from bytes, the first the lowest (R6). -/
def leNat : List Byte → Nat
  | [] => 0
  | b :: r => b.toNat + 256 * leNat r

/-- The `n` bytes of a number, the lowest first (R6). -/
def leBytes : Nat → Nat → List Byte
  | 0, _ => []
  | n + 1, x => BitVec.ofNat 8 x :: leBytes n (x / 256)

/-- The word at address `a` of a memory. -/
def memWord (mem : List Host.Cell) (a : Nat) : Word := BitVec.ofNat 32 (leNat (memBytes mem a 4))

/-- A byte run split into 32-bit words. -/
def wordsOf (bytes : List Byte) : List Word :=
  match bytes with
  | b0 :: b1 :: b2 :: b3 :: r => BitVec.ofNat 32 (leNat [b0, b1, b2, b3]) :: wordsOf r
  | _ => []

/-- The bytes of a run of words. -/
def bytesOf (ws : List Word) : List Byte := ws.flatMap fun w => leBytes 4 w.toNat

/-! ### The chain's parts -/

/-- Unit number of the I/O die and of the host, beside the cells (0 to 1,023) and the Spire cores (1,024 to 1,031). -/
def ioUnit : Nat := 2048
def hostUnit : Nat := 2049

/-- Whether a unit number names a Spire core. -/
def isSpire (u : Nat) : Bool := 1024 ≤ u && u < 1032

/-- A module of the chain. -/
def State.mod (s : State) (m : Nat) : Module := tget Module.reset s.mods m

/-- A cell or Spire core of a module. -/
def State.cell (s : State) (m u : Nat) : Cell := tget (Cell.reset (isSpire u)) (s.mod m).cells u

/-- The chain with one module replaced. -/
def State.setMod (s : State) (m : Nat) (x : Module) : State := { s with mods := tput s.mods m x }

/-- The chain with one module changed. -/
def State.onMod (s : State) (m : Nat) (f : Module → Module) : State := s.setMod m (f (s.mod m))

/-- The chain with one cell replaced. -/
def State.setCell (s : State) (m u : Nat) (c : Cell) : State :=
  s.onMod m fun x => { x with cells := tput x.cells u c }

/-- The chain with one cell changed. -/
def State.onCell (s : State) (m u : Nat) (f : Cell → Cell) : State := s.setCell m u (f (s.cell m u))

/-- A strand of a cell. -/
def Cell.strand (c : Cell) (k : Nat) : Strand := c.strands.getD k Strand.reset

/-- The cell with one strand replaced. -/
def Cell.setStrand (c : Cell) (k : Nat) (x : Strand) : Cell := { c with strands := c.strands.setIfInBounds k x }

/-- The cell with one strand changed. -/
def Cell.onStrand (c : Cell) (k : Nat) (f : Strand → Strand) : Cell := c.setStrand k (f (c.strand k))

/-- A strand that runs nothing more: its registers keep their values until a record start (R341), what was in flight is
gone (log 8, DEDUCED). -/
def Strand.retire (st : Strand) (mode : StrandMode) : Strand :=
  { st with
    mode := mode
    sibling := false
    halted := false
    landing := []
    pend := []
    delivered := []
    errs := []
    yielded := none
    waiting := .none
    ready := false
    fbcWait := none }

/-- A strand of the chain. -/
def State.strand (s : State) (m u k : Nat) : Strand := (s.cell m u).strand k

/-- The chain with one strand changed. -/
def State.onStrand (s : State) (m u k : Nat) (f : Strand → Strand) : State :=
  s.onCell m u fun c => c.onStrand k f

/-- An entry of the record cache (R333). -/
def Cell.record (c : Cell) (e : Nat) : RecEntry := tget RecEntry.free c.recs e

/-- The cell with one record cache entry changed. -/
def Cell.onRecord (c : Cell) (e : Nat) (f : RecEntry → RecEntry) : Cell :=
  { c with recs := tput c.recs e (f (c.record e)) }

/-- A record id from its generation and entry (R333). -/
def recordId (gen : BitVec 12) (e : Nat) : BitVec 16 := BitVec.ofNat 16 (gen.toNat * 16 + e)

/-- One step of a sticky numerical counter: CountUp of R89. -/
def countUp (c : BitVec 16) : BitVec 16 := if c = 0xFFFF then c else c + 1

/-- The same, `n` times. -/
def countUpBy (c : BitVec 16) (n : Nat) : BitVec 16 := BitVec.ofNat 16 (min 0xFFFF (c.toNat + n))

/-- Counters of a cell grow, also in what the cycle has added (R400, R407). -/
def Cell.count (c : Cell) (f : Counters → Counters) : Cell := { c with cnts := f c.cnts, cntsNew := f c.cntsNew }

/-! ### Taking a trap, and returning from it (R169, R172) -/

/-- The first level's bank, or the second's. -/
def Strand.bank (st : Strand) (level : Nat) : TrapBank := if level = 1 then st.bank1 else st.bank2

def Strand.setBank (st : Strand) (level : Nat) (b : TrapBank) : Strand :=
  if level = 1 then { st with bank1 := b } else { st with bank2 := b }

/-- Trap entry from level n below 2: the bank of level n + 1 takes the cause, the value, the bundle's address, the
position, RRB and the taint; the landing queue becomes its replay entries; fetch goes to TVEC + 64 * cause after 2 idle
cycles (R169). -/
def Strand.enterTrap (st : Strand) (cycle : Nat) (pc : BitVec 15) (slot : Nat) (cause : BitVec 8) (val : Word) :
    Strand :=
  let level := st.tl.toNat + 1
  let bank : TrapBank :=
    { st.bank level with
      cause := cause
      val := val
      pc := pc
      rrb := st.rrb
      slot := BitVec.ofNat 3 slot
      taint := st.taint
      adv := false
      replay := st.landing.map fun l => { l with due := l.due - st.beat } }
  { st.setBank level bank with
    landing := []
    tl := st.tl + 1
    pc := BitVec.ofNat 15 (st.tvec.toNat * 64 + 64 * cause.toNat)
    idleUntil := cycle + 3
    waiting := .none }

/-- The return from level `level` to the one below (R172): the bank's replay entries are in flight again, a beat less far
where ADV is 1; RRB and the address are the bank's; 2 idle cycles. -/
def Strand.leaveTrap (st : Strand) (cycle level : Nat) : Strand :=
  let b := st.bank level
  let adv := if b.adv then 1 else 0
  { st.setBank level { b with replay := [] } with
    tl := BitVec.ofNat 2 (level - 1)
    rrb := b.rrb
    landing := b.replay.map fun l => { l with due := st.beat + l.due - adv }
    pc := b.pc
    idleUntil := cycle + 3 }

/-! ### Names of the machine's units -/

/-- The die of a cell, and its number within the die (R12). -/
def dieOf (u : Nat) : Nat := u / 256
def cellOf (u : Nat) : Nat := u % 256

end Sys2Proof.Machine
end

