-- ==== Sys2Proof/Machine/Tile.lean ====
section
/-! DEFINITION. Weight tiles, digit planes and the arithmetic of a pass (R46 to R58, R211 to R222). -/

namespace Sys2Proof.Machine

/-- The bytes of a tile's data by its wfmt (R211). -/
def tileBytes (fmt : Nat) : Nat := if fmt = 0 then 820 else if fmt = 1 then 2048 else 4096

/-- An element of a tile: the integer n of R52 with its exponent, or a NaN weight. -/
inductive Weight where
  | num (n : Int) (x : Int)
  | nan
deriving DecidableEq, Repr

/-- Trit `i` of a TRIT5 byte (R46). -/
def tritOf (b : Nat) (i : Nat) : Int := ((b / 3 ^ i % 3 : Nat) : Int) - 1

/-- A number of `n` bits as two's complement. -/
def signedNat (n x : Nat) : Int := if x < 2 ^ (n - 1) then x else (x : Int) - 2 ^ n

/-- Element `e` of a tile's data (R45, R46, R52, R211). -/
def weightOf (fmt : Nat) (data : List Byte) (e : Nat) : Weight :=
  let at' (i : Nat) : Nat := (data.getD i 0).toNat
  if fmt = 0 then .num (tritOf (at' (e / 5)) (e % 5)) 0
  else if fmt = 1 then .num (signedNat 4 (at' (e / 2) / 16 ^ (e % 2) % 16)) 0
  else if fmt = 2 then .num (signedNat 8 (at' e)) 0
  else
    let b := at' e
    let x := b / 8 % 16
    let m := b % 8
    let sign : Int := if b / 128 = 1 then -1 else 1
    if x = 15 ∧ m = 7 then .nan
    else if x = 0 then .num (sign * m) (-9)
    else .num (sign * (8 + m)) ((x : Int) - 10)

/-- The non-adjacent form of R51: the digits (negative, j) in ascending j. -/
def nonAdjacent : Nat → Int → Nat → List (Bool × Nat)
  | 0, _, _ => []
  | fuel + 1, n, j =>
    if n = 0 then []
    else if n % 2 = 0 then nonAdjacent fuel (n / 2) (j + 1)
    else
      let d : Int := 2 - n % 4
      (d < 0, j) :: nonAdjacent fuel ((n - d) / 2) (j + 1)

/-- A digit as it is stored (R54). -/
def digitBits (neg : Bool) (k : Nat) : BitVec 6 := BitVec.ofNat 6 (32 + (if neg then 16 else 0) + k)

/-- The value of a stored digit (R54). -/
def digitVal (d : BitVec 6) : Int :=
  if d.getLsbD 5 then (if d.getLsbD 4 then -1 else 1) * 2 ^ (d.toNat % 16) else 0

/-- An element's digits under the tile offset `x`; none when a shift above 15 flushes it (R53). -/
def elementDigits (x : Int) (w : Weight) : Option (List (BitVec 6)) :=
  match w with
  | .nan => some []
  | .num n xe =>
    let ds := nonAdjacent 12 n 0
    if ds.any fun d => (d.2 : Int) + xe - x > 15 then none
    else some (ds.map fun d => digitBits d.1 ((d.2 : Int) + xe - x).toNat)

/-- The lowest fault of a tile (R212): an ill-formed TRIT5 byte, or a scale word with upper bits. -/
def tileFault (fmt : Nat) (data : List Byte) (scales : List Word) : Option Nat :=
  match (if fmt = 0 then data.findIdx? fun b => 243 ≤ b.toNat else none) with
  | some i => some i
  | none => (scales.findIdx? fun w => w.toNat / 2 ^ 20 != 0).map fun j => 0x10000 + 4 * j

/-- What a wld makes of a tile: the bank's contents, and how many elements it flushed (R214). -/
def expandTile (fmt : Nat) (data : List Byte) (scales : List Word) (cols chk : Nat) : Bank × Nat :=
  let elems := (List.range 4096).map fun e => if e % 64 < cols then weightOf fmt data e else .num 0 0
  let exps := elems.filterMap fun w =>
    match w with
    | .num n x => if n = 0 then none else some x
    | .nan => none
  let x := exps.foldl min (exps.headD 0)
  let digits := elems.map fun w => elementDigits x w
  let kept := digits.map fun d => d.getD []
  let pass := max 1 (kept.foldl (fun m d => max m d.length) 0)
  let mirror := decide (cols ≤ 32) && (chk == 1 || chk == 3)
  let plane (p : Nat) : List (BitVec 6) :=
    let ds := kept.map fun d => d.getD p 0
    if mirror then (List.range 4096).map fun e => ds.getD (if e % 64 < 32 then e else e - 32) 0 else ds
  let nan := (List.range 64).filter fun j => (List.range 64).any fun i => elems.getD (64 * i + j) .nan == .nan
  ({ state := .ready, planes := (List.range pass).map plane, x := x, pass := pass, scales := scales, cols := cols,
     mirror := mirror, nanCols := nan, since := 0 },
   digits.countP fun d => d.isNone)

/-- How many NaN weights the loaded columns hold (R52). -/
def nanWeights (fmt : Nat) (data : List Byte) (cols : Nat) : Nat :=
  (List.range 4096).countP fun e => decide (e % 64 < cols) && weightOf fmt data e == .nan

/-- The exact partial of one column under a factor on the activations (R55). -/
def partialOf (planes : List (List (BitVec 6))) (acts : List Int) (factor : Int) (j : Nat) : Int :=
  planes.foldl
    (fun t plane => (List.range 64).foldl
      (fun t i => t + digitVal (plane.getD (64 * i + j) 0) * (factor * acts.getD i 0)) t) 0

/-- The check mode in force for a pass (R222): 0 OFF, 1 MIRROR, 2 SHIFT2. -/
def checkMode (chk : Nat) (mirror : Bool) (cols : Nat) : Nat :=
  if chk = 2 then 2 else if chk ≠ 0 ∧ mirror = true ∧ cols ≤ 32 then 1 else 0

/-- Whether the check of a row fails (R222). -/
def checkFails (b : Bank) (acts : List Int) (cols mode : Nat) : Bool :=
  (List.range cols).any fun j =>
    if mode = 1 then partialOf b.planes acts 1 j != partialOf b.planes acts 1 (j + 32)
    else if mode = 2 then partialOf b.planes acts 2 j != 2 * partialOf b.planes acts 1 j
    else false

/-! ### Scales (R48, R57, R58, R221) -/

def scaleZero (w : Word) : Bool := w.toNat / 2 ^ 12 == 0
def scaleNan (w : Word) : Bool := w.toNat / 2 ^ 20 != 0 || w.toNat / 2 ^ 12 % 256 == 255
def scaleMant (w : Word) : Nat := 4096 + w.toNat % 4096
def scaleExp (w : Word) : Int := ((w.toNat / 2 ^ 12 % 256 : Nat) : Int) - 139

/-- RNE(x * 2^e * s_a * s_w), the exact product rounded once. A NaN scale comes first, then a zero scale, which makes the block
zero whatever its data hold, then a NaN weight of the column (R48, R52, R57, R58) (log 32, DEDUCED). -/
def scaledValue (x : Int) (e : Int) (sa sw : Word) (nanCol : Bool) : Word :=
  if scaleNan sa || scaleNan sw then qnan
  else if scaleZero sa || scaleZero sw then 0
  else if nanCol then qnan
  else if x == 0 then 0
  else (roundF32 rmRNE false (x < 0) (x.natAbs * scaleMant sa * scaleMant sw) (e + scaleExp sa + scaleExp sw) false).1

/-- Sat48 of R56 with its count. -/
def sat48 (x : Int) : Int × Nat :=
  if x > 2 ^ 47 - 1 then (2 ^ 47 - 1, 1) else if x < -(2 ^ 47) then (-(2 ^ 47), 1) else (x, 0)

/-- One K-block added to an accumulator with its reference offset: C, and whether it was clamped (R56). -/
def accAdd (c xref s x : Int) : Int × Nat :=
  if x ≥ xref then sat48 (c + s * 2 ^ (x - xref).toNat) else sat48 (c * 2 ^ (xref - x).toNat + s)

/-- What adding one K-block to a row does: the row, the clamps and whether NAN_SCALE counts (R220, R221). In EXACT mode the
scales of block 0 alone are used, and one with E = 0 makes its partial 0 (R58) (log 32, DEDUCED). -/
def AccRow.add (row : AccRow) (scaled : Bool) (f : FlightRow) : AccRow × Nat × Bool :=
  let first := row.n = 0
  let nan := (if first then [] else row.nanCols) ++ f.nanCols
  let base : AccRow := if first then
      { row with scaled := scaled, sa := f.sa, ws := f.scales, loaded := f.loaded, xref := f.x } else row
  if scaled then
    let blocks := (List.range 64).map fun j =>
      scaledValue (f.s.getD j 0) f.x f.sa (f.scales.getD j 0) (f.nanCols.contains j)
    ({ base with
        n := row.n + 1
        nanCols := nan
        f := if first then blocks else (List.range 64).map fun j => fpAddRNE (row.f.getD j 0) (blocks.getD j 0) },
     0, scaleNan f.sa || (f.scales.take f.loaded).any scaleNan)
  else
    let sums := (List.range 64).map fun j =>
      if first then sat48 (if scaleZero f.sa || scaleZero (f.scales.getD j 0) then 0 else f.s.getD j 0)
      else accAdd (row.c.getD j 0) row.xref (f.s.getD j 0) f.x
    ({ base with
        n := row.n + 1
        nanCols := nan
        c := sums.map fun p => p.1
        xref := if first then f.x else min row.xref f.x },
     sums.foldl (fun n p => n + p.2) 0, false)

end Sys2Proof.Machine
end

