-- ==== Sys2Proof/Machine/Chain.lean ====
section
/-! DEFINITION. The result chain: the nodes, their port check and what they do to a row (R224 to R230). -/

namespace Sys2Proof.Machine

/-! ### Node fields (R224) -/

def Node.kind (n : Node) : Nat := n.word0.toNat / 2 ^ 28
def Node.mode (n : Node) : Nat := n.word0.toNat / 2 ^ 24 % 16
def Node.off (n : Node) : Nat := n.word0.toNat % 2 ^ 23

def kindDEQ : Nat := 1
def kindACCF : Nat := 2
def kindBIAS : Nat := 3
def kindACT : Nat := 4
def kindRES : Nat := 5
def kindQNT : Nat := 6
def kindSTAT : Nat := 7
def kindOUT : Nat := 8

/-- The formats that pass between nodes (R225). -/
inductive Port where
  | acc | f32 | q8 | e8 | ended
deriving DecidableEq, Repr

/-- The node's output for an input that it accepts (R225). -/
def Node.output (n : Node) (p : Port) : Option Port :=
  match n.kind with
  | 1 => if p = .acc then some .f32 else none
  | 2 => if p = .f32 then some .ended else none
  | 3 => if p = .f32 then some .f32 else none
  | 4 => if p = .f32 then some .f32 else none
  | 5 => if p = .f32 then some .f32 else none
  | 6 => if p = .f32 then some (if n.mode = 2 then .e8 else .q8) else none
  | 7 => if p = .acc ∨ p = .ended then none else some p
  | 8 => if p = .acc ∨ p = .ended then none else some .ended
  | _ => none

/-- The greatest MODE of a KIND. -/
def modeMax (kind : Nat) : Nat := if kind = kindACT then 3 else if kind = kindQNT then 2 else if kind = kindOUT then 1 else 0

/-- The node's fields lie in their values (R224, R229). -/
def Node.fieldsOk (n : Node) : Bool :=
  n.kind ≤ 8 && n.mode ≤ modeMax n.kind && !n.word0.getLsbD 23 &&
    (if n.kind = kindQNT ∧ n.mode = 1 then
      n.arg.toNat / 2 ^ 20 == 0 && 1 ≤ n.arg.toNat / 2 ^ 12 && n.arg.toNat / 2 ^ 12 ≤ 254
    else n.arg == 0) &&
    !((n.kind == kindACCF || n.kind == kindBIAS || n.kind == kindRES || (n.kind == kindACT && n.mode == 3)) &&
      n.off % 4 != 0)

/-- The node reads the D-store at drain. -/
def Node.reads (n : Node) : Bool := n.kind == kindRES || n.kind == kindACCF

/-- The first failing slot of a chain (R229): `slot` is the next one, `p` the format before it, `read` whether a node
before it reads the D-store at drain. -/
def chainFault : List Node → Nat → Port → Bool → Option Nat
  | [], slot, p, _ => if p = .ended then none else some (slot - 1)
  | n :: r, slot, p, read =>
    if !n.fieldsOk then some slot
    else if n.kind = 0 then (if p = .ended then chainFault r (slot + 1) p read else some slot)
    else
      match n.output p with
      | none => some slot
      | some q => if read && n.reads then some slot else chainFault r (slot + 1) q (read || n.reads)

/-- The node slots of a 64-byte descriptor image (R224). -/
def nodesOf (bytes : List Byte) : List Node :=
  let ws := wordsOf bytes
  (List.range 8).map fun i => ⟨ws.getD (2 * i) 0, ws.getD (2 * i + 1) 0⟩

/-- The nodes of a chain that act on a row. -/
def liveNodes (ns : List Node) : List Node := ns.filter fun n => n.kind != 0

def findKind (ns : List Node) (k : Nat) : Option Node := ns.find? fun n => n.kind == k

/-! ### The row as it passes through the nodes -/

/-- What the chain's counters and statistics gain (R225, R400, R401). -/
structure ChainCount where
  nanOut : Nat
  infOut : Nat
  cvtSat : Nat
  nanScale : Nat
  cmax : Word
  cnan : Nat
deriving DecidableEq, Repr

def ChainCount.zero : ChainCount := ⟨0, 0, 0, 0, 0, 0⟩

/-- A row between two nodes: FP32 lanes, or quantised bytes with their scale word. -/
structure ChainRow where
  lanes : List Word
  bytes : List Byte
  scale : Word
  count : ChainCount
deriving DecidableEq, Repr

def isNanWord (w : Word) : Bool := (f32Num false w).isNan

def isInfWord (w : Word) : Bool := w.toNat % 2 ^ 31 == 0x7F800000

/-- New lanes from a node; it counts only what it makes itself (R225). -/
def ChainRow.lanesTo (r : ChainRow) (new : List Word) : ChainRow :=
  let pairs := r.lanes.zip new
  { r with
    lanes := new
    count := { r.count with
      nanOut := r.count.nanOut + pairs.countP fun p => isNanWord p.2 && !isNanWord p.1
      infOut := r.count.infOut + pairs.countP fun p => isInfWord p.2 && !isInfWord p.1 && !isNanWord p.1 } }

/-- DEQ (R57, R58, R221, R225): columns at or beyond `cols` enter as +0. -/
def deqRow (row : AccRow) (cols : Nat) : ChainRow :=
  let lanes := (List.range 64).map fun j =>
    if j < cols then
      (if row.scaled then row.f.getD j 0
      else scaledValue (row.c.getD j 0) row.xref row.sa (row.ws.getD j 0) (row.nanCols.contains j))
    else 0
  { lanes := lanes, bytes := [], scale := 0
    count := { ChainCount.zero with
      nanOut := lanes.countP isNanWord
      infOut := lanes.countP isInfWord
      nanScale := if row.scaled then 0
        else if scaleNan row.sa || (row.ws.take row.loaded).any scaleNan then 1 else 0 } }

/-- floor(16 (x + 8)) clamped to 0 to 255 (R226); infinities clamp. -/
def actSegment (x : Word) : Nat :=
  match f32Num false x with
  | .nan _ => 0
  | .inf neg => if neg then 0 else 255
  | .fin neg m e =>
    let v : Int := if neg then -(m : Int) else m
    let scaled : Int := if e + 4 ≥ 0 then v * 2 ^ (e + 4).toNat else v.fdiv (2 ^ (-(e + 4)).toNat)
    min 255 (scaled + 128).toNat

/-- Entry k of a built-in table (R226). -/
def tableWord (t k : Nat) : Word := BitVec.ofNat 32 (t / 2 ^ (32 * k))

/-- m_k and c_k of an ACT node; a user table alternates them (R226). -/
def actEntry (mode : Nat) (user : List Word) (k : Nat) : Word × Word :=
  match mode with
  | 0 => (if k < 128 then 0 else 0x3F800000, 0)
  | 1 => (tableWord geluSlopes k, tableWord geluOffsets k)
  | 2 => (tableWord siluSlopes k, tableWord siluOffsets k)
  | _ => (user.getD (2 * k) 0, user.getD (2 * k + 1) 0)

/-- ACT of one lane (R226). -/
def actLane (mode : Nat) (user : List Word) (x : Word) : Word :=
  if isNanWord x then qnan
  else
    let e := actEntry mode user (actSegment x)
    (fpFma rmRNE false false e.2 e.1 x).1

/-- A magnitude divided by 127 and rounded up to a block scale (R49, R227): the word. -/
def blockScaleUp (mant : Nat) (exp : Int) (den : Nat) : Word :=
  if mant = 0 then 0
  else
    -- value = mant * 2^exp / den; the least (4096 + m) * 2^(e - 139) at or above it
    let top : Int := (Nat.log2 (mant * 2 ^ 64 / den) : Int) + exp - 64
    let q := top - 12
    let sh := exp - q
    let num := if sh ≥ 0 then mant * 2 ^ sh.toNat else mant
    let dd := if sh ≥ 0 then den else den * 2 ^ (-sh).toNat
    let m := (num + dd - 1) / dd
    let m' := if m ≥ 8192 then 4096 else m
    let q' := if m ≥ 8192 then q + 1 else q
    let e : Int := q' + 139
    if e < 1 then 0x1000
    else if e > 254 then 0xFF000
    else BitVec.ofNat 32 (e.toNat * 4096 + (m' - 4096))

/-- A finite number divided by a block scale and rounded to the nearest integer, ties to even. -/
def divScale (neg : Bool) (m : Nat) (e : Int) (s : Word) : Int :=
  let q := e - scaleExp s
  let num := if q ≥ 0 then m * 2 ^ q.toNat else m
  let den := if q ≥ 0 then scaleMant s else scaleMant s * 2 ^ (-q).toNat
  let i := num / den
  let r := num % den
  let v := if den < 2 * r ∨ (2 * r = den ∧ i % 2 = 1) then i + 1 else i
  if neg then -(v : Int) else v

def satInt8 (x : Int) : Int := max (-127) (min 127 x)

/-- QNT mode 0 (R227). -/
def qntDynamic (lanes : List Word) : List Byte × Word :=
  if lanes.any fun w => isNanWord w || isInfWord w then (List.replicate 64 0, 0x000FF000)
  else
    let mx := lanes.foldl (fun m w => max m (w.toNat % 2 ^ 31)) 0
    match f32Num false (BitVec.ofNat 32 mx) with
    | .fin _ m e =>
      if m = 0 then (List.replicate 64 0, 0)
      else
        let s := blockScaleUp m e 127
        (lanes.map fun w =>
          match f32Num false w with
          | .fin neg m e => BitVec.ofInt 8 (satInt8 (divScale neg m e s))
          | _ => 0, s)
    | _ => (List.replicate 64 0, 0x000FF000)

/-- QNT mode 1 of one lane (R227): the byte and whether it saturated. -/
def qntFixed (s : Word) (w : Word) : Byte × Bool :=
  match f32Num false w with
  | .nan _ => (0, false)
  | .inf neg => (BitVec.ofInt 8 (if neg then -127 else 127), true)
  | .fin neg m e =>
    let v := divScale neg m e s
    (BitVec.ofInt 8 (satInt8 v), v > 127 || v < -127)

/-- QNT (R227): `sat` is FPC.E4M3SAT of the strand at issue. A finite value that mode 2 turns into a NaN counts in CVT_SAT8
alone (log 32, DEDUCED). -/
def qntRow (n : Node) (sat : Bool) (r : ChainRow) : ChainRow :=
  if n.mode = 0 then
    let q := qntDynamic r.lanes
    { r with bytes := q.1, scale := q.2 }
  else if n.mode = 1 then
    let q := r.lanes.map (qntFixed n.arg)
    { r with bytes := q.map (fun p => p.1), scale := n.arg
             count := { r.count with cvtSat := r.count.cvtSat + q.countP fun p => p.2 } }
  else
    let q := r.lanes.map (fpToE4m3 false sat)
    { r with bytes := q.map (fun p => p.1)
             count := { r.count with cvtSat := r.count.cvtSat + q.countP fun p => p.2.2 } }

/-- The values that STAT sees (R225, R401): the lanes, or the quantised values as FP32. -/
def statLanes (before : List Node) (r : ChainRow) : List Word :=
  match findKind before kindQNT with
  | none => r.lanes
  | some q =>
    if q.mode = 2 then r.bytes.map fpOfE4m3
    else r.bytes.map fun b =>
      if scaleNan r.scale then qnan
      else if scaleZero r.scale then 0
      else (roundF32 rmRNE false (b.toInt < 0) (b.toInt.natAbs * scaleMant r.scale) (scaleExp r.scale) false).1

/-- The greater magnitude of two FP32 words that are not NaN. -/
def maxMag (a w : Word) : Word := if a.toNat < w.toNat % 2 ^ 31 then BitVec.ofNat 32 (w.toNat % 2 ^ 31) else a

/-- STAT (R401) (log 32, DEDUCED). -/
def statRow (before : List Node) (poisoned : Bool) (r : ChainRow) : ChainRow :=
  if poisoned then r
  else
    let xs := statLanes before r
    { r with count := { r.count with
        cmax := (xs.filter fun w => !isNanWord w).foldl maxMag r.count.cmax
        cnan := r.count.cnan + xs.countP isNanWord } }

/-- One node on a row (R225): `before` are the nodes before it, `par` is its own BIAS vector or user table, and `tile` the
row of the RES or ACCF tile. -/
def Node.apply (n : Node) (before : List Node) (par tile : List Word) (sat poisoned : Bool) (r : ChainRow) :
    ChainRow :=
  match n.kind with
  | 2 => r.lanesTo ((r.lanes.zip tile).map fun p => fpAddRNE p.2 p.1)
  | 3 => r.lanesTo ((r.lanes.zip par).map fun p => fpAddRNE p.1 p.2)
  | 4 => r.lanesTo (r.lanes.map (actLane n.mode par))
  | 5 => r.lanesTo ((r.lanes.zip tile).map fun p => fpAddRNE p.1 p.2)
  | 6 => qntRow n sat r
  | 7 => statRow before poisoned r
  | _ => r

/-- A row through the nodes after DEQ, each with its own parameters (R225, R226) (log 32, DEDUCED). -/
def runNodes (tile : List Word) (sat poisoned : Bool) : List Node → List Node → List (List Word) → ChainRow → ChainRow
  | _, [], _, r => r
  | before, n :: rest, pars, r =>
    runNodes tile sat poisoned (before ++ [n]) rest (pars.drop 1) (n.apply before (pars.headD []) tile sat poisoned r)

/-- A drained row (R225, R230): its bytes as they leave and what it counts; `pars` are the nodes' parameters. A poisoned row
leaves as R230 states, and NAN_OUT does not count its lanes; nor do INF_OUT and CVT_SAT8, whose values do not leave, while a
use of a NaN scale still counts (log 32, DEDUCED). -/
def drainRow (nodes : List Node) (row : AccRow) (pars : List (List Word)) (tile : List Word) (cols : Nat) (sat : Bool) :
    List Byte × ChainCount :=
  let r := runNodes tile sat row.poison [] nodes pars (deqRow row cols)
  let q := findKind nodes kindQNT
  let count := if row.poison then { r.count with nanOut := 0, infOut := 0, cvtSat := 0 } else r.count
  let out : List Byte :=
    match q with
    | none => bytesOf (if row.poison then List.replicate 64 qnan else r.lanes)
    | some n =>
      if n.mode = 2 then (if row.poison then List.replicate 64 0x7F else r.bytes)
      else
        let bytes := if row.poison then List.replicate 64 0 else r.bytes
        let scale : Word := if row.poison then 0x000FF000 else r.scale
        if n.mode = 0 then bytes ++ leBytes 4 scale.toNat else bytes
  (out, count)

/-- Bytes between the rows that a drain writes (R228). -/
def outStride (nodes : List Node) : Nat :=
  match findKind nodes kindQNT with
  | none => 256
  | some n => if n.mode = 0 then 128 else 64

/-- Bytes of a row as it leaves (R228). -/
def outSize (nodes : List Node) : Nat :=
  match findKind nodes kindQNT with
  | none => 256
  | some n => if n.mode = 0 then 68 else 64

/-- The row of the D-store tile that a node of the chain reads at drain (R225). -/
def tileNode (nodes : List Node) : Option Node := nodes.find? Node.reads

end Sys2Proof.Machine
end

