-- ==== Sys2Proof/Config.lean ====
section
/-! DEFINITION. What the spec leaves open, as values that nothing in the model can know: times of this run, choices of
order, measured quantities, fused values and digests (assumption log). -/

namespace Sys2Proof

/-- Extra cycles that a message on a relaxed channel takes inside a module, by its number (R19, R206)
(log 6, DESIGN CHOICE). -/
opaque Config.relaxedDelay : Nat → Nat

/-- Cycles that a flit takes from one end of a link to the other, by its number (R307, R413) (log 6, DESIGN CHOICE). -/
opaque Config.linkDelay : Nat → Nat

/-- OPC of a header flit for each of the transactions that R308 lists (log 6, DESIGN CHOICE). -/
opaque Config.opcode : Nat → BitVec 8

/-- Whether a flit fails its CRC, by its number (R310) (log 6, DESIGN CHOICE). -/
opaque Config.flitFails : Nat → Bool

/-- Cycles that a transfer between the part and the host takes, by its number (R322) (log 6, DESIGN CHOICE). -/
opaque Config.hostDelay : Nat → Nat

/-- Cycles that Spire firmware takes for the n-th thing it does (R413, R417 to R427) (log 6, DESIGN CHOICE). -/
opaque Config.firmwareDelay : Nat → Nat

/-- Whether system software has assigned a queue of a module to Spire firmware, whether firmware polls it in a given cycle,
and whether the home policy of a module approves an RA request, given its words, in a given cycle (R413) (log 51, DEDUCED).
-/
opaque Config.serves (m q : Nat) : Bool
opaque Config.polls (m q cycle : Nat) : Bool
opaque Config.raPolicy (m : Nat) (request : List Word) (cycle : Nat) : Bool

/-- The value that a scoreboarded register holds after the delivery that carried an error was raised (R84, R265)
(log 6, DESIGN CHOICE). -/
opaque Config.errorValue : Nat → Word

/-- The word that tjoin gives on a Spire core for two tokens that may be pending (R360, R378) (log 6, DESIGN CHOICE). -/
opaque Config.spireJoin : Nat → Word

/-- A byte of a context slot that the layout of R346 does not fix, by a free number (log 6, DESIGN CHOICE). -/
opaque Config.slotByte : Nat → Byte

/-- The syndrome that an error log records, by a free number; R382 does not fix the code (log 6, DESIGN CHOICE). -/
opaque Config.syndrome : Nat → BitVec 8

/-- What a word of the cell control registers reads to which no rule gives a content, by its cell offset (R179, R353)
(log 6, DESIGN CHOICE) (log 40, DESIGN CHOICE). -/
opaque Config.unnamedRegister : Nat → Word

/-- The feedback round trip of a channel that firmware measures, by a free number (R272) (log 6, DESIGN CHOICE). -/
opaque Config.roundTrip : Nat → Nat

/-- Cycles from a module's reset, in a given cycle, to the end of its I/O die's self-test (R415), and from RUN to the report
of the function with a given bit number of the ready bitmap (R419); none where the self-test fails (log 6, DESIGN CHOICE).
-/
opaque Config.selfTest (m cycle : Nat) : Option Nat
opaque Config.functionTest (m cycle f : Nat) : Option Nat

/-- The fused hash of the root key, by its 64 bytes, and the check of a Falcon-1024 signature of a digest under a public
key (R416, R417) (log 9, DESIGN CHOICE). -/
opaque Config.rootKeyHash : Nat → Byte
opaque Config.falconVerify (key signature digest : List Byte) : Bool

/-- The i-th byte of the Falcon-1024 signature of a digest by a module's identity key (R423) (log 9, DESIGN CHOICE)
(log 13, PRESUMED). -/
opaque Config.falconSign (m : Nat) (digest : List Byte) (i : Nat) : Byte

/-- What the body of a boot image holds, whose layout R416 does not give: the firmware's bytes, the SPLIT value of a port,
the chip id of a serial, and the address at which a Spire core starts firmware that is code of this instruction set
(log 13, PRESUMED). -/
opaque Config.firmware (body : List Byte) : List Byte
opaque Config.portSplit (body : List Byte) (p : Nat) : Fin 3
opaque Config.chipIdOf (body : List Byte) (serial : BitVec 64) : Option (BitVec 10)
opaque Config.spireEntry (body : List Byte) : Option (BitVec 15)

/-- What a section of matrix and chain descriptors holds, whose layout R420 does not give: for each word, whether it
belongs to a chain, the number of the set or chain, the field or node word, and the value (log 13, PRESUMED). -/
opaque Config.descriptors (bytes : List Byte) : List (Bool × Nat × Nat × Word)

/-- What Spire firmware writes at boot, or before the first bind of a placement, to a register by which fault entries and
vectors are enabled: module, unit (2,048 for the module's own registers) and offset (R331) (log 13, PRESUMED). -/
opaque Config.firmwareRegister (m u off : Nat) : Word

/-- The module's input power in mW, averaged over the 65,536 cycles that end in a given cycle (R414)
(log 6, DESIGN CHOICE) (log 45, DEDUCED). -/
opaque Config.power (m cycle : Nat) : Word

/-- A word of a context of which R346 fixes no place in its slot, by a free number (R424) (log 6, DESIGN CHOICE). -/
opaque Config.contextWord : Nat → Word

/-- The fused serial number of a module (R414) (log 9, DESIGN CHOICE). -/
opaque Config.serial : Nat → BitVec 64

end Sys2Proof
end

