-- ==== Sys2Proof/WellFormed.lean ====
section
/-! DEFINITION. What a syllable's fields may hold beyond the fixed bits of its row: register kinds (R63), values left
unassigned (R64, R74 to R79, R150, R158, R160, R236, R252). A syllable that fails its check raises ILLEGAL_OP. -/

namespace Sys2Proof

/-- The predicate names q0 to q7 (R63). -/
def isPred (r : BitVec 6) : Bool := r.toNat ≤ 7

/-- The handle names h0 to h15 in a 6-bit field (R63). -/
def isHandle (r : BitVec 6) : Bool := r.toNat ≤ 15

/-- The write modes: merge and zero (R78, R130). -/
def isMode (m : BitVec 2) : Bool := m.toNat ≤ 1

/-- A shift amount of an immediate form: 0 to 31 of the sign-extended immediate (R111). -/
def isShift (i : BitVec 11) : Bool := i.toNat ≤ 31

/-- A channel number, 0 to 15, in a 5-bit selector (R79). -/
def isChan (s : BitVec 5) : Bool := s.toNat ≤ 15

/-- The fixed bits of the 197 syllable rows: mask and value (spec/opcode_table.json). -/
def tableRows : List (Nat × Nat) :=
  [(0x7fffffff, 0x0), (0x7f80001f, 0x800000), (0x7f80001f, 0x1000000), (0x7f80001f, 0x1800000),
   (0x7f80001f, 0x2000000), (0x7f80001f, 0x2800000), (0x7f80001f, 0x3000000), (0x7f80001f, 0x3800000),
   (0x7f80001f, 0x4000000), (0x7f80001f, 0x4800000), (0x7f80001f, 0x5000000), (0x7f80001f, 0x5800000),
   (0x7f80001f, 0x6000000), (0x7f80001f, 0x6000001), (0x7f80001f, 0x6800000), (0x7f80001f, 0x6800001),
   (0x7f80001f, 0x7000000), (0x7f80001f, 0x7000001), (0x7f80001f, 0x7800000), (0x7f80001f, 0x7800001),
   (0x7f80001f, 0x8000000), (0x7f80001f, 0x8000001), (0x7f800000, 0x8800000), (0x7f80001f, 0x9000000),
   (0x7f8007ff, 0x9800000), (0x7f8007ff, 0xa000000), (0x7f800000, 0xa800000), (0x7f800000, 0xb000000),
   (0x7f800000, 0xb800000), (0x7f800000, 0xc000000), (0x7f800000, 0xc800000), (0x7f800000, 0xd000000),
   (0x7f800000, 0xd800000), (0x7f800000, 0xe000000), (0x7f800000, 0xe800000), (0x7f800000, 0xf000000),
   (0x7f800000, 0xf800000), (0x7f800000, 0x10000000), (0x7f800000, 0x10800000), (0x7f800000, 0x11000000)] ++
  [(0x7f800000, 0x11800000), (0x7f81f800, 0x12000000), (0x7ffe0000, 0x12800000), (0x7f81ffff, 0x13000000),
   (0x7f81f800, 0x13800000), (0x7f80001f, 0x14000000), (0x7f80001f, 0x14800000), (0x7f80001f, 0x15000000),
   (0x7f80001f, 0x15800000), (0x7f8007ff, 0x16000000), (0x7f8007ff, 0x16800000), (0x7f8007ff, 0x17000000),
   (0x7f8007ff, 0x17800000), (0x7f800000, 0x20000000), (0x7f800000, 0x20800000), (0x7f800000, 0x21000000),
   (0x7f800000, 0x21800000), (0x7f800000, 0x22000000), (0x7f800000, 0x22800000), (0x7f800000, 0x23000000),
   (0x7f800000, 0x23800000), (0x7f800000, 0x24000000), (0x7f800000, 0x24800000), (0x7f800000, 0x25000000),
   (0x7f800000, 0x25800000), (0x7f800000, 0x26000000), (0x7f800000, 0x26800000), (0x7f800000, 0x27000000),
   (0x7f80001f, 0x27800000), (0x7f81ffff, 0x28000000), (0x7f8007ff, 0x28800000), (0x7f800001, 0x29000000),
   (0x7f800001, 0x29800000), (0x7f800001, 0x2a000000), (0x7f800001, 0x2a800000), (0x7f800001, 0x2b000000),
   (0x7f800001, 0x2b800000), (0x7f800001, 0x2c000000), (0x7f800001, 0x2c800000), (0x7f800001, 0x2d000000)] ++
  [(0x7fffffe0, 0x2d800000), (0x7ffe0000, 0x30000000), (0x7f800000, 0x30800000), (0x7f800000, 0x31000000),
   (0x7f800000, 0x31800000), (0x7f800000, 0x32000000), (0x7ffe0000, 0x32800000), (0x7ffe07ff, 0x33000000),
   (0x7fffffff, 0x33800000), (0x7ffe07ff, 0x34000000), (0x7f800000, 0x34800000), (0x7f8007ff, 0x35000000),
   (0x7ffe07ff, 0x35800000), (0x7ffe0000, 0x36000000), (0x7ffe07ff, 0x36800000), (0x7f800000, 0x37000000),
   (0x7fffffff, 0x37800000), (0x7fffffff, 0x38000000), (0x7fffffff, 0x38800000), (0x7f800000, 0x39000000),
   (0x7f81f800, 0x39800000), (0x7ffe0000, 0x3a000000), (0x7f800400, 0x3a800000), (0x7f800400, 0x3b000000),
   (0x7f800000, 0x40000000), (0x7f800000, 0x40800000), (0x7f800000, 0x41000000), (0x7f800000, 0x41800000),
   (0x7f800000, 0x42000000), (0x7f800000, 0x42800000), (0x7f800000, 0x43000000), (0x7f800000, 0x43800000),
   (0x7f800000, 0x44000000), (0x7f800000, 0x44800000), (0x7f800000, 0x45000000), (0x7f800000, 0x45800000),
   (0x7f800000, 0x46000000), (0x7f800000, 0x46800000), (0x7f800000, 0x47000000), (0x7f800000, 0x47800000)] ++
  [(0x7f800000, 0x48000000), (0x7f800000, 0x48800000), (0x7f800000, 0x49000000), (0x7f800000, 0x49800000),
   (0x7f8007e0, 0x4a000000), (0x7f8007e0, 0x4a800000), (0x7f8007e0, 0x4b000000), (0x7f800000, 0x4b800000),
   (0x7f800000, 0x4c000000), (0x7f8007e0, 0x4c800000), (0x7f8007e0, 0x4d000000), (0x7f800000, 0x4d800000),
   (0x7f800000, 0x4e000000), (0x7f800000, 0x4e800000), (0x7f8007e0, 0x4f000000), (0x7f8007e0, 0x4f800000),
   (0x7f8007e0, 0x50000000), (0x7f8007e0, 0x50800000), (0x7f800780, 0x51000000), (0x7f800780, 0x51800000),
   (0x7f800780, 0x52000000), (0x7f800780, 0x52800000), (0x7f8007c0, 0x53000000), (0x7f8007c0, 0x53800000),
   (0x7f8007e0, 0x54000000), (0x7f8007e0, 0x54800000), (0x7f8007e0, 0x55000000), (0x7f8007e0, 0x55800000),
   (0x7f800000, 0x56000000), (0x7f800000, 0x56800000), (0x7f800000, 0x57000000), (0x7f800003, 0x57800000),
   (0x7f8007e0, 0x58000000), (0x7f8007e0, 0x58800000), (0x7f800000, 0x59000000), (0x7f80001f, 0x59800000),
   (0x7f81ff00, 0x5a000000), (0x7f8007ff, 0x5a800000), (0x7f81ffe0, 0x5b000000), (0x7f8007e0, 0x5b800000)] ++
  [(0x7f800000, 0x5c000000), (0x7ffe0400, 0x60000000), (0x7f81fc00, 0x60800000), (0x7f800000, 0x61000000),
   (0x7fffffc0, 0x61800000), (0x7f800000, 0x62000000), (0x7f81f800, 0x62800000), (0x7f81f800, 0x63000000),
   (0x7f800000, 0x63800000), (0x7f81f800, 0x64000000), (0x7f800000, 0x64800000), (0x7fffffff, 0x65000000),
   (0x7ffe0400, 0x70000000), (0x7f81fc00, 0x70800000), (0x7f800000, 0x71000000), (0x7f800000, 0x71800000),
   (0x7f800000, 0x72000000), (0x7f800000, 0x72800000), (0x7f81f800, 0x73000000), (0x7f800000, 0x73000000),
   (0x7f800000, 0x73800000), (0x7f800000, 0x74000000), (0x7f800000, 0x74800000), (0x7f800000, 0x75000000),
   (0x7f81ffc0, 0x75800000), (0x7f81ffff, 0x76000000), (0x7f8007c0, 0x76800000), (0x7f800000, 0x78000000),
   (0x7ffff800, 0x78800000), (0x7f81f83f, 0x79000000), (0x7f81f800, 0x79800000), (0x7f81f800, 0x7a000000),
   (0x7f800000, 0x7a800000), (0x7f80003f, 0x7b000000), (0x7f800000, 0x7b800000), (0x7f81f800, 0x7c000000),
   (0x7f800000, 0x7c800000)]

/-- No row of the table takes this word (R64: a reserved opcode, or a nonzero field that its row marks as zero). -/
def isReserved (w : Word) : Bool := tableRows.all fun r => w.toNat &&& r.1 != r.2

/-- The limits of R63, R64 and R74 to R79 on an instruction's fields. The rows that are not syllables have none. -/
def Instr.wellFormed : Instr → Bool
  | .nop _ => true
  | .add _ _ _ _ => true
  | .sub _ _ _ _ => true
  | .and _ _ _ _ => true
  | .or _ _ _ _ => true
  | .xor _ _ _ _ => true
  | .andn _ _ _ _ => true
  | .shl _ _ _ _ => true
  | .shr _ _ _ _ => true
  | .sra _ _ _ _ => true
  | .rot _ _ _ _ => true
  | .mul _ _ _ _ => true
  | .mulh _ _ _ _ => true
  | .mulhU _ _ _ _ => true
  | .div _ _ _ _ => true
  | .divU _ _ _ _ => true
  | .rem _ _ _ _ => true
  | .remU _ _ _ _ => true
  | .min _ _ _ _ => true
  | .minU _ _ _ _ => true
  | .max _ _ _ _ => true
  | .maxU _ _ _ _ => true
  | .cmp _ _ _ _ c => c.toNat ≤ 5
  | .cmov _ _ _ _ => true
  | .clz _ _ _ => true
  | .popc _ _ _ => true
  | .bext _ _ _ _ _ => true
  | .bins _ _ _ _ _ => true
  | .addi _ _ _ _ => true
  | .andi _ _ _ _ => true
  | .ori _ _ _ _ => true
  | .xori _ _ _ _ => true
  | .shli _ _ _ i => isShift i
  | .shri _ _ _ i => isShift i
  | .srai _ _ _ i => isShift i
  | .muli _ _ _ _ => true
  | .cmpeqi _ _ _ _ => true
  | .cmplti _ _ _ _ => true
  | .cmpltui _ _ _ _ => true
  | .li _ _ _ => true
  | .lih _ _ _ => true
  | .mfs _ _ n => n.toNat ≤ 11
  | .mts _ _ n => n.toNat ≤ 4 || n.toNat == 10
  | .rdcyc _ _ => true
  | .rdid _ _ n => n.toNat ≤ 5
  | .pand _ d a b => isPred d && isPred a && isPred b
  | .por _ d a b => isPred d && isPred a && isPred b
  | .pxor _ d a b => isPred d && isPred a && isPred b
  | .pandn _ d a b => isPred d && isPred a && isPred b
  | .pfs _ d _ => isPred d
  | .pts _ _ a => isPred a
  | .pcnt _ _ a => isPred a
  | .pfirst _ _ a => isPred a
  | .ldb _ _ _ _ _ => true
  | .ldbu _ _ _ _ _ => true
  | .ldh _ _ _ _ _ => true
  | .ldhu _ _ _ _ _ => true
  | .ldw _ _ _ _ _ => true
  | .stb _ _ _ _ _ => true
  | .sth _ _ _ _ _ => true
  | .stw _ _ _ _ _ => true
  | .vld _ _ _ _ _ _ => true
  | .vst _ _ _ _ _ _ => true
  | .vldb _ _ _ _ _ _ => true
  | .vgth _ _ _ _ _ _ => true
  | .vsct _ _ _ _ _ _ => true
  | .vlds _ _ _ a _ _ => a.toNat % 2 == 0
  | .vsts _ _ _ a _ _ => a.toNat % 2 == 0
  | .xlat _ d _ _ => isHandle d
  | .hinv _ d => isHandle d
  | .hchk _ _ a => isHandle a
  | .amoadd _ _ _ _ _ => true
  | .amoand _ _ _ _ _ => true
  | .amoor _ _ _ _ _ => true
  | .amoxor _ _ _ _ _ => true
  | .amomin _ _ _ _ _ => true
  | .amomax _ _ _ _ _ => true
  | .amoswp _ _ _ _ _ => true
  | .amocas _ _ _ _ _ => true
  | .amofadd _ _ _ _ _ => true
  | .fence _ k s => k.toNat ≤ 2 && s.toNat ≤ 4
  | .br _ _ => true
  | .bz _ _ _ => true
  | .bnz _ _ _ => true
  | .bqa _ c _ => isPred c
  | .bqn _ c _ => isPred c
  | .call _ _ => true
  | .jr _ _ => true
  | .loop _ => true
  | .wait _ _ => true
  | .spawn _ c _ => c.toNat ≤ 56
  | .bind _ _ _ => true
  | .unbind _ _ => true
  | .cancel _ _ l => l.toNat ≤ 3
  | .prio _ _ => true
  | .trap _ _ => true
  | .rtt _ => true
  | .halt _ => true
  | .yield _ => true
  | .ebrk _ _ => true
  | .mfc _ _ n => n.toNat ≤ 13
  | .mtc _ _ n => n.toNat ≤ 13
  | .qpush _ _ _ _ t => t.toNat != 0
  | .qpop _ _ _ _ t => t.toNat != 0
  | .vaddI _ _ _ _ _ m => isMode m
  | .vsubI _ _ _ _ _ m => isMode m
  | .vmulI _ _ _ _ _ m => isMode m
  | .vminI _ _ _ _ _ m => isMode m
  | .vmaxI _ _ _ _ _ m => isMode m
  | .vand _ _ _ _ _ m => isMode m
  | .vor _ _ _ _ _ m => isMode m
  | .vxor _ _ _ _ _ m => isMode m
  | .vshl _ _ _ _ _ m => isMode m
  | .vshr _ _ _ _ _ m => isMode m
  | .vsra _ _ _ _ _ m => isMode m
  | .vceqI _ d _ _ _ m => isPred d && isMode m
  | .vcltI _ d _ _ _ m => isPred d && isMode m
  | .vcltuI _ d _ _ _ m => isPred d && isMode m
  | .vaddF _ _ _ _ _ m => isMode m
  | .vsubF _ _ _ _ _ m => isMode m
  | .vmulF _ _ _ _ _ m => isMode m
  | .vfmaF _ _ _ _ _ m => isMode m
  | .vfmsF _ _ _ _ _ m => isMode m
  | .vdivF _ _ _ _ _ m => isMode m
  | .vsqrtF _ _ _ _ m => isMode m
  | .vrcpF _ _ _ _ m => isMode m
  | .vrsqF _ _ _ _ m => isMode m
  | .vminF _ _ _ _ _ m => isMode m
  | .vmaxF _ _ _ _ _ m => isMode m
  | .vabsF _ _ _ _ m => isMode m
  | .vnegF _ _ _ _ m => isMode m
  | .vceqF _ d _ _ _ m => isPred d && isMode m
  | .vcltF _ d _ _ _ m => isPred d && isMode m
  | .vcleF _ d _ _ _ m => isPred d && isMode m
  | .vexp2F _ _ _ _ m => isMode m
  | .vlog2F _ _ _ _ m => isMode m
  | .vcvtFI _ _ _ _ m => isMode m
  | .vcvtIF _ _ _ _ m => isMode m
  | .vpkE4m3 _ _ _ _ _ m => isMode m
  | .vupE4m3 _ _ _ _ _ m => isMode m
  | .vpkI8 _ _ _ _ _ m => isMode m
  | .vupI8 _ _ _ _ _ m => isMode m
  | .vpkBf16 _ _ _ _ _ m => isMode m
  | .vupBf16 _ _ _ _ _ m => isMode m
  | .vredaddF _ _ _ _ m => isMode m
  | .vredmaxF _ _ _ _ m => isMode m
  | .vredaddI _ _ _ _ m => isMode m
  | .vredmaxI _ _ _ _ m => isMode m
  | .vperm _ _ _ _ _ m => isMode m
  | .vbcast _ _ _ l _ m => l.toNat ≤ 31 && isMode m
  | .vslide _ _ _ n _ m => n.toNat != 32 && isMode m
  | .vsel _ _ _ _ _ => true
  | .vmov _ _ _ _ m => isMode m
  | .vxm _ _ _ _ m => isMode m
  | .vins _ _ _ _ _ m => isMode m
  | .vext _ _ _ _ => true
  | .vtag _ _ _ _ m => isMode m
  | .vgtag _ _ _ => true
  | .viota _ _ _ m => isMode m
  | .vsplat _ _ _ _ m => isMode m
  | .vbscl _ _ _ _ _ m => isMode m
  | .mset _ _ f _ => f.toNat ≤ 10
  | .mget _ _ f _ => f.toNat ≤ 10
  | .wld _ _ _ _ _ => true
  | .mswap _ _ => true
  | .mmul _ _ _ _ _ => true
  | .macc _ _ _ _ => true
  | .mdrain _ _ _ _ => true
  | .mchain _ _ _ s _ => s.toNat ≤ 7
  | .mchk _ _ _ _ => true
  | .mstat _ _ _ s t => s.toNat != 15 && t.toNat != 0
  | .mfence _ => true
  | .cset _ _ f _ => f.toNat ≤ 6
  | .cget _ _ f _ => f.toNat ≤ 6
  | .cpy _ _ _ _ _ => true
  | .cpyb _ _ _ _ _ => true
  | .rst _ _ _ _ _ _ => true
  | .rstc _ _ _ _ _ _ => true
  | .rld _ _ _ _ t => t.toNat != 0
  | .rldBlock _ _ b _ _ t => b.toNat != 0 && t.toNat != 0
  | .rfadd _ _ _ _ _ _ => true
  | .radd _ _ _ _ _ _ => true
  | .rmax _ _ _ _ _ _ => true
  | .rswp _ _ _ _ _ _ => true
  | .tchk _ _ t => t.toNat != 0
  | .twt _ _ => true
  | .tjoin _ _ _ t => t.toNat != 0
  | .spush _ _ _ s _ => isChan s
  | .spop _ s t => isChan s && t.toNat != 0
  | .srel _ _ s => isChan s
  | .sget _ _ _ _ t => t.toNat != 0
  | .sset _ _ _ _ t => t.toNat != 0
  | .mcast _ _ _ s _ => isChan s
  | .rctl _ _ _ s => isChan s
  | .tbinit _ _ _ _ _ => true
  | .tbarr _ _ _ _ => true
  | .tbwait _ _ _ _ _ => true
  | .reservedEncoding w => isReserved w
  | .resultLanding => true
  | .faultEntryAppend => true
  | .contextRestore => true
  | .recordStart => true
  | .recordEnd => true
  | .prioAging => true
  | .rbind => true
  | .wldExpansionStart => true
  | .wldComplete => true
  | .mswapFlip => true
  | .arrayRowAccumulate => true
  | .drainRow => true
  | .chainParametersRead => true
  | .copySectorPerform => true
  | .remoteStorePerform => true
  | .remoteReadPerform => true
  | .remoteAtomicPerform => true
  | .responseArrival => true
  | .errorResponse => true
  | .landedAck => true
  | .carriedRequestArrival => true
  | .held => true
  | .nack => true
  | .nackBackoffExpiry => true
  | .watch => true
  | .release => true
  | .busy => true
  | .watchRetryExpiry => true
  | .watchTimeout => true
  | .holdEntryPerform => true
  | .holdEntryExpiry => true
  | .query => true
  | .queryAnswer => true
  | .queryTimeout => true
  | .packetArrival => true
  | .creditArrival => true
  | .closeNotice => true
  | .deadNotice => true
  | .weightArrival => true
  | .controllerPeriodEnd => true
  | .pushComplete => true
  | .spopDelivery => true
  | .srelRelease => true
  | .ingressDoorbell => true
  | .ingressStageForward => true
  | .ingressEnable => true
  | .ingressDisable => true
  | .egressEnable => true
  | .egressDisable => true
  | .egressRelease => true
  | .egressPacketWrite => true
  | .openNotice => true
  | .queueNotify => true
  | .queueHeadWrite => true
  | .queueCommandPerform => true
  | .queueAnswer => true
  | .linkPacketReceive => true
  | .linkAck => true
  | .linkNak => true
  | .ackTimer => true
  | .trainingDone => true
  | .trainingFail => true
  | .laneFailure => true
  | .retrainDone => true
  | .retrainTimeout => true
  | .linkSilenceTimeout => true
  | .isolateFlit => true
  | .linkIsolate => true
  | .linkRetrain => true
  | .timeFlit => true
  | .timeFlitTimer => true
  | .platMaxClear => true
  | .routingWrite => true
  | .errorInject => true
  | .errorLogClear => true
  | .tbwaitTimeout => true
  | .counterClear => true
  | .bindNotice => true
  | .endNotice => true
  | .unitReport => true
  | .fireNotice => true
  | .cancelNotice => true
  | .unitWaitAnswer => true
  | .cycRead => true
  | .placementImage => true
  | .configAck => true
  | .configFailure => true
  | .startNotice => true
  | .moduleReset => true
  | .selfTestDone => true
  | .bootGo => true
  | .bootImageArrival => true
  | .bootVerifyDone => true
  | .functionReady => true
  | .checkpointSave => true
  | .checkpointRestore => true
  | .checkpointDone => true
  | .attestation => true
  | .attestationDone => true
  | .repairRow => true
  | .repairColumn => true
  | .repairDone => true
  | .powerCapCheck => true
  | .thermalThrottle => true
  | .thermalShutdown => true
  | .powerLoss => true
  | .stageMigration => true
  | .raRequestService => true
  | .migrationNoticeService => true
  | .registerWrite => true
  | .pacingBucketRefill => true
  | .unitClose => true
  | .contextSaveComplete => true

end Sys2Proof
end

