-- ==== Sys2Proof/Decode.lean ====
section
/-! DEFINITION. Decoding a syllable and encoding one, both from the encoding tables R74 to R79. A syllable whose opcode
is reserved, or whose zero-marked field is nonzero, decodes to `reservedEncoding` (R64); the limits on the values of a
field that has no fixed bits are checked by `Instr.wellFormed`. -/

namespace Sys2Proof

/-- Bits `lo + n - 1` down to `lo` of a syllable, as a number (R5). -/
def bits (w : Word) (lo n : Nat) : Nat := w.toNat / 2 ^ lo % 2 ^ n

/-- The same bits as a field of `n` bits. -/
def field (w : Word) (lo n : Nat) : BitVec n := BitVec.ofNat n (bits w lo n)

/-- The E bit of a syllable (R61). -/
def eBit (w : Word) : Bool := bits w 31 1 == 1

/-- The opcode of a syllable (R61). -/
def opcode (w : Word) : Nat := bits w 23 8

/-- Syllables of the scalar class, 0x00 to 0x3F (R74). -/
def decodeS (w : Word) : Instr :=
  match opcode w with
  | 0 => if bits w 0 23 = 0 then .nop (eBit w) else .reservedEncoding w
  | 1 => if bits w 0 5 = 0 then .add (eBit w) (field w 17 6) (field w 11 6) (field w 5 6) else .reservedEncoding w
  | 2 => if bits w 0 5 = 0 then .sub (eBit w) (field w 17 6) (field w 11 6) (field w 5 6) else .reservedEncoding w
  | 3 => if bits w 0 5 = 0 then .and (eBit w) (field w 17 6) (field w 11 6) (field w 5 6) else .reservedEncoding w
  | 4 => if bits w 0 5 = 0 then .or (eBit w) (field w 17 6) (field w 11 6) (field w 5 6) else .reservedEncoding w
  | 5 => if bits w 0 5 = 0 then .xor (eBit w) (field w 17 6) (field w 11 6) (field w 5 6) else .reservedEncoding w
  | 6 => if bits w 0 5 = 0 then .andn (eBit w) (field w 17 6) (field w 11 6) (field w 5 6) else .reservedEncoding w
  | 7 => if bits w 0 5 = 0 then .shl (eBit w) (field w 17 6) (field w 11 6) (field w 5 6) else .reservedEncoding w
  | 8 => if bits w 0 5 = 0 then .shr (eBit w) (field w 17 6) (field w 11 6) (field w 5 6) else .reservedEncoding w
  | 9 => if bits w 0 5 = 0 then .sra (eBit w) (field w 17 6) (field w 11 6) (field w 5 6) else .reservedEncoding w
  | 10 => if bits w 0 5 = 0 then .rot (eBit w) (field w 17 6) (field w 11 6) (field w 5 6) else .reservedEncoding w
  | 11 => if bits w 0 5 = 0 then .mul (eBit w) (field w 17 6) (field w 11 6) (field w 5 6) else .reservedEncoding w
  | 12 => if bits w 0 5 = 0 then .mulh (eBit w) (field w 17 6) (field w 11 6) (field w 5 6) else if bits w 0 5 = 1 then .mulhU (eBit w) (field w 17 6) (field w 11 6) (field w 5 6) else .reservedEncoding w
  | 13 => if bits w 0 5 = 0 then .div (eBit w) (field w 17 6) (field w 11 6) (field w 5 6) else if bits w 0 5 = 1 then .divU (eBit w) (field w 17 6) (field w 11 6) (field w 5 6) else .reservedEncoding w
  | 14 => if bits w 0 5 = 0 then .rem (eBit w) (field w 17 6) (field w 11 6) (field w 5 6) else if bits w 0 5 = 1 then .remU (eBit w) (field w 17 6) (field w 11 6) (field w 5 6) else .reservedEncoding w
  | 15 => if bits w 0 5 = 0 then .min (eBit w) (field w 17 6) (field w 11 6) (field w 5 6) else if bits w 0 5 = 1 then .minU (eBit w) (field w 17 6) (field w 11 6) (field w 5 6) else .reservedEncoding w
  | 16 => if bits w 0 5 = 0 then .max (eBit w) (field w 17 6) (field w 11 6) (field w 5 6) else if bits w 0 5 = 1 then .maxU (eBit w) (field w 17 6) (field w 11 6) (field w 5 6) else .reservedEncoding w
  | 17 => .cmp (eBit w) (field w 17 6) (field w 11 6) (field w 5 6) (field w 0 5)
  | 18 => if bits w 0 5 = 0 then .cmov (eBit w) (field w 17 6) (field w 11 6) (field w 5 6) else .reservedEncoding w
  | 19 => if bits w 0 11 = 0 then .clz (eBit w) (field w 17 6) (field w 11 6) else .reservedEncoding w
  | 20 => if bits w 0 11 = 0 then .popc (eBit w) (field w 17 6) (field w 11 6) else .reservedEncoding w
  | 21 => .bext (eBit w) (field w 17 6) (field w 11 6) (field w 5 6) (field w 0 5)
  | 22 => .bins (eBit w) (field w 17 6) (field w 11 6) (field w 5 6) (field w 0 5)
  | 23 => .addi (eBit w) (field w 17 6) (field w 11 6) (field w 0 11)
  | 24 => .andi (eBit w) (field w 17 6) (field w 11 6) (field w 0 11)
  | 25 => .ori (eBit w) (field w 17 6) (field w 11 6) (field w 0 11)
  | 26 => .xori (eBit w) (field w 17 6) (field w 11 6) (field w 0 11)
  | 27 => .shli (eBit w) (field w 17 6) (field w 11 6) (field w 0 11)
  | 28 => .shri (eBit w) (field w 17 6) (field w 11 6) (field w 0 11)
  | 29 => .srai (eBit w) (field w 17 6) (field w 11 6) (field w 0 11)
  | 30 => .muli (eBit w) (field w 17 6) (field w 11 6) (field w 0 11)
  | 31 => .cmpeqi (eBit w) (field w 17 6) (field w 11 6) (field w 0 11)
  | 32 => .cmplti (eBit w) (field w 17 6) (field w 11 6) (field w 0 11)
  | 33 => .cmpltui (eBit w) (field w 17 6) (field w 11 6) (field w 0 11)
  | 34 => .li (eBit w) (field w 17 6) (field w 0 17)
  | 35 => .lih (eBit w) (field w 17 6) (field w 0 17)
  | 36 => if bits w 11 6 = 0 then .mfs (eBit w) (field w 17 6) (field w 0 11) else .reservedEncoding w
  | 37 => if bits w 17 6 = 0 then .mts (eBit w) (field w 11 6) (field w 0 11) else .reservedEncoding w
  | 38 => if bits w 0 17 = 0 then .rdcyc (eBit w) (field w 17 6) else .reservedEncoding w
  | 39 => if bits w 11 6 = 0 then .rdid (eBit w) (field w 17 6) (field w 0 11) else .reservedEncoding w
  | 40 => if bits w 0 5 = 0 then .pand (eBit w) (field w 17 6) (field w 11 6) (field w 5 6) else .reservedEncoding w
  | 41 => if bits w 0 5 = 0 then .por (eBit w) (field w 17 6) (field w 11 6) (field w 5 6) else .reservedEncoding w
  | 42 => if bits w 0 5 = 0 then .pxor (eBit w) (field w 17 6) (field w 11 6) (field w 5 6) else .reservedEncoding w
  | 43 => if bits w 0 5 = 0 then .pandn (eBit w) (field w 17 6) (field w 11 6) (field w 5 6) else .reservedEncoding w
  | 44 => if bits w 0 11 = 0 then .pfs (eBit w) (field w 17 6) (field w 11 6) else .reservedEncoding w
  | 45 => if bits w 0 11 = 0 then .pts (eBit w) (field w 17 6) (field w 11 6) else .reservedEncoding w
  | 46 => if bits w 0 11 = 0 then .pcnt (eBit w) (field w 17 6) (field w 11 6) else .reservedEncoding w
  | 47 => if bits w 0 11 = 0 then .pfirst (eBit w) (field w 17 6) (field w 11 6) else .reservedEncoding w
  | _ => .reservedEncoding w

/-- Syllables of the memory class, 0x40 to 0x5F (R75). -/
def decodeM (w : Word) : Instr :=
  match opcode w with
  | 64 => .ldb (eBit w) (field w 17 6) (field w 13 4) (field w 7 6) (field w 0 7)
  | 65 => .ldbu (eBit w) (field w 17 6) (field w 13 4) (field w 7 6) (field w 0 7)
  | 66 => .ldh (eBit w) (field w 17 6) (field w 13 4) (field w 7 6) (field w 0 7)
  | 67 => .ldhu (eBit w) (field w 17 6) (field w 13 4) (field w 7 6) (field w 0 7)
  | 68 => .ldw (eBit w) (field w 17 6) (field w 13 4) (field w 7 6) (field w 0 7)
  | 69 => .stb (eBit w) (field w 17 6) (field w 13 4) (field w 7 6) (field w 0 7)
  | 70 => .sth (eBit w) (field w 17 6) (field w 13 4) (field w 7 6) (field w 0 7)
  | 71 => .stw (eBit w) (field w 17 6) (field w 13 4) (field w 7 6) (field w 0 7)
  | 72 => .vld (eBit w) (field w 17 6) (field w 13 4) (field w 7 6) (field w 4 3) (field w 0 4)
  | 73 => .vst (eBit w) (field w 17 6) (field w 13 4) (field w 7 6) (field w 4 3) (field w 0 4)
  | 74 => .vldb (eBit w) (field w 17 6) (field w 13 4) (field w 7 6) (field w 4 3) (field w 0 4)
  | 75 => .vgth (eBit w) (field w 17 6) (field w 13 4) (field w 7 6) (field w 4 3) (field w 0 4)
  | 76 => .vsct (eBit w) (field w 17 6) (field w 13 4) (field w 7 6) (field w 4 3) (field w 0 4)
  | 77 => .vlds (eBit w) (field w 17 6) (field w 13 4) (field w 7 6) (field w 4 3) (field w 0 4)
  | 78 => .vsts (eBit w) (field w 17 6) (field w 13 4) (field w 7 6) (field w 4 3) (field w 0 4)
  | 79 => if bits w 0 5 = 0 then .xlat (eBit w) (field w 17 6) (field w 11 6) (field w 5 6) else .reservedEncoding w
  | 80 => if bits w 0 17 = 0 then .hinv (eBit w) (field w 17 6) else .reservedEncoding w
  | 81 => if bits w 0 11 = 0 then .hchk (eBit w) (field w 17 6) (field w 11 6) else .reservedEncoding w
  | 82 => if bits w 0 1 = 0 then .amoadd (eBit w) (field w 17 6) (field w 13 4) (field w 7 6) (field w 1 6) else .reservedEncoding w
  | 83 => if bits w 0 1 = 0 then .amoand (eBit w) (field w 17 6) (field w 13 4) (field w 7 6) (field w 1 6) else .reservedEncoding w
  | 84 => if bits w 0 1 = 0 then .amoor (eBit w) (field w 17 6) (field w 13 4) (field w 7 6) (field w 1 6) else .reservedEncoding w
  | 85 => if bits w 0 1 = 0 then .amoxor (eBit w) (field w 17 6) (field w 13 4) (field w 7 6) (field w 1 6) else .reservedEncoding w
  | 86 => if bits w 0 1 = 0 then .amomin (eBit w) (field w 17 6) (field w 13 4) (field w 7 6) (field w 1 6) else .reservedEncoding w
  | 87 => if bits w 0 1 = 0 then .amomax (eBit w) (field w 17 6) (field w 13 4) (field w 7 6) (field w 1 6) else .reservedEncoding w
  | 88 => if bits w 0 1 = 0 then .amoswp (eBit w) (field w 17 6) (field w 13 4) (field w 7 6) (field w 1 6) else .reservedEncoding w
  | 89 => if bits w 0 1 = 0 then .amocas (eBit w) (field w 17 6) (field w 13 4) (field w 7 6) (field w 1 6) else .reservedEncoding w
  | 90 => if bits w 0 1 = 0 then .amofadd (eBit w) (field w 17 6) (field w 13 4) (field w 7 6) (field w 1 6) else .reservedEncoding w
  | 91 => if bits w 5 18 = 0 then .fence (eBit w) (field w 3 2) (field w 0 3) else .reservedEncoding w
  | _ => .reservedEncoding w

/-- Syllables of the control class with qpush and qpop, 0x60 to 0x7F (R76). -/
def decodeC (w : Word) : Instr :=
  match opcode w with
  | 96 => if bits w 17 6 = 0 then .br (eBit w) (field w 0 17) else .reservedEncoding w
  | 97 => .bz (eBit w) (field w 17 6) (field w 0 17)
  | 98 => .bnz (eBit w) (field w 17 6) (field w 0 17)
  | 99 => .bqa (eBit w) (field w 17 6) (field w 0 17)
  | 100 => .bqn (eBit w) (field w 17 6) (field w 0 17)
  | 101 => if bits w 17 6 = 0 then .call (eBit w) (field w 0 17) else .reservedEncoding w
  | 102 => if bits w 0 11 = 0 ∧ bits w 17 6 = 0 then .jr (eBit w) (field w 11 6) else .reservedEncoding w
  | 103 => if bits w 0 23 = 0 then .loop (eBit w) else .reservedEncoding w
  | 104 => if bits w 0 11 = 0 ∧ bits w 17 6 = 0 then .wait (eBit w) (field w 11 6) else .reservedEncoding w
  | 105 => .spawn (eBit w) (field w 17 6) (field w 0 17)
  | 106 => if bits w 0 11 = 0 then .bind (eBit w) (field w 17 6) (field w 11 6) else .reservedEncoding w
  | 107 => if bits w 0 11 = 0 ∧ bits w 17 6 = 0 then .unbind (eBit w) (field w 11 6) else .reservedEncoding w
  | 108 => if bits w 17 6 = 0 then .cancel (eBit w) (field w 11 6) (field w 0 11) else .reservedEncoding w
  | 109 => if bits w 0 11 = 0 ∧ bits w 17 6 = 0 then .prio (eBit w) (field w 11 6) else .reservedEncoding w
  | 110 => .trap (eBit w) (field w 0 23)
  | 111 => if bits w 0 23 = 0 then .rtt (eBit w) else .reservedEncoding w
  | 112 => if bits w 0 23 = 0 then .halt (eBit w) else .reservedEncoding w
  | 113 => if bits w 0 23 = 0 then .yield (eBit w) else .reservedEncoding w
  | 114 => .ebrk (eBit w) (field w 0 23)
  | 115 => if bits w 11 6 = 0 then .mfc (eBit w) (field w 17 6) (field w 0 11) else .reservedEncoding w
  | 116 => if bits w 17 6 = 0 then .mtc (eBit w) (field w 11 6) (field w 0 11) else .reservedEncoding w
  | 117 => if bits w 10 1 = 0 then .qpush (eBit w) (field w 17 6) (field w 11 6) (field w 6 4) (field w 0 6) else .reservedEncoding w
  | 118 => if bits w 10 1 = 0 then .qpop (eBit w) (field w 17 6) (field w 11 6) (field w 6 4) (field w 0 6) else .reservedEncoding w
  | _ => .reservedEncoding w

/-- Syllables of the vector class, 0x80 to 0xBF (R78). -/
def decodeV (w : Word) : Instr :=
  match opcode w with
  | 128 => .vaddI (eBit w) (field w 17 6) (field w 11 6) (field w 5 6) (field w 2 3) (field w 0 2)
  | 129 => .vsubI (eBit w) (field w 17 6) (field w 11 6) (field w 5 6) (field w 2 3) (field w 0 2)
  | 130 => .vmulI (eBit w) (field w 17 6) (field w 11 6) (field w 5 6) (field w 2 3) (field w 0 2)
  | 131 => .vminI (eBit w) (field w 17 6) (field w 11 6) (field w 5 6) (field w 2 3) (field w 0 2)
  | 132 => .vmaxI (eBit w) (field w 17 6) (field w 11 6) (field w 5 6) (field w 2 3) (field w 0 2)
  | 133 => .vand (eBit w) (field w 17 6) (field w 11 6) (field w 5 6) (field w 2 3) (field w 0 2)
  | 134 => .vor (eBit w) (field w 17 6) (field w 11 6) (field w 5 6) (field w 2 3) (field w 0 2)
  | 135 => .vxor (eBit w) (field w 17 6) (field w 11 6) (field w 5 6) (field w 2 3) (field w 0 2)
  | 136 => .vshl (eBit w) (field w 17 6) (field w 11 6) (field w 5 6) (field w 2 3) (field w 0 2)
  | 137 => .vshr (eBit w) (field w 17 6) (field w 11 6) (field w 5 6) (field w 2 3) (field w 0 2)
  | 138 => .vsra (eBit w) (field w 17 6) (field w 11 6) (field w 5 6) (field w 2 3) (field w 0 2)
  | 139 => .vceqI (eBit w) (field w 17 6) (field w 11 6) (field w 5 6) (field w 2 3) (field w 0 2)
  | 140 => .vcltI (eBit w) (field w 17 6) (field w 11 6) (field w 5 6) (field w 2 3) (field w 0 2)
  | 141 => .vcltuI (eBit w) (field w 17 6) (field w 11 6) (field w 5 6) (field w 2 3) (field w 0 2)
  | 142 => .vaddF (eBit w) (field w 17 6) (field w 11 6) (field w 5 6) (field w 2 3) (field w 0 2)
  | 143 => .vsubF (eBit w) (field w 17 6) (field w 11 6) (field w 5 6) (field w 2 3) (field w 0 2)
  | 144 => .vmulF (eBit w) (field w 17 6) (field w 11 6) (field w 5 6) (field w 2 3) (field w 0 2)
  | 145 => .vfmaF (eBit w) (field w 17 6) (field w 11 6) (field w 5 6) (field w 2 3) (field w 0 2)
  | 146 => .vfmsF (eBit w) (field w 17 6) (field w 11 6) (field w 5 6) (field w 2 3) (field w 0 2)
  | 147 => .vdivF (eBit w) (field w 17 6) (field w 11 6) (field w 5 6) (field w 2 3) (field w 0 2)
  | 148 => if bits w 5 6 = 0 then .vsqrtF (eBit w) (field w 17 6) (field w 11 6) (field w 2 3) (field w 0 2) else .reservedEncoding w
  | 149 => if bits w 5 6 = 0 then .vrcpF (eBit w) (field w 17 6) (field w 11 6) (field w 2 3) (field w 0 2) else .reservedEncoding w
  | 150 => if bits w 5 6 = 0 then .vrsqF (eBit w) (field w 17 6) (field w 11 6) (field w 2 3) (field w 0 2) else .reservedEncoding w
  | 151 => .vminF (eBit w) (field w 17 6) (field w 11 6) (field w 5 6) (field w 2 3) (field w 0 2)
  | 152 => .vmaxF (eBit w) (field w 17 6) (field w 11 6) (field w 5 6) (field w 2 3) (field w 0 2)
  | 153 => if bits w 5 6 = 0 then .vabsF (eBit w) (field w 17 6) (field w 11 6) (field w 2 3) (field w 0 2) else .reservedEncoding w
  | 154 => if bits w 5 6 = 0 then .vnegF (eBit w) (field w 17 6) (field w 11 6) (field w 2 3) (field w 0 2) else .reservedEncoding w
  | 155 => .vceqF (eBit w) (field w 17 6) (field w 11 6) (field w 5 6) (field w 2 3) (field w 0 2)
  | 156 => .vcltF (eBit w) (field w 17 6) (field w 11 6) (field w 5 6) (field w 2 3) (field w 0 2)
  | 157 => .vcleF (eBit w) (field w 17 6) (field w 11 6) (field w 5 6) (field w 2 3) (field w 0 2)
  | 158 => if bits w 5 6 = 0 then .vexp2F (eBit w) (field w 17 6) (field w 11 6) (field w 2 3) (field w 0 2) else .reservedEncoding w
  | 159 => if bits w 5 6 = 0 then .vlog2F (eBit w) (field w 17 6) (field w 11 6) (field w 2 3) (field w 0 2) else .reservedEncoding w
  | 160 => if bits w 5 6 = 0 then .vcvtFI (eBit w) (field w 17 6) (field w 11 6) (field w 2 3) (field w 0 2) else .reservedEncoding w
  | 161 => if bits w 5 6 = 0 then .vcvtIF (eBit w) (field w 17 6) (field w 11 6) (field w 2 3) (field w 0 2) else .reservedEncoding w
  | 162 => if bits w 7 4 = 0 then .vpkE4m3 (eBit w) (field w 17 6) (field w 11 6) (field w 5 2) (field w 2 3) (field w 0 2) else .reservedEncoding w
  | 163 => if bits w 7 4 = 0 then .vupE4m3 (eBit w) (field w 17 6) (field w 11 6) (field w 5 2) (field w 2 3) (field w 0 2) else .reservedEncoding w
  | 164 => if bits w 7 4 = 0 then .vpkI8 (eBit w) (field w 17 6) (field w 11 6) (field w 5 2) (field w 2 3) (field w 0 2) else .reservedEncoding w
  | 165 => if bits w 7 4 = 0 then .vupI8 (eBit w) (field w 17 6) (field w 11 6) (field w 5 2) (field w 2 3) (field w 0 2) else .reservedEncoding w
  | 166 => if bits w 6 5 = 0 then .vpkBf16 (eBit w) (field w 17 6) (field w 11 6) (field w 5 1) (field w 2 3) (field w 0 2) else .reservedEncoding w
  | 167 => if bits w 6 5 = 0 then .vupBf16 (eBit w) (field w 17 6) (field w 11 6) (field w 5 1) (field w 2 3) (field w 0 2) else .reservedEncoding w
  | 168 => if bits w 5 6 = 0 then .vredaddF (eBit w) (field w 17 6) (field w 11 6) (field w 2 3) (field w 0 2) else .reservedEncoding w
  | 169 => if bits w 5 6 = 0 then .vredmaxF (eBit w) (field w 17 6) (field w 11 6) (field w 2 3) (field w 0 2) else .reservedEncoding w
  | 170 => if bits w 5 6 = 0 then .vredaddI (eBit w) (field w 17 6) (field w 11 6) (field w 2 3) (field w 0 2) else .reservedEncoding w
  | 171 => if bits w 5 6 = 0 then .vredmaxI (eBit w) (field w 17 6) (field w 11 6) (field w 2 3) (field w 0 2) else .reservedEncoding w
  | 172 => .vperm (eBit w) (field w 17 6) (field w 11 6) (field w 5 6) (field w 2 3) (field w 0 2)
  | 173 => .vbcast (eBit w) (field w 17 6) (field w 11 6) (field w 5 6) (field w 2 3) (field w 0 2)
  | 174 => .vslide (eBit w) (field w 17 6) (field w 11 6) (field w 5 6) (field w 2 3) (field w 0 2)
  | 175 => if bits w 0 2 = 0 then .vsel (eBit w) (field w 17 6) (field w 11 6) (field w 5 6) (field w 2 3) else .reservedEncoding w
  | 176 => if bits w 5 6 = 0 then .vmov (eBit w) (field w 17 6) (field w 11 6) (field w 2 3) (field w 0 2) else .reservedEncoding w
  | 177 => if bits w 5 6 = 0 then .vxm (eBit w) (field w 17 6) (field w 11 6) (field w 2 3) (field w 0 2) else .reservedEncoding w
  | 178 => .vins (eBit w) (field w 17 6) (field w 11 6) (field w 5 6) (field w 2 3) (field w 0 2)
  | 179 => if bits w 0 5 = 0 then .vext (eBit w) (field w 17 6) (field w 11 6) (field w 5 6) else .reservedEncoding w
  | 180 => if bits w 8 9 = 0 then .vtag (eBit w) (field w 17 6) (field w 5 3) (field w 2 3) (field w 0 2) else .reservedEncoding w
  | 181 => if bits w 0 11 = 0 then .vgtag (eBit w) (field w 17 6) (field w 11 6) else .reservedEncoding w
  | 182 => if bits w 5 12 = 0 then .viota (eBit w) (field w 17 6) (field w 2 3) (field w 0 2) else .reservedEncoding w
  | 183 => if bits w 5 6 = 0 then .vsplat (eBit w) (field w 17 6) (field w 11 6) (field w 2 3) (field w 0 2) else .reservedEncoding w
  | 184 => .vbscl (eBit w) (field w 17 6) (field w 11 6) (field w 5 6) (field w 2 3) (field w 0 2)
  | _ => .reservedEncoding w

/-- Syllables of the engine class, 0xC0 to 0xFF (R79). -/
def decodeE (w : Word) : Instr :=
  match opcode w with
  | 192 => if bits w 10 1 = 0 ∧ bits w 17 6 = 0 then .mset (eBit w) (field w 11 6) (field w 5 5) (field w 0 5) else .reservedEncoding w
  | 193 => if bits w 10 7 = 0 then .mget (eBit w) (field w 17 6) (field w 5 5) (field w 0 5) else .reservedEncoding w
  | 194 => .wld (eBit w) (field w 17 6) (field w 11 6) (field w 6 5) (field w 0 6)
  | 195 => if bits w 6 17 = 0 then .mswap (eBit w) (field w 0 6) else .reservedEncoding w
  | 196 => .mmul (eBit w) (field w 17 6) (field w 11 6) (field w 6 5) (field w 0 6)
  | 197 => if bits w 11 6 = 0 then .macc (eBit w) (field w 17 6) (field w 6 5) (field w 0 6) else .reservedEncoding w
  | 198 => if bits w 11 6 = 0 then .mdrain (eBit w) (field w 17 6) (field w 6 5) (field w 0 6) else .reservedEncoding w
  | 199 => .mchain (eBit w) (field w 17 6) (field w 11 6) (field w 6 5) (field w 0 6)
  | 200 => if bits w 11 6 = 0 then .mchk (eBit w) (field w 17 6) (field w 6 5) (field w 0 6) else .reservedEncoding w
  | 201 => .mstat (eBit w) (field w 17 6) (field w 11 6) (field w 6 5) (field w 0 6)
  | 202 => if bits w 0 23 = 0 then .mfence (eBit w) else .reservedEncoding w
  | 224 => if bits w 10 1 = 0 ∧ bits w 17 6 = 0 then .cset (eBit w) (field w 11 6) (field w 5 5) (field w 0 5) else .reservedEncoding w
  | 225 => if bits w 10 7 = 0 then .cget (eBit w) (field w 17 6) (field w 5 5) (field w 0 5) else .reservedEncoding w
  | 226 => .cpy (eBit w) (field w 17 6) (field w 11 6) (field w 6 5) (field w 0 6)
  | 227 => .cpyb (eBit w) (field w 17 6) (field w 11 6) (field w 6 5) (field w 0 6)
  | 228 => .rst (eBit w) (field w 17 6) (field w 11 6) (field w 10 1) (field w 6 4) (field w 0 6)
  | 229 => .rstc (eBit w) (field w 17 6) (field w 11 6) (field w 10 1) (field w 6 4) (field w 0 6)
  | 230 => if bits w 11 6 = 0 then .rld (eBit w) (field w 17 6) (field w 10 1) (field w 6 4) (field w 0 6) else .rldBlock (eBit w) (field w 17 6) (field w 11 6) (field w 10 1) (field w 6 4) (field w 0 6)
  | 231 => .rfadd (eBit w) (field w 17 6) (field w 11 6) (field w 10 1) (field w 6 4) (field w 0 6)
  | 232 => .radd (eBit w) (field w 17 6) (field w 11 6) (field w 10 1) (field w 6 4) (field w 0 6)
  | 233 => .rmax (eBit w) (field w 17 6) (field w 11 6) (field w 10 1) (field w 6 4) (field w 0 6)
  | 234 => .rswp (eBit w) (field w 17 6) (field w 11 6) (field w 10 1) (field w 6 4) (field w 0 6)
  | 235 => if bits w 6 11 = 0 then .tchk (eBit w) (field w 17 6) (field w 0 6) else .reservedEncoding w
  | 236 => if bits w 0 17 = 0 then .twt (eBit w) (field w 17 6) else .reservedEncoding w
  | 237 => if bits w 6 5 = 0 then .tjoin (eBit w) (field w 17 6) (field w 11 6) (field w 0 6) else .reservedEncoding w
  | 240 => .spush (eBit w) (field w 17 6) (field w 11 6) (field w 6 5) (field w 0 6)
  | 241 => if bits w 11 12 = 0 then .spop (eBit w) (field w 6 5) (field w 0 6) else .reservedEncoding w
  | 242 => if bits w 0 6 = 0 ∧ bits w 11 6 = 0 then .srel (eBit w) (field w 17 6) (field w 6 5) else .reservedEncoding w
  | 243 => if bits w 11 6 = 0 then .sget (eBit w) (field w 17 6) (field w 10 1) (field w 6 4) (field w 0 6) else .reservedEncoding w
  | 244 => if bits w 11 6 = 0 then .sset (eBit w) (field w 17 6) (field w 10 1) (field w 6 4) (field w 0 6) else .reservedEncoding w
  | 245 => .mcast (eBit w) (field w 17 6) (field w 11 6) (field w 6 5) (field w 0 6)
  | 246 => if bits w 0 6 = 0 then .rctl (eBit w) (field w 17 6) (field w 11 6) (field w 6 5) else .reservedEncoding w
  | 247 => .tbinit (eBit w) (field w 17 6) (field w 11 6) (field w 6 5) (field w 0 6)
  | 248 => if bits w 11 6 = 0 then .tbarr (eBit w) (field w 17 6) (field w 6 5) (field w 0 6) else .reservedEncoding w
  | 249 => .tbwait (eBit w) (field w 17 6) (field w 11 6) (field w 6 5) (field w 0 6)
  | _ => .reservedEncoding w

/-- The instruction that a syllable stands for; total on all words. -/
def decode (w : Word) : Instr :=
  if opcode w < 0x40 then decodeS w
  else if opcode w < 0x60 then decodeM w
  else if opcode w < 0x80 then decodeC w
  else if opcode w < 0xC0 then decodeV w
  else decodeE w


/-- Format RRR (R62): the operand fields in their places. -/
def fmtRrr (d a b x : Nat) : Nat :=
  d * 2 ^ 17 + a * 2 ^ 11 + b * 2 ^ 5 + x

/-- Format RRI (R62): the operand fields in their places. -/
def fmtRri (d a i : Nat) : Nat :=
  d * 2 ^ 17 + a * 2 ^ 11 + i

/-- Formats RI and BR (R62): the operand fields in their places. -/
def fmtRi (d i : Nat) : Nat :=
  d * 2 ^ 17 + i

/-- Format MS (R62): the operand fields in their places. -/
def fmtMs (d h a i : Nat) : Nat :=
  d * 2 ^ 17 + h * 2 ^ 13 + a * 2 ^ 7 + i

/-- Format MV (R62): the operand fields in their places. -/
def fmtMv (d h a t i : Nat) : Nat :=
  d * 2 ^ 17 + h * 2 ^ 13 + a * 2 ^ 7 + t * 2 ^ 4 + i

/-- Format AT (R62): the operand fields in their places. -/
def fmtAt (d h a b : Nat) : Nat :=
  d * 2 ^ 17 + h * 2 ^ 13 + a * 2 ^ 7 + b * 2 ^ 1

/-- Format VV (R62): the operand fields in their places. -/
def fmtVv (d a b q m : Nat) : Nat :=
  d * 2 ^ 17 + a * 2 ^ 11 + b * 2 ^ 5 + q * 2 ^ 2 + m

/-- Format EN (R62): the operand fields in their places. -/
def fmtEn (a b s t : Nat) : Nat :=
  a * 2 ^ 17 + b * 2 ^ 11 + s * 2 ^ 6 + t

/-- Format EN with sel as a relaxed or direction bit and a number (R62): the operand fields in their places. -/
def fmtEnh (a b r h t : Nat) : Nat :=
  a * 2 ^ 17 + b * 2 ^ 11 + r * 2 ^ 10 + h * 2 ^ 6 + t

/-- Format RRI with a descriptor set and field number (R62): the operand fields in their places. -/
def fmtRrf (d a f n : Nat) : Nat :=
  d * 2 ^ 17 + a * 2 ^ 11 + f * 2 ^ 5 + n

/-- A syllable from its E bit, its opcode and its operand fields already in place (R61). -/
def syllable (e : Bool) (op fields : Nat) : Word :=
  BitVec.ofNat 32 (e.toNat * 2 ^ 31 + op * 2 ^ 23 + fields)

/-- The word of a syllable, from the tables R74 to R79; the rows that are not syllables have none and give 0. -/
def encode : Instr → Word
  | .nop e => syllable e 0x0 0
  | .add e d a b => syllable e 0x1 (fmtRrr d.toNat a.toNat b.toNat 0)
  | .sub e d a b => syllable e 0x2 (fmtRrr d.toNat a.toNat b.toNat 0)
  | .and e d a b => syllable e 0x3 (fmtRrr d.toNat a.toNat b.toNat 0)
  | .or e d a b => syllable e 0x4 (fmtRrr d.toNat a.toNat b.toNat 0)
  | .xor e d a b => syllable e 0x5 (fmtRrr d.toNat a.toNat b.toNat 0)
  | .andn e d a b => syllable e 0x6 (fmtRrr d.toNat a.toNat b.toNat 0)
  | .shl e d a b => syllable e 0x7 (fmtRrr d.toNat a.toNat b.toNat 0)
  | .shr e d a b => syllable e 0x8 (fmtRrr d.toNat a.toNat b.toNat 0)
  | .sra e d a b => syllable e 0x9 (fmtRrr d.toNat a.toNat b.toNat 0)
  | .rot e d a b => syllable e 0xa (fmtRrr d.toNat a.toNat b.toNat 0)
  | .mul e d a b => syllable e 0xb (fmtRrr d.toNat a.toNat b.toNat 0)
  | .mulh e d a b => syllable e 0xc (fmtRrr d.toNat a.toNat b.toNat 0)
  | .mulhU e d a b => syllable e 0xc (fmtRrr d.toNat a.toNat b.toNat 1)
  | .div e d a b => syllable e 0xd (fmtRrr d.toNat a.toNat b.toNat 0)
  | .divU e d a b => syllable e 0xd (fmtRrr d.toNat a.toNat b.toNat 1)
  | .rem e d a b => syllable e 0xe (fmtRrr d.toNat a.toNat b.toNat 0)
  | .remU e d a b => syllable e 0xe (fmtRrr d.toNat a.toNat b.toNat 1)
  | .min e d a b => syllable e 0xf (fmtRrr d.toNat a.toNat b.toNat 0)
  | .minU e d a b => syllable e 0xf (fmtRrr d.toNat a.toNat b.toNat 1)
  | .max e d a b => syllable e 0x10 (fmtRrr d.toNat a.toNat b.toNat 0)
  | .maxU e d a b => syllable e 0x10 (fmtRrr d.toNat a.toNat b.toNat 1)
  | .cmp e d a b c => syllable e 0x11 (fmtRrr d.toNat a.toNat b.toNat c.toNat)
  | .cmov e d a b => syllable e 0x12 (fmtRrr d.toNat a.toNat b.toNat 0)
  | .clz e d a => syllable e 0x13 (fmtRrr d.toNat a.toNat 0 0)
  | .popc e d a => syllable e 0x14 (fmtRrr d.toNat a.toNat 0 0)
  | .bext e d a b p => syllable e 0x15 (fmtRrr d.toNat a.toNat b.toNat p.toNat)
  | .bins e d a b p => syllable e 0x16 (fmtRrr d.toNat a.toNat b.toNat p.toNat)
  | .addi e d a i => syllable e 0x17 (fmtRri d.toNat a.toNat i.toNat)
  | .andi e d a i => syllable e 0x18 (fmtRri d.toNat a.toNat i.toNat)
  | .ori e d a i => syllable e 0x19 (fmtRri d.toNat a.toNat i.toNat)
  | .xori e d a i => syllable e 0x1a (fmtRri d.toNat a.toNat i.toNat)
  | .shli e d a i => syllable e 0x1b (fmtRri d.toNat a.toNat i.toNat)
  | .shri e d a i => syllable e 0x1c (fmtRri d.toNat a.toNat i.toNat)
  | .srai e d a i => syllable e 0x1d (fmtRri d.toNat a.toNat i.toNat)
  | .muli e d a i => syllable e 0x1e (fmtRri d.toNat a.toNat i.toNat)
  | .cmpeqi e d a i => syllable e 0x1f (fmtRri d.toNat a.toNat i.toNat)
  | .cmplti e d a i => syllable e 0x20 (fmtRri d.toNat a.toNat i.toNat)
  | .cmpltui e d a i => syllable e 0x21 (fmtRri d.toNat a.toNat i.toNat)
  | .li e d i => syllable e 0x22 (fmtRi d.toNat i.toNat)
  | .lih e d i => syllable e 0x23 (fmtRi d.toNat i.toNat)
  | .mfs e d n => syllable e 0x24 (fmtRri d.toNat 0 n.toNat)
  | .mts e a n => syllable e 0x25 (fmtRri 0 a.toNat n.toNat)
  | .rdcyc e d => syllable e 0x26 (fmtRrr d.toNat 0 0 0)
  | .rdid e d n => syllable e 0x27 (fmtRri d.toNat 0 n.toNat)
  | .pand e d a b => syllable e 0x28 (fmtRrr d.toNat a.toNat b.toNat 0)
  | .por e d a b => syllable e 0x29 (fmtRrr d.toNat a.toNat b.toNat 0)
  | .pxor e d a b => syllable e 0x2a (fmtRrr d.toNat a.toNat b.toNat 0)
  | .pandn e d a b => syllable e 0x2b (fmtRrr d.toNat a.toNat b.toNat 0)
  | .pfs e d a => syllable e 0x2c (fmtRrr d.toNat a.toNat 0 0)
  | .pts e d a => syllable e 0x2d (fmtRrr d.toNat a.toNat 0 0)
  | .pcnt e d a => syllable e 0x2e (fmtRrr d.toNat a.toNat 0 0)
  | .pfirst e d a => syllable e 0x2f (fmtRrr d.toNat a.toNat 0 0)
  | .ldb e d h a i => syllable e 0x40 (fmtMs d.toNat h.toNat a.toNat i.toNat)
  | .ldbu e d h a i => syllable e 0x41 (fmtMs d.toNat h.toNat a.toNat i.toNat)
  | .ldh e d h a i => syllable e 0x42 (fmtMs d.toNat h.toNat a.toNat i.toNat)
  | .ldhu e d h a i => syllable e 0x43 (fmtMs d.toNat h.toNat a.toNat i.toNat)
  | .ldw e d h a i => syllable e 0x44 (fmtMs d.toNat h.toNat a.toNat i.toNat)
  | .stb e d h a i => syllable e 0x45 (fmtMs d.toNat h.toNat a.toNat i.toNat)
  | .sth e d h a i => syllable e 0x46 (fmtMs d.toNat h.toNat a.toNat i.toNat)
  | .stw e d h a i => syllable e 0x47 (fmtMs d.toNat h.toNat a.toNat i.toNat)
  | .vld e d h a t i => syllable e 0x48 (fmtMv d.toNat h.toNat a.toNat t.toNat i.toNat)
  | .vst e d h a t i => syllable e 0x49 (fmtMv d.toNat h.toNat a.toNat t.toNat i.toNat)
  | .vldb e d h a t i => syllable e 0x4a (fmtMv d.toNat h.toNat a.toNat t.toNat i.toNat)
  | .vgth e d h a t i => syllable e 0x4b (fmtMv d.toNat h.toNat a.toNat t.toNat i.toNat)
  | .vsct e d h a t i => syllable e 0x4c (fmtMv d.toNat h.toNat a.toNat t.toNat i.toNat)
  | .vlds e d h a t i => syllable e 0x4d (fmtMv d.toNat h.toNat a.toNat t.toNat i.toNat)
  | .vsts e d h a t i => syllable e 0x4e (fmtMv d.toNat h.toNat a.toNat t.toNat i.toNat)
  | .xlat e d a b => syllable e 0x4f (fmtRrr d.toNat a.toNat b.toNat 0)
  | .hinv e d => syllable e 0x50 (fmtRrr d.toNat 0 0 0)
  | .hchk e d a => syllable e 0x51 (fmtRrr d.toNat a.toNat 0 0)
  | .amoadd e d h a b => syllable e 0x52 (fmtAt d.toNat h.toNat a.toNat b.toNat)
  | .amoand e d h a b => syllable e 0x53 (fmtAt d.toNat h.toNat a.toNat b.toNat)
  | .amoor e d h a b => syllable e 0x54 (fmtAt d.toNat h.toNat a.toNat b.toNat)
  | .amoxor e d h a b => syllable e 0x55 (fmtAt d.toNat h.toNat a.toNat b.toNat)
  | .amomin e d h a b => syllable e 0x56 (fmtAt d.toNat h.toNat a.toNat b.toNat)
  | .amomax e d h a b => syllable e 0x57 (fmtAt d.toNat h.toNat a.toNat b.toNat)
  | .amoswp e d h a b => syllable e 0x58 (fmtAt d.toNat h.toNat a.toNat b.toNat)
  | .amocas e d h a b => syllable e 0x59 (fmtAt d.toNat h.toNat a.toNat b.toNat)
  | .amofadd e d h a b => syllable e 0x5a (fmtAt d.toNat h.toNat a.toNat b.toNat)
  | .fence e k s => syllable e 0x5b (k.toNat * 2 ^ 3 + s.toNat)
  | .br e o => syllable e 0x60 (fmtRi 0 o.toNat)
  | .bz e c o => syllable e 0x61 (fmtRi c.toNat o.toNat)
  | .bnz e c o => syllable e 0x62 (fmtRi c.toNat o.toNat)
  | .bqa e c o => syllable e 0x63 (fmtRi c.toNat o.toNat)
  | .bqn e c o => syllable e 0x64 (fmtRi c.toNat o.toNat)
  | .call e o => syllable e 0x65 (fmtRi 0 o.toNat)
  | .jr e a => syllable e 0x66 (fmtRrr 0 a.toNat 0 0)
  | .loop e => syllable e 0x67 0
  | .wait e a => syllable e 0x68 (fmtRrr 0 a.toNat 0 0)
  | .spawn e c o => syllable e 0x69 (fmtRi c.toNat o.toNat)
  | .bind e d a => syllable e 0x6a (fmtRrr d.toNat a.toNat 0 0)
  | .unbind e a => syllable e 0x6b (fmtRrr 0 a.toNat 0 0)
  | .cancel e a l => syllable e 0x6c (fmtRri 0 a.toNat l.toNat)
  | .prio e a => syllable e 0x6d (fmtRrr 0 a.toNat 0 0)
  | .trap e n => syllable e 0x6e (fmtRi 0 n.toNat)
  | .rtt e => syllable e 0x6f 0
  | .halt e => syllable e 0x70 0
  | .yield e => syllable e 0x71 0
  | .ebrk e n => syllable e 0x72 (fmtRi 0 n.toNat)
  | .mfc e d n => syllable e 0x73 (fmtRri d.toNat 0 n.toNat)
  | .mtc e a n => syllable e 0x74 (fmtRri 0 a.toNat n.toNat)
  | .qpush e a b h t => syllable e 0x75 (fmtEn a.toNat b.toNat h.toNat t.toNat)
  | .qpop e a b h t => syllable e 0x76 (fmtEn a.toNat b.toNat h.toNat t.toNat)
  | .vaddI e d a b q m => syllable e 0x80 (fmtVv d.toNat a.toNat b.toNat q.toNat m.toNat)
  | .vsubI e d a b q m => syllable e 0x81 (fmtVv d.toNat a.toNat b.toNat q.toNat m.toNat)
  | .vmulI e d a b q m => syllable e 0x82 (fmtVv d.toNat a.toNat b.toNat q.toNat m.toNat)
  | .vminI e d a b q m => syllable e 0x83 (fmtVv d.toNat a.toNat b.toNat q.toNat m.toNat)
  | .vmaxI e d a b q m => syllable e 0x84 (fmtVv d.toNat a.toNat b.toNat q.toNat m.toNat)
  | .vand e d a b q m => syllable e 0x85 (fmtVv d.toNat a.toNat b.toNat q.toNat m.toNat)
  | .vor e d a b q m => syllable e 0x86 (fmtVv d.toNat a.toNat b.toNat q.toNat m.toNat)
  | .vxor e d a b q m => syllable e 0x87 (fmtVv d.toNat a.toNat b.toNat q.toNat m.toNat)
  | .vshl e d a b q m => syllable e 0x88 (fmtVv d.toNat a.toNat b.toNat q.toNat m.toNat)
  | .vshr e d a b q m => syllable e 0x89 (fmtVv d.toNat a.toNat b.toNat q.toNat m.toNat)
  | .vsra e d a b q m => syllable e 0x8a (fmtVv d.toNat a.toNat b.toNat q.toNat m.toNat)
  | .vceqI e d a b q m => syllable e 0x8b (fmtVv d.toNat a.toNat b.toNat q.toNat m.toNat)
  | .vcltI e d a b q m => syllable e 0x8c (fmtVv d.toNat a.toNat b.toNat q.toNat m.toNat)
  | .vcltuI e d a b q m => syllable e 0x8d (fmtVv d.toNat a.toNat b.toNat q.toNat m.toNat)
  | .vaddF e d a b q m => syllable e 0x8e (fmtVv d.toNat a.toNat b.toNat q.toNat m.toNat)
  | .vsubF e d a b q m => syllable e 0x8f (fmtVv d.toNat a.toNat b.toNat q.toNat m.toNat)
  | .vmulF e d a b q m => syllable e 0x90 (fmtVv d.toNat a.toNat b.toNat q.toNat m.toNat)
  | .vfmaF e d a b q m => syllable e 0x91 (fmtVv d.toNat a.toNat b.toNat q.toNat m.toNat)
  | .vfmsF e d a b q m => syllable e 0x92 (fmtVv d.toNat a.toNat b.toNat q.toNat m.toNat)
  | .vdivF e d a b q m => syllable e 0x93 (fmtVv d.toNat a.toNat b.toNat q.toNat m.toNat)
  | .vsqrtF e d a q m => syllable e 0x94 (fmtVv d.toNat a.toNat 0 q.toNat m.toNat)
  | .vrcpF e d a q m => syllable e 0x95 (fmtVv d.toNat a.toNat 0 q.toNat m.toNat)
  | .vrsqF e d a q m => syllable e 0x96 (fmtVv d.toNat a.toNat 0 q.toNat m.toNat)
  | .vminF e d a b q m => syllable e 0x97 (fmtVv d.toNat a.toNat b.toNat q.toNat m.toNat)
  | .vmaxF e d a b q m => syllable e 0x98 (fmtVv d.toNat a.toNat b.toNat q.toNat m.toNat)
  | .vabsF e d a q m => syllable e 0x99 (fmtVv d.toNat a.toNat 0 q.toNat m.toNat)
  | .vnegF e d a q m => syllable e 0x9a (fmtVv d.toNat a.toNat 0 q.toNat m.toNat)
  | .vceqF e d a b q m => syllable e 0x9b (fmtVv d.toNat a.toNat b.toNat q.toNat m.toNat)
  | .vcltF e d a b q m => syllable e 0x9c (fmtVv d.toNat a.toNat b.toNat q.toNat m.toNat)
  | .vcleF e d a b q m => syllable e 0x9d (fmtVv d.toNat a.toNat b.toNat q.toNat m.toNat)
  | .vexp2F e d a q m => syllable e 0x9e (fmtVv d.toNat a.toNat 0 q.toNat m.toNat)
  | .vlog2F e d a q m => syllable e 0x9f (fmtVv d.toNat a.toNat 0 q.toNat m.toNat)
  | .vcvtFI e d a q m => syllable e 0xa0 (fmtVv d.toNat a.toNat 0 q.toNat m.toNat)
  | .vcvtIF e d a q m => syllable e 0xa1 (fmtVv d.toNat a.toNat 0 q.toNat m.toNat)
  | .vpkE4m3 e d a p q m => syllable e 0xa2 (fmtVv d.toNat a.toNat p.toNat q.toNat m.toNat)
  | .vupE4m3 e d a p q m => syllable e 0xa3 (fmtVv d.toNat a.toNat p.toNat q.toNat m.toNat)
  | .vpkI8 e d a p q m => syllable e 0xa4 (fmtVv d.toNat a.toNat p.toNat q.toNat m.toNat)
  | .vupI8 e d a p q m => syllable e 0xa5 (fmtVv d.toNat a.toNat p.toNat q.toNat m.toNat)
  | .vpkBf16 e d a p q m => syllable e 0xa6 (fmtVv d.toNat a.toNat p.toNat q.toNat m.toNat)
  | .vupBf16 e d a p q m => syllable e 0xa7 (fmtVv d.toNat a.toNat p.toNat q.toNat m.toNat)
  | .vredaddF e d a q m => syllable e 0xa8 (fmtVv d.toNat a.toNat 0 q.toNat m.toNat)
  | .vredmaxF e d a q m => syllable e 0xa9 (fmtVv d.toNat a.toNat 0 q.toNat m.toNat)
  | .vredaddI e d a q m => syllable e 0xaa (fmtVv d.toNat a.toNat 0 q.toNat m.toNat)
  | .vredmaxI e d a q m => syllable e 0xab (fmtVv d.toNat a.toNat 0 q.toNat m.toNat)
  | .vperm e d a b q m => syllable e 0xac (fmtVv d.toNat a.toNat b.toNat q.toNat m.toNat)
  | .vbcast e d a l q m => syllable e 0xad (fmtVv d.toNat a.toNat l.toNat q.toNat m.toNat)
  | .vslide e d a n q m => syllable e 0xae (fmtVv d.toNat a.toNat n.toNat q.toNat m.toNat)
  | .vsel e d a b q => syllable e 0xaf (fmtVv d.toNat a.toNat b.toNat q.toNat 0)
  | .vmov e d a q m => syllable e 0xb0 (fmtVv d.toNat a.toNat 0 q.toNat m.toNat)
  | .vxm e d a q m => syllable e 0xb1 (fmtVv d.toNat a.toNat 0 q.toNat m.toNat)
  | .vins e d a b q m => syllable e 0xb2 (fmtVv d.toNat a.toNat b.toNat q.toNat m.toNat)
  | .vext e d a b => syllable e 0xb3 (fmtVv d.toNat a.toNat b.toNat 0 0)
  | .vtag e d g q m => syllable e 0xb4 (fmtVv d.toNat 0 g.toNat q.toNat m.toNat)
  | .vgtag e d a => syllable e 0xb5 (fmtVv d.toNat a.toNat 0 0 0)
  | .viota e d q m => syllable e 0xb6 (fmtVv d.toNat 0 0 q.toNat m.toNat)
  | .vsplat e d a q m => syllable e 0xb7 (fmtVv d.toNat a.toNat 0 q.toNat m.toNat)
  | .vbscl e d a b q m => syllable e 0xb8 (fmtVv d.toNat a.toNat b.toNat q.toNat m.toNat)
  | .mset e a f n => syllable e 0xc0 (fmtRrf 0 a.toNat f.toNat n.toNat)
  | .mget e d f n => syllable e 0xc1 (fmtRrf d.toNat 0 f.toNat n.toNat)
  | .wld e a b s t => syllable e 0xc2 (fmtEn a.toNat b.toNat s.toNat t.toNat)
  | .mswap e t => syllable e 0xc3 (fmtRi 0 t.toNat)
  | .mmul e a b s t => syllable e 0xc4 (fmtEn a.toNat b.toNat s.toNat t.toNat)
  | .macc e a s t => syllable e 0xc5 (fmtEn a.toNat 0 s.toNat t.toNat)
  | .mdrain e a s t => syllable e 0xc6 (fmtEn a.toNat 0 s.toNat t.toNat)
  | .mchain e a b s t => syllable e 0xc7 (fmtEn a.toNat b.toNat s.toNat t.toNat)
  | .mchk e a s t => syllable e 0xc8 (fmtEn a.toNat 0 s.toNat t.toNat)
  | .mstat e a b s t => syllable e 0xc9 (fmtEn a.toNat b.toNat s.toNat t.toNat)
  | .mfence e => syllable e 0xca 0
  | .cset e a f n => syllable e 0xe0 (fmtRrf 0 a.toNat f.toNat n.toNat)
  | .cget e d f n => syllable e 0xe1 (fmtRrf d.toNat 0 f.toNat n.toNat)
  | .cpy e a b s t => syllable e 0xe2 (fmtEn a.toNat b.toNat s.toNat t.toNat)
  | .cpyb e a b s t => syllable e 0xe3 (fmtEn a.toNat b.toNat s.toNat t.toNat)
  | .rst e a b r h t => syllable e 0xe4 (fmtEnh a.toNat b.toNat r.toNat h.toNat t.toNat)
  | .rstc e a b r h t => syllable e 0xe5 (fmtEnh a.toNat b.toNat r.toNat h.toNat t.toNat)
  | .rld e a r h t => syllable e 0xe6 (fmtEnh a.toNat 0 r.toNat h.toNat t.toNat)
  | .rldBlock e a b r h t => syllable e 0xe6 (fmtEnh a.toNat b.toNat r.toNat h.toNat t.toNat)
  | .rfadd e a b r h t => syllable e 0xe7 (fmtEnh a.toNat b.toNat r.toNat h.toNat t.toNat)
  | .radd e a b r h t => syllable e 0xe8 (fmtEnh a.toNat b.toNat r.toNat h.toNat t.toNat)
  | .rmax e a b r h t => syllable e 0xe9 (fmtEnh a.toNat b.toNat r.toNat h.toNat t.toNat)
  | .rswp e a b r h t => syllable e 0xea (fmtEnh a.toNat b.toNat r.toNat h.toNat t.toNat)
  | .tchk e a t => syllable e 0xeb (fmtEn a.toNat 0 0 t.toNat)
  | .twt e a => syllable e 0xec (fmtEn a.toNat 0 0 0)
  | .tjoin e a b t => syllable e 0xed (fmtEn a.toNat b.toNat 0 t.toNat)
  | .spush e a b s t => syllable e 0xf0 (fmtEn a.toNat b.toNat s.toNat t.toNat)
  | .spop e s t => syllable e 0xf1 (fmtEn 0 0 s.toNat t.toNat)
  | .srel e a s => syllable e 0xf2 (fmtEn a.toNat 0 s.toNat 0)
  | .sget e a o c t => syllable e 0xf3 (fmtEnh a.toNat 0 o.toNat c.toNat t.toNat)
  | .sset e a o c t => syllable e 0xf4 (fmtEnh a.toNat 0 o.toNat c.toNat t.toNat)
  | .mcast e a b s t => syllable e 0xf5 (fmtEn a.toNat b.toNat s.toNat t.toNat)
  | .rctl e a b s => syllable e 0xf6 (fmtEn a.toNat b.toNat s.toNat 0)
  | .tbinit e a b s t => syllable e 0xf7 (fmtEn a.toNat b.toNat s.toNat t.toNat)
  | .tbarr e a s t => syllable e 0xf8 (fmtEn a.toNat 0 s.toNat t.toNat)
  | .tbwait e a b s t => syllable e 0xf9 (fmtEn a.toNat b.toNat s.toNat t.toNat)
  | .reservedEncoding w => w
  | .resultLanding => 0
  | .faultEntryAppend => 0
  | .contextRestore => 0
  | .recordStart => 0
  | .recordEnd => 0
  | .prioAging => 0
  | .rbind => 0
  | .wldExpansionStart => 0
  | .wldComplete => 0
  | .mswapFlip => 0
  | .arrayRowAccumulate => 0
  | .drainRow => 0
  | .chainParametersRead => 0
  | .copySectorPerform => 0
  | .remoteStorePerform => 0
  | .remoteReadPerform => 0
  | .remoteAtomicPerform => 0
  | .responseArrival => 0
  | .errorResponse => 0
  | .landedAck => 0
  | .carriedRequestArrival => 0
  | .held => 0
  | .nack => 0
  | .nackBackoffExpiry => 0
  | .watch => 0
  | .release => 0
  | .busy => 0
  | .watchRetryExpiry => 0
  | .watchTimeout => 0
  | .holdEntryPerform => 0
  | .holdEntryExpiry => 0
  | .query => 0
  | .queryAnswer => 0
  | .queryTimeout => 0
  | .packetArrival => 0
  | .creditArrival => 0
  | .closeNotice => 0
  | .deadNotice => 0
  | .weightArrival => 0
  | .controllerPeriodEnd => 0
  | .pushComplete => 0
  | .spopDelivery => 0
  | .srelRelease => 0
  | .ingressDoorbell => 0
  | .ingressStageForward => 0
  | .ingressEnable => 0
  | .ingressDisable => 0
  | .egressEnable => 0
  | .egressDisable => 0
  | .egressRelease => 0
  | .egressPacketWrite => 0
  | .openNotice => 0
  | .queueNotify => 0
  | .queueHeadWrite => 0
  | .queueCommandPerform => 0
  | .queueAnswer => 0
  | .linkPacketReceive => 0
  | .linkAck => 0
  | .linkNak => 0
  | .ackTimer => 0
  | .trainingDone => 0
  | .trainingFail => 0
  | .laneFailure => 0
  | .retrainDone => 0
  | .retrainTimeout => 0
  | .linkSilenceTimeout => 0
  | .isolateFlit => 0
  | .linkIsolate => 0
  | .linkRetrain => 0
  | .timeFlit => 0
  | .timeFlitTimer => 0
  | .platMaxClear => 0
  | .routingWrite => 0
  | .errorInject => 0
  | .errorLogClear => 0
  | .tbwaitTimeout => 0
  | .counterClear => 0
  | .bindNotice => 0
  | .endNotice => 0
  | .unitReport => 0
  | .fireNotice => 0
  | .cancelNotice => 0
  | .unitWaitAnswer => 0
  | .cycRead => 0
  | .placementImage => 0
  | .configAck => 0
  | .configFailure => 0
  | .startNotice => 0
  | .moduleReset => 0
  | .selfTestDone => 0
  | .bootGo => 0
  | .bootImageArrival => 0
  | .bootVerifyDone => 0
  | .functionReady => 0
  | .checkpointSave => 0
  | .checkpointRestore => 0
  | .checkpointDone => 0
  | .attestation => 0
  | .attestationDone => 0
  | .repairRow => 0
  | .repairColumn => 0
  | .repairDone => 0
  | .powerCapCheck => 0
  | .thermalThrottle => 0
  | .thermalShutdown => 0
  | .powerLoss => 0
  | .stageMigration => 0
  | .raRequestService => 0
  | .migrationNoticeService => 0
  | .registerWrite => 0
  | .pacingBucketRefill => 0
  | .unitClose => 0
  | .contextSaveComplete => 0

/-- Whether a row of the table is a syllable, and so has a word. -/
def Instr.isSyllable : Instr → Bool
  | .nop _ => true
  | .add _ _ _ _ => true
  | .sub _ _ _ _ => true
  | .and _ _ _ _ => true
  | .or _ _ _ _ => true
  | .xor _ _ _ _ => true
  | .andn _ _ _ _ => true
  | .shl _ _ _ _ => true
  | .shr _ _ _ _ => true
  | .sra _ _ _ _ => true
  | .rot _ _ _ _ => true
  | .mul _ _ _ _ => true
  | .mulh _ _ _ _ => true
  | .mulhU _ _ _ _ => true
  | .div _ _ _ _ => true
  | .divU _ _ _ _ => true
  | .rem _ _ _ _ => true
  | .remU _ _ _ _ => true
  | .min _ _ _ _ => true
  | .minU _ _ _ _ => true
  | .max _ _ _ _ => true
  | .maxU _ _ _ _ => true
  | .cmp _ _ _ _ _ => true
  | .cmov _ _ _ _ => true
  | .clz _ _ _ => true
  | .popc _ _ _ => true
  | .bext _ _ _ _ _ => true
  | .bins _ _ _ _ _ => true
  | .addi _ _ _ _ => true
  | .andi _ _ _ _ => true
  | .ori _ _ _ _ => true
  | .xori _ _ _ _ => true
  | .shli _ _ _ _ => true
  | .shri _ _ _ _ => true
  | .srai _ _ _ _ => true
  | .muli _ _ _ _ => true
  | .cmpeqi _ _ _ _ => true
  | .cmplti _ _ _ _ => true
  | .cmpltui _ _ _ _ => true
  | .li _ _ _ => true
  | .lih _ _ _ => true
  | .mfs _ _ _ => true
  | .mts _ _ _ => true
  | .rdcyc _ _ => true
  | .rdid _ _ _ => true
  | .pand _ _ _ _ => true
  | .por _ _ _ _ => true
  | .pxor _ _ _ _ => true
  | .pandn _ _ _ _ => true
  | .pfs _ _ _ => true
  | .pts _ _ _ => true
  | .pcnt _ _ _ => true
  | .pfirst _ _ _ => true
  | .ldb _ _ _ _ _ => true
  | .ldbu _ _ _ _ _ => true
  | .ldh _ _ _ _ _ => true
  | .ldhu _ _ _ _ _ => true
  | .ldw _ _ _ _ _ => true
  | .stb _ _ _ _ _ => true
  | .sth _ _ _ _ _ => true
  | .stw _ _ _ _ _ => true
  | .vld _ _ _ _ _ _ => true
  | .vst _ _ _ _ _ _ => true
  | .vldb _ _ _ _ _ _ => true
  | .vgth _ _ _ _ _ _ => true
  | .vsct _ _ _ _ _ _ => true
  | .vlds _ _ _ _ _ _ => true
  | .vsts _ _ _ _ _ _ => true
  | .xlat _ _ _ _ => true
  | .hinv _ _ => true
  | .hchk _ _ _ => true
  | .amoadd _ _ _ _ _ => true
  | .amoand _ _ _ _ _ => true
  | .amoor _ _ _ _ _ => true
  | .amoxor _ _ _ _ _ => true
  | .amomin _ _ _ _ _ => true
  | .amomax _ _ _ _ _ => true
  | .amoswp _ _ _ _ _ => true
  | .amocas _ _ _ _ _ => true
  | .amofadd _ _ _ _ _ => true
  | .fence _ _ _ => true
  | .br _ _ => true
  | .bz _ _ _ => true
  | .bnz _ _ _ => true
  | .bqa _ _ _ => true
  | .bqn _ _ _ => true
  | .call _ _ => true
  | .jr _ _ => true
  | .loop _ => true
  | .wait _ _ => true
  | .spawn _ _ _ => true
  | .bind _ _ _ => true
  | .unbind _ _ => true
  | .cancel _ _ _ => true
  | .prio _ _ => true
  | .trap _ _ => true
  | .rtt _ => true
  | .halt _ => true
  | .yield _ => true
  | .ebrk _ _ => true
  | .mfc _ _ _ => true
  | .mtc _ _ _ => true
  | .qpush _ _ _ _ _ => true
  | .qpop _ _ _ _ _ => true
  | .vaddI _ _ _ _ _ _ => true
  | .vsubI _ _ _ _ _ _ => true
  | .vmulI _ _ _ _ _ _ => true
  | .vminI _ _ _ _ _ _ => true
  | .vmaxI _ _ _ _ _ _ => true
  | .vand _ _ _ _ _ _ => true
  | .vor _ _ _ _ _ _ => true
  | .vxor _ _ _ _ _ _ => true
  | .vshl _ _ _ _ _ _ => true
  | .vshr _ _ _ _ _ _ => true
  | .vsra _ _ _ _ _ _ => true
  | .vceqI _ _ _ _ _ _ => true
  | .vcltI _ _ _ _ _ _ => true
  | .vcltuI _ _ _ _ _ _ => true
  | .vaddF _ _ _ _ _ _ => true
  | .vsubF _ _ _ _ _ _ => true
  | .vmulF _ _ _ _ _ _ => true
  | .vfmaF _ _ _ _ _ _ => true
  | .vfmsF _ _ _ _ _ _ => true
  | .vdivF _ _ _ _ _ _ => true
  | .vsqrtF _ _ _ _ _ => true
  | .vrcpF _ _ _ _ _ => true
  | .vrsqF _ _ _ _ _ => true
  | .vminF _ _ _ _ _ _ => true
  | .vmaxF _ _ _ _ _ _ => true
  | .vabsF _ _ _ _ _ => true
  | .vnegF _ _ _ _ _ => true
  | .vceqF _ _ _ _ _ _ => true
  | .vcltF _ _ _ _ _ _ => true
  | .vcleF _ _ _ _ _ _ => true
  | .vexp2F _ _ _ _ _ => true
  | .vlog2F _ _ _ _ _ => true
  | .vcvtFI _ _ _ _ _ => true
  | .vcvtIF _ _ _ _ _ => true
  | .vpkE4m3 _ _ _ _ _ _ => true
  | .vupE4m3 _ _ _ _ _ _ => true
  | .vpkI8 _ _ _ _ _ _ => true
  | .vupI8 _ _ _ _ _ _ => true
  | .vpkBf16 _ _ _ _ _ _ => true
  | .vupBf16 _ _ _ _ _ _ => true
  | .vredaddF _ _ _ _ _ => true
  | .vredmaxF _ _ _ _ _ => true
  | .vredaddI _ _ _ _ _ => true
  | .vredmaxI _ _ _ _ _ => true
  | .vperm _ _ _ _ _ _ => true
  | .vbcast _ _ _ _ _ _ => true
  | .vslide _ _ _ _ _ _ => true
  | .vsel _ _ _ _ _ => true
  | .vmov _ _ _ _ _ => true
  | .vxm _ _ _ _ _ => true
  | .vins _ _ _ _ _ _ => true
  | .vext _ _ _ _ => true
  | .vtag _ _ _ _ _ => true
  | .vgtag _ _ _ => true
  | .viota _ _ _ _ => true
  | .vsplat _ _ _ _ _ => true
  | .vbscl _ _ _ _ _ _ => true
  | .mset _ _ _ _ => true
  | .mget _ _ _ _ => true
  | .wld _ _ _ _ _ => true
  | .mswap _ _ => true
  | .mmul _ _ _ _ _ => true
  | .macc _ _ _ _ => true
  | .mdrain _ _ _ _ => true
  | .mchain _ _ _ _ _ => true
  | .mchk _ _ _ _ => true
  | .mstat _ _ _ _ _ => true
  | .mfence _ => true
  | .cset _ _ _ _ => true
  | .cget _ _ _ _ => true
  | .cpy _ _ _ _ _ => true
  | .cpyb _ _ _ _ _ => true
  | .rst _ _ _ _ _ _ => true
  | .rstc _ _ _ _ _ _ => true
  | .rld _ _ _ _ _ => true
  | .rldBlock _ _ _ _ _ _ => true
  | .rfadd _ _ _ _ _ _ => true
  | .radd _ _ _ _ _ _ => true
  | .rmax _ _ _ _ _ _ => true
  | .rswp _ _ _ _ _ _ => true
  | .tchk _ _ _ => true
  | .twt _ _ => true
  | .tjoin _ _ _ _ => true
  | .spush _ _ _ _ _ => true
  | .spop _ _ _ => true
  | .srel _ _ _ => true
  | .sget _ _ _ _ _ => true
  | .sset _ _ _ _ _ => true
  | .mcast _ _ _ _ _ => true
  | .rctl _ _ _ _ => true
  | .tbinit _ _ _ _ _ => true
  | .tbarr _ _ _ _ => true
  | .tbwait _ _ _ _ _ => true
  | .reservedEncoding _ => true
  | .resultLanding => false
  | .faultEntryAppend => false
  | .contextRestore => false
  | .recordStart => false
  | .recordEnd => false
  | .prioAging => false
  | .rbind => false
  | .wldExpansionStart => false
  | .wldComplete => false
  | .mswapFlip => false
  | .arrayRowAccumulate => false
  | .drainRow => false
  | .chainParametersRead => false
  | .copySectorPerform => false
  | .remoteStorePerform => false
  | .remoteReadPerform => false
  | .remoteAtomicPerform => false
  | .responseArrival => false
  | .errorResponse => false
  | .landedAck => false
  | .carriedRequestArrival => false
  | .held => false
  | .nack => false
  | .nackBackoffExpiry => false
  | .watch => false
  | .release => false
  | .busy => false
  | .watchRetryExpiry => false
  | .watchTimeout => false
  | .holdEntryPerform => false
  | .holdEntryExpiry => false
  | .query => false
  | .queryAnswer => false
  | .queryTimeout => false
  | .packetArrival => false
  | .creditArrival => false
  | .closeNotice => false
  | .deadNotice => false
  | .weightArrival => false
  | .controllerPeriodEnd => false
  | .pushComplete => false
  | .spopDelivery => false
  | .srelRelease => false
  | .ingressDoorbell => false
  | .ingressStageForward => false
  | .ingressEnable => false
  | .ingressDisable => false
  | .egressEnable => false
  | .egressDisable => false
  | .egressRelease => false
  | .egressPacketWrite => false
  | .openNotice => false
  | .queueNotify => false
  | .queueHeadWrite => false
  | .queueCommandPerform => false
  | .queueAnswer => false
  | .linkPacketReceive => false
  | .linkAck => false
  | .linkNak => false
  | .ackTimer => false
  | .trainingDone => false
  | .trainingFail => false
  | .laneFailure => false
  | .retrainDone => false
  | .retrainTimeout => false
  | .linkSilenceTimeout => false
  | .isolateFlit => false
  | .linkIsolate => false
  | .linkRetrain => false
  | .timeFlit => false
  | .timeFlitTimer => false
  | .platMaxClear => false
  | .routingWrite => false
  | .errorInject => false
  | .errorLogClear => false
  | .tbwaitTimeout => false
  | .counterClear => false
  | .bindNotice => false
  | .endNotice => false
  | .unitReport => false
  | .fireNotice => false
  | .cancelNotice => false
  | .unitWaitAnswer => false
  | .cycRead => false
  | .placementImage => false
  | .configAck => false
  | .configFailure => false
  | .startNotice => false
  | .moduleReset => false
  | .selfTestDone => false
  | .bootGo => false
  | .bootImageArrival => false
  | .bootVerifyDone => false
  | .functionReady => false
  | .checkpointSave => false
  | .checkpointRestore => false
  | .checkpointDone => false
  | .attestation => false
  | .attestationDone => false
  | .repairRow => false
  | .repairColumn => false
  | .repairDone => false
  | .powerCapCheck => false
  | .thermalThrottle => false
  | .thermalShutdown => false
  | .powerLoss => false
  | .stageMigration => false
  | .raRequestService => false
  | .migrationNoticeService => false
  | .registerWrite => false
  | .pacingBucketRefill => false
  | .unitClose => false
  | .contextSaveComplete => false

/-- The instruction that this decoder reads from a word given as a number, with the bits numbered as the opcode table
numbers them (one 32-bit word, bit 0 its least significant bit). A word that stands for no row of the table is refused. -/
def decodeTableWord (nbits w : Nat) : Option Instr :=
  match decode (BitVec.ofNat 32 (w % 2 ^ nbits)) with
  | .reservedEncoding _ => none
  | i => some i

end Sys2Proof
end

