-- ==== Sys2Proof/Machine/Operands.lean ====
section
/-! DEFINITION. Reading operands: rotating names, the hard-wired registers, the declarations of a record, and the checks of
a plain access through a handle (R63, R81, R89, R90 to R103, R120 to R123, R182 to R186, R202). -/

namespace Sys2Proof.Machine

/-! ### Trap causes (R166) -/

def causeIllegalOp : BitVec 8 := 0x01
def causeIllegalBundle : BitVec 8 := 0x02
def causeCluster : BitVec 8 := 0x03
def causeFmtTag : BitVec 8 := 0x04
def causePriv : BitVec 8 := 0x05
def causeDecl : BitVec 8 := 0x06
def causeIntDivz : BitVec 8 := 0x10
def causeMisalign : BitVec 8 := 0x11
def causeBounds : BitVec 8 := 0x12
def causeMmRace : BitVec 8 := 0x13
def causeHandleInvalid : BitVec 8 := 0x20
def causeHandleRevoked : BitVec 8 := 0x21
def causeNonlocal : BitVec 8 := 0x22
def causePermitW : BitVec 8 := 0x23
def causePermitRa : BitVec 8 := 0x24
def causeDiscardWrite : BitVec 8 := 0x25
def causeXlatMiss : BitVec 8 := 0x26
def causeSpawnBusy : BitVec 8 := 0x30
def causeTokenExpired : BitVec 8 := 0x31
def causeEngineErr : BitVec 8 := 0x32
def causeChanDead : BitVec 8 := 0x33
def causeSdc : BitVec 8 := 0x34
def causeSwTrap : BitVec 8 := 0x40
def causeEbrk : BitVec 8 := 0x41
def causeChainFmt : BitVec 8 := 0x50
def causeWldFmt : BitVec 8 := 0x51

/-- The rank of a cause among the traps of one bundle (R72), 1 first (log 16, DEDUCED). -/
def rankOf (cause : BitVec 8) : Nat :=
  match cause.toNat with
  | 0x02 => 1
  | 0x01 => 2
  | 0x05 => 3
  | 0x03 => 4
  | 0x06 => 5
  | 0x04 => 6
  | 0x50 => 6
  | 0x10 => 7
  | 0x40 => 10
  | 0x41 => 10
  | 0x24 => 9
  | 0x30 => 9
  | 0x31 => 9
  | 0x32 => 9
  | 0x33 => 9
  | 0x34 => 9
  | 0x51 => 9
  | _ => 8

/-- A trap with its rank. -/
def trapReq (cause : BitVec 8) (val : Word) : TrapReq := ⟨rankOf cause, cause, val, 0⟩

/-- The trap of a late error of operation `op` (R234, R265). -/
def lateTrap (op : Nat) (cause : BitVec 8) (val : Word) : TrapReq := ⟨rankOf cause, cause, val, op + 1⟩

/-- The earliest issued of some waiting errors. -/
def firstErr : List WaitingErr → Option WaitingErr
  | [] => none
  | e :: r =>
    match firstErr r with
    | some x => if x.op < e.op then some x else some e
    | none => some e

/-! ### Rotating names (R81, R89) -/

/-- Phys of R89 for a name of the group whose first register is `g`. -/
def rotated (g n : Nat) (rrb : BitVec 3) : Nat := g + (n - g + rrb.toNat) % 8

/-- The physical scalar register of a name: s48 to s55 rotate (R93). -/
def physS (rrb : BitVec 3) (n : Nat) : Nat := if 48 ≤ n ∧ n ≤ 55 then rotated 48 n rrb else n

/-- The physical vector register of a name: v24 to v31 and v56 to v63 rotate (R121). -/
def physV (rrb : BitVec 3) (n : Nat) : Nat :=
  if 24 ≤ n ∧ n ≤ 31 then rotated 24 n rrb else if 56 ≤ n then rotated 56 n rrb else n

/-- The predicate slot of a name: q4 to q7 rotate over slots 4 to 11 (R95). -/
def physQ (rrb : BitVec 3) (n : Nat) : Nat := if 4 ≤ n ∧ n ≤ 7 then rotated 4 n rrb else n

/-- The cluster of a vector register as written: 0 is X, 1 is Y (R120). -/
def clusterOf (n : Nat) : Nat := if n ≤ 31 then 0 else 1

/-! ### What a syllable sees -/

/-- The machine as a syllable of the open bundle sees it. -/
structure View where
  s : State
  b : Bundle
  i : Instr
  cell : Cell
  st : Strand
  rcd : RecEntry

/-- The view of the strand that issues the open bundle. -/
def View.of (s : State) (b : Bundle) (i : Instr) : View :=
  let c := s.cell b.m b.u
  let st := c.strand b.k
  { s := s, b := b, i := i, cell := c, st := st, rcd := c.record st.entry }

/-- Whether the syllable runs on a Spire core. -/
def View.spire (v : View) : Bool := v.cell.spire

/-- A scalar operand; s0 reads 0 (R90). -/
def View.rs (v : View) (r : BitVec 6) : Word :=
  if r = 0 then 0 else v.st.s.getD (physS v.st.rrb r.toNat) 0

/-- A predicate operand by its name; q0 reads all ones (R94). -/
def View.rq (v : View) (n : Nat) : Word :=
  if n = 0 then 0xFFFFFFFF else v.st.q.getD (physQ v.st.rrb n) 0

/-- A vector operand. -/
def View.rv (v : View) (r : BitVec 6) : VReg := v.st.v.getD (physV v.st.rrb r.toNat) VReg.zero

/-- A handle. -/
def View.rh (v : View) (n : Nat) : Handle := v.st.h.getD n Handle.zero

/-- The physical number of a scalar name. -/
def View.ps (v : View) (r : BitVec 6) : Nat := physS v.st.rrb r.toNat

/-- The strand is the one to which its record is bound (R182). -/
def View.bound (v : View) : Bool := !v.st.sibling

/-- The context of R201: the record with the strand number. -/
def View.context (v : View) : Nat × Nat := (v.st.recid.toNat, v.b.k)

/-! ### Declarations (R103, R123); a Spire core declares nothing -/

/-- The trap of a register named above its declaration. -/
def declCheck (limit n : Nat) : List TrapReq :=
  if limit < n then [trapReq causeDecl (BitVec.ofNat 32 n)] else []

def View.declS (v : View) (rs : List (BitVec 6)) : List TrapReq :=
  if v.spire then [] else rs.flatMap fun r => declCheck v.rcd.desc.smax r.toNat

def View.declV (v : View) (rs : List (BitVec 6)) : List TrapReq :=
  if v.spire then [] else rs.flatMap fun r => declCheck v.rcd.desc.vmax r.toNat

def View.declQ (v : View) (ns : List Nat) : List TrapReq :=
  if v.spire then [] else ns.flatMap fun n => declCheck v.rcd.desc.qmax n

def View.declH (v : View) (ns : List Nat) : List TrapReq :=
  if v.spire then [] else ns.flatMap fun n => declCheck v.rcd.desc.hmax n

/-- ILLEGAL_OP of the syllable, with its word as TVAL, where `bad` holds (R64, R166). -/
def View.illegalIf (v : View) (bad : Bool) : List TrapReq :=
  if bad then [trapReq causeIllegalOp (encode v.i)] else []

/-- The field checks of the syllable; `onSpire` is whether a Spire core executes it (R26) (log 16, DEDUCED). -/
def View.illegal (v : View) (onSpire : Bool) : List TrapReq :=
  v.illegalIf (!v.i.wellFormed || (v.spire && !onSpire))

/-- PRIV at TL 0: Privileged() of R89. -/
def View.privileged (v : View) : List TrapReq := if v.st.tl = 0 then [trapReq causePriv 0] else []

/-- A syllable of a class with no operand and no effect yet, and the checks of R63, R64 and R26. -/
def View.syl (v : View) (cls : Cls) (onSpire : Bool) : Syl where
  cls := cls
  cluster := 0
  dests := []
  specials := []
  reads := []
  names := []
  static := v.illegal onSpire
  dyn := []
  blocked := false
  fbcWait := []
  starved := false
  image := none
  begins := .nothing
  loop := .none
  effects := []

/-- The strand special register that mts names by a number, if there is one (R153, R159). -/
def specialOf (n : Nat) : List Reg := if n < 12 then [.sp n] else []

/-- The special registers that `loop` changes, beside which mts may not write (R159): STAT, of which it clears fields, is none of
them (log 16, DEDUCED). -/
def loopSpecials : List Reg := [.sp 0, .sp 1, .sp 5]

/-- A result that lands in a register `lat` beats after the bundle (R80). -/
def View.landing (v : View) (reg : Reg) (val : Val) (lat : Nat) : Landing where
  reg := reg
  val := val
  due := v.st.beat + lat
  seq := v.s.seq
  flags := 0
  cvtSat := 0
  nanScale := 0
  taint := none

/-! ### Handles (R97 to R100) -/

def Handle.valid (h : Handle) : Bool := h.w0.getLsbD 31
def Handle.rev (h : Handle) : Bool := h.w0.getLsbD 30
def Handle.win (h : Handle) : Bool := h.w0.getLsbD 29
def Handle.aper (h : Handle) : Nat := h.w0.toNat / 2 ^ 27 % 4
def Handle.permR (h : Handle) : Bool := h.w0.getLsbD 26
def Handle.permW (h : Handle) : Bool := h.w0.getLsbD 25
def Handle.permLa (h : Handle) : Bool := h.w0.getLsbD 24
def Handle.permRa (h : Handle) : Bool := h.w0.getLsbD 23
def Handle.disc (h : Handle) : Bool := h.w0.getLsbD 22
def Handle.mig (h : Handle) : Bool := h.w0.getLsbD 21
def Handle.idx (h : Handle) : Nat := h.w0.toNat % 256

/-- The handle after a write of its translation entry: V 0 and REV 1 (R101). -/
def Handle.revoke (h : Handle) : Handle := { h with w0 := (h.w0 &&& 0x7FFFFFFF) ||| 0x40000000 }

/-- The handle with V and REV cleared (R115). -/
def Handle.clear (h : Handle) : Handle := { h with w0 := h.w0 &&& 0x3FFFFFFF }

/-- The kinds of a plain access (R89). -/
inductive Access where
  | load | store | atomic
deriving DecidableEq, Repr

/-- Bytes [a, a + n) lie wholly inside [b, b + size). -/
def inside (a n b size : Nat) : Bool := b ≤ a && a + n ≤ b + size

/-- Bytes [a, a + n) and [b, b + size) have a byte in common. -/
def meets (a n b size : Nat) : Bool := a < b + size && b < a + n && n != 0 && size != 0

/-- Which plain accesses a region admits (R182). -/
def Region.admits (r : Region) (bound : Bool) (kind : Access) : Bool :=
  match r.cls with
  | .priv => bound
  | .shared => true
  | .inbox => kind != .store
  | .weight => kind == .load

/-- The cell offset and the size of the spill carve-out (R181). -/
def Desc.carve (d : Desc) : Nat × Nat := (d.wbase + d.spoff, d.spill)

/-- The outcome of the region check on bytes [c, c + n) (R184): nothing, or the cause of its trap (log 17, DEDUCED). -/
def regionCheck (d : Desc) (bound : Bool) (kind : Access) (c n : Nat) : Option (BitVec 8) :=
  match d.regions.find? fun r => inside c n r.off r.size with
  | some r => if r.admits bound kind then none else some causeBounds
  | none =>
    let carve := d.carve
    if inside c n carve.1 carve.2 then (if bound then none else some causeBounds)
    else if d.regions.any (fun r => meets c n r.off r.size) || meets c n carve.1 carve.2 then some causeBounds
    else some causeDecl

/-- The detector of the SHARED region that holds a byte (R202). -/
def Cell.raceAt (c : Cell) (off : Nat) : Option Race := c.races.find? fun r => inside off 1 r.off r.size

/-- The conflict test of R202 for a context whose latest acquire is `lacq`. -/
def Race.conflict (r : Race) (ctx : Nat × Nat) (lacq : Nat) : Bool :=
  match r.wr with
  | none => false
  | some w => w != ctx && !(match r.wrel with
    | some c => c < lacq
    | none => false)

/-- What EA of R89 gives: a trap, or the cell offset with whether the page is discarded, and whether a store must wait for
a migration (R186). -/
inductive Ea where
  | trap (t : TrapReq)
  | ok (c : Nat) (disc mig : Bool)
deriving DecidableEq, Repr

/-- A load or store of one word by a Spire core in the part of its aperture-0 space where the module registers lie; its
alignment is checked after its place (R100, R414) (log 17, DEDUCED). -/
def spireWord (c n : Nat) (kind : Access) : Bool :=
  n == 4 && kind != .atomic &&
    (decide (0x400000 ≤ c ∧ c + 4 ≤ 0x600000) || decide (0x300000 ≤ c ∧ c + 4 ≤ 0x308000))

/-- EA of R89, in the order of R89 and R100 with the region check of R184 in its BOUNDS step (log 17, DEDUCED). -/
def View.ea (v : View) (hn : Nat) (off : Int) (n : Nat) (kind : Access) : Ea :=
  let h := v.rh hn
  let num : Word := BitVec.ofNat 32 hn
  let at' : Word := BitVec.ofInt 32 off
  if !h.valid then .trap (trapReq (if h.rev then causeHandleRevoked else causeHandleInvalid) num)
  else if h.aper ≠ 0 then .trap (trapReq causeNonlocal num)
  else
    let limit : Nat := if h.win then h.w2.toNat else 65536
    if off < 0 ∨ (limit : Int) < off + n then .trap (trapReq causeBounds at')
    else if kind ≠ .store ∧ h.permR = false then .trap (trapReq causeBounds at')
    else
      let o := off.toNat
      let c := if h.win then h.w1.toNat + o else h.w3.toNat * 65536 % 2 ^ 23 + o
      let region :=
        if v.spire then (if c + n ≤ 2 ^ 20 ∨ spireWord c n kind = true then none else some causeBounds)
        else regionCheck v.rcd.desc v.bound kind c n
      match region with
      | some cause => .trap (trapReq cause at')
      | none =>
        if o % n ≠ 0 then .trap (trapReq causeMisalign at')
        else if kind ≠ .load ∧ h.permW = false ∨ kind = .atomic ∧ h.permLa = false then
          .trap (trapReq causePermitW at')
        else if kind ≠ .load ∧ h.disc then .trap (trapReq causeDiscardWrite at')
        else
          match v.cell.raceAt c with
          | some r =>
            if r.conflict v.context v.st.lacq then .trap (trapReq causeMmRace at')
            else .ok c h.disc (h.mig && kind != .load)
          | none => .ok c h.disc (h.mig && kind != .load)

/-! ### The range-overlap scoreboard (R198, R199) -/

/-- Two ranges share a 128-byte line. -/
def lineOverlap (a : Nat × Nat) (off n : Nat) : Bool :=
  a.2 != 0 && n != 0 && a.1 / 128 ≤ (off + n - 1) / 128 && off / 128 ≤ (a.1 + a.2 - 1) / 128

/-- The bank that a repair command names: its first cell offset (R384, R426). -/
def repairBase (cmd : Word) : Nat :=
  (if cmd.getLsbD 29 then 0x200000 else 0) + cmd.toNat / 2 ^ 17 % 64 * 65536

/-- The bytes lie in a bank whose row or column is being copied: accesses wait (R426) (log 41, DEDUCED). -/
def Cell.underRepair (c : Cell) (off n : Nat) : Bool :=
  c.repairAt.isSome && meets off n (repairBase c.repaired) 65536

/-- One of some ranges lies in such a bank (log 41, DEDUCED). -/
def Cell.repairHolds (c : Cell) (rs : List (Nat × Nat)) : Bool := rs.any fun r => c.underRepair r.1 r.2

/-- A plain access is held by an engine command in flight: a load by its writes, a store or an atomic by both (R199). -/
def Cell.held (c : Cell) (kind : Access) (off n : Nat) : Bool :=
  c.underRepair off n || c.scb.any fun e =>
    e.writes.any (fun w => lineOverlap w off n) ||
    (kind != .load && e.reads.any fun r => lineOverlap r off n)

/-- A byte of [off, off + n) lies in a word whose code reads as uncorrectable: one so marked, or one with more than one bit
flipped (R180, R383) (log 12, DESIGN CHOICE). -/
def Cell.corrupt (c : Cell) (off n : Nat) : Bool :=
  (c.bad.any fun w => meets off n (8 * w) 8) ||
    c.flips.any fun x => x.store != 2 && decide (1 < x.bits.length) && meets off n (8 * x.word) 8

/-- The taint of a load of bytes whose code is uncorrectable (R180). -/
def loadTaint (v : View) (c n : Nat) (disc : Bool) : Option (BitVec 8) :=
  if !disc && v.cell.corrupt c n then some 0xC0 else none

/-- What the reads of some ranges find of planted errors (R180, R383). -/
def View.finds (v : View) (rs : List (Nat × Nat)) : List Effect :=
  if v.cell.flips.isEmpty then [] else rs.map fun r => .found r.1 r.2

end Sys2Proof.Machine
end

