-- ==== Sys2Proof/Machine/Landing.lean ====
section
/-! DEFINITION. Landing of fixed-latency results (R80 to R83), with the special registers (R155 to R159), revocation
(R101, R102) and taints (R430). -/

namespace Sys2Proof.Machine

/-- A taint of the strand with error tag `g`, by an event of the bundle with issue number `op`; the first of an iteration is
kept, and of several at one beat that of the earliest issued bundle (R430). -/
def Strand.taintWith (st : Strand) (g : BitVec 8) (op : Nat) : Strand :=
  if st.taint ∧ ¬ (st.taintAt.1 = st.beat ∧ op < st.taintAt.2) then st
  else { st with taint := true, etag := g, taintAt := (st.beat, op) }

/-- A write to a strand special register, by its number of R153: the fields of access RW (R155, R158). -/
def Strand.writeSp (st : Strand) (n : Nat) (x : Word) : Strand :=
  match n with
  | 0 => { st with lc := x }
  | 1 => { st with rrb := x.setWidth 3 }
  | 2 => { st with fpc := x.setWidth 4 }
  | 3 => { st with fpf := x.setWidth 5 }
  | 4 => { st with ltok := x }
  | 10 => { st with sdctrap := x.getLsbD 1 }
  | _ => st

/-- A write to a banked register by its place in the bank: TCAUSE, TPC, TVAL, TSTAT (ADV and RRB), TSAVE (R156). -/
def TrapBank.write (b : TrapBank) (n : Nat) (x : Word) : TrapBank :=
  match n with
  | 0 => { b with cause := x.setWidth 8 }
  | 1 => { b with pc := x.setWidth 15 }
  | 2 => { b with val := x }
  | 3 => { b with adv := x.getLsbD 7, rrb := x.setWidth 3 }
  | _ => { b with save := x }

/-- A write to a privileged register of the strand, by its number of R154. -/
def Strand.writePr (st : Strand) (n : Nat) (x : Word) : Strand :=
  if n = 0 then { st with tvec := BitVec.ofNat 9 (x.toNat / 64) }
  else if n ≤ 5 then { st with bank1 := st.bank1.write (n - 1) x }
  else if n ≤ 10 then { st with bank2 := st.bank2.write (n - 6) x }
  else if n = 11 then { st with xword := BitVec.ofNat 2 (x.toNat / 256), xidx := x.setWidth 8 }
  else st

/-- What `loop` writes at its landing: the taint fields always; RRB, LC and ITER when it starts an iteration (R342). -/
def Strand.loopLand (st : Strand) (start fixed : Bool) : Strand :=
  let st := { st with taint := false, etag := 0 }
  if start then
    { st with rrb := st.rrb - 1, lc := if fixed then st.lc - 1 else st.lc, iter := st.iter + 1 }
  else st

/-- One result reaches its register; s0 and q0 stay as they are (R90, R94) (log 14, DEDUCED). -/
def Strand.put (st : Strand) (reg : Reg) (val : Val) : Strand :=
  match reg, val with
  | .s n, .word x => if n = 0 then st else { st with s := st.s.setIfInBounds n x }
  | .q n, .word x => if n = 0 then st else { st with q := st.q.setIfInBounds n x }
  | .h n, .handle x => { st with h := st.h.setIfInBounds n x }
  | .v n, .vec x => { st with v := st.v.setIfInBounds n x }
  | .sp n, .word x => st.writeSp n x
  | .pr n, .word x => st.writePr n x
  | .iter, .loopStep start fixed => st.loopLand start fixed
  | _, _ => st

/-- The handle made from entry `i`, after a write of that entry (R101). -/
def Handle.revokeIf (i : Nat) (h : Handle) : Handle :=
  if h.valid && !h.win && h.idx == i then h.revoke else h

/-- The same for an xlat in flight or frozen as a replay entry (R102). -/
def Landing.revokeIf (i : Nat) (l : Landing) : Landing :=
  match l.val with
  | .handle h => { l with val := .handle (h.revokeIf i) }
  | _ => l

/-- Every handle of a strand, landed or not (R101, R102). -/
def Strand.revoke (i : Nat) (st : Strand) : Strand :=
  { st with
    h := st.h.map (Handle.revokeIf i)
    landing := st.landing.map (Landing.revokeIf i)
    bank1 := { st.bank1 with replay := st.bank1.replay.map (Landing.revokeIf i) }
    bank2 := { st.bank2 with replay := st.bank2.replay.map (Landing.revokeIf i) } }

/-- V of a translation entry's flags word (R354). -/
def XEntry.valid (e : XEntry) : Bool := e.flags.getLsbD 31

/-- A word of an entry of the translation set (R354). -/
def XEntry.word (e : XEntry) (w : Nat) : Word := if w = 0 then e.flags else if w = 1 then e.tag else e.frame

/-- The entry with one word written. -/
def XEntry.write (e : XEntry) (w : Nat) (x : Word) : XEntry :=
  if w = 0 then { e with flags := x } else if w = 1 then { e with tag := x } else { e with frame := x }

/-- An entry of the cell's translation set. -/
def Cell.xentry (c : Cell) (i : Nat) : XEntry := tget ⟨0, 0, 0⟩ c.xset i

/-- The first byte of the context slot of an entry (R337), and the bytes of a handle record (R97). -/
def slotAt (e : Nat) : Nat := 0x1C8000 + 0x3800 * e
def Handle.bytes (h : Handle) : List Byte := bytesOf [h.w0, h.w1, h.w2, h.w3]

/-- The saved handles as the context slots show them, after a revocation (R346). -/
def Cell.slotHandles (c : Cell) : Cell :=
  c.recs.foldl
    (fun c p =>
      match p.2.saved with
      | some st => { c with mem := memWrite c.mem (slotAt p.1 + 0x2100) (st.h.toList.flatMap Handle.bytes) }
      | none => c) c

/-- A write of a translation-set word: the entry changes, and every handle made from it is revoked, in the strands and in
the context slots (R101). -/
def Cell.writeX (c : Cell) (i w : Nat) (x : Word) : Cell :=
  Cell.slotHandles
    { c with
      xset := tput c.xset i ((c.xentry i).write w x)
      strands := c.strands.map (Strand.revoke i)
      recs := c.recs.map fun p => (p.1, { p.2 with saved := p.2.saved.map (Strand.revoke i) }) }

/-- One result reaches its register, of the strand or of the cell, with its counter increments and its taint
(log 14, DEDUCED) (log 15, DEDUCED). -/
def Cell.land (c : Cell) (k : Nat) (l : Landing) : Cell :=
  let c :=
    match l.reg, l.val with
    | .xd i w, .word x => c.writeX i w x
    | .pr n, .word x => if n = 13 then { c with tokexp := x } else c.onStrand k fun st => st.put l.reg l.val
    | _, _ => c.onStrand k fun st => st.put l.reg l.val
  let c :=
    match l.taint with
    | some g => c.onStrand k fun st => st.taintWith g l.seq
    | none => c
  c.count fun n => { n with cvtSat8 := countUpBy n.cvtSat8 l.cvtSat, nanScale := countUpBy n.nanScale l.nanScale }

/-- The results `ls` land together: their registers in order, so that of two handles made by one bundle the later address
stays, then their FPF flags, also those of a compare into q0 (R82, R135, R159) (log 14, DEDUCED). -/
def Cell.landAll (c : Cell) (k : Nat) (ls : List Landing) : Cell :=
  let c := ls.foldl (fun c l => c.land k l) c
  c.onStrand k fun st => { st with fpf := ls.foldl (fun f l => f ||| l.flags) st.fpf }

/-- The results due by beat `b` land and leave the queue, those of an earlier beat first (R80, R82). -/
def Cell.landUpTo (c : Cell) (k b : Nat) : Cell :=
  let st := c.strand k
  let c := c.setStrand k { st with landing := st.landing.filter fun l => b < l.due }
  (List.range (b + 1 - st.beat)).foldl
    (fun c i => c.landAll k (st.landing.filter fun l => if i = 0 then l.due ≤ st.beat else l.due = st.beat + i)) c

/-- What is due at the strand's present beat lands (log 53, DEDUCED). -/
def Cell.landDue (c : Cell) (k : Nat) : Cell :=
  if (c.strand k).landing.any fun l => l.due ≤ (c.strand k).beat then c.landUpTo k (c.strand k).beat else c

/-- A word whose bytes are all written gets a fresh code; one partly written stays marked (R180)
(log 12, DESIGN CHOICE). -/
def clearBad (bad : List Nat) (off n : Nat) : List Nat := bad.filter fun w => !inside (8 * w) 8 off n

/-- The bytes of the word that holds a planted error (R383). -/
def Flip.span (x : Flip) : Nat × Nat := if x.store = 2 then (0x600000 + 4 * x.word, 4) else (8 * x.word, 8)

/-- A word with more than one bit flipped that a store covers in part: it is marked from then on (R180, R383)
(log 12, DESIGN CHOICE). -/
def Flip.torn (x : Flip) (off n : Nat) : Bool :=
  x.store != 2 && decide (1 < x.bits.length) && meets x.span.1 x.span.2 off n && !inside x.span.1 x.span.2 off n

/-- Bytes written into a cell's memory by a plain store (R180, R187). -/
def Cell.storeBytes (c : Cell) (off : Nat) (bytes : List Byte) : Cell :=
  let n := bytes.length
  { c with
    mem := memWrite c.mem off bytes
    bad := clearBad c.bad off n ++ (c.flips.filter fun x => x.torn off n).map fun x => x.word
    flips := c.flips.filter fun x => !inside x.span.1 x.span.2 off n && !x.torn off n }

/-- A release of the context that strand `k` runs: the detectors that it wrote last record its cycle (R202). -/
def Cell.release (c : Cell) (k cycle : Nat) : Cell :=
  let ctx := ((c.strand k).recid.toNat, k)
  { c with races := c.races.map fun r => if r.wr = some ctx ∧ r.wrel = none then { r with wrel := some cycle } else r }

/-- An acquire of it (R202). -/
def Cell.acquire (c : Cell) (k cycle : Nat) : Cell := c.onStrand k fun st => { st with lacq := cycle }

end Sys2Proof.Machine
end

