-- ==== Sys2Proof/Machine/Weights.lean ====
section
/-! DEFINITION. The weight by which a strand is paced (R297, R298), and what cells read of their module (R160, R403). -/

namespace Sys2Proof.Machine

/-- WGT.EFF of a record (R298): the least of WGT.NOM, the module's pacing ceiling and the weights that controllers assign
it, as the consumer of an in-channel or as the producer of an out-channel (log 45, DEDUCED). The weight that an out-end
holds counts also when the end is CLOSED or DEAD, that of an in-end only while it is OPEN (log 33, DEDUCED). -/
def weightEff (pceil : Nat) (c : Cell) (rid : BitVec 16) (r : RecEntry) : Nat :=
  let ins := (c.ins.filter fun p => p.2.owner == rid && p.2.state == .opened).map fun p => p.2.wc
  let outs := (c.outs.filter fun p => p.2.owner == rid && p.2.weighted).map fun p => p.2.weight
  (ins ++ outs).foldl min (min r.desc.weight pceil)

/-- The present chip id of a module (R414). -/
def State.chip (s : State) (m : Nat) : Nat := (s.mod m).io.chip

/-- The cycle counter of a module (R402). -/
def State.cyc (s : State) (m : Nat) : BitVec 64 := (s.mod m).io.cyc

/-- WGT.EFF of the strand of a unit; that of a Spire core, which runs no record, is the ceiling (R298, R427)
(log 45, DEDUCED). -/
def State.weightEff (s : State) (m u k : Nat) : Nat :=
  let c := s.cell m u
  let st := c.strand k
  if c.spire then min 256 (s.mod m).io.ceilNow else Machine.weightEff (s.mod m).io.ceilNow c st.recid (c.record st.entry)

end Sys2Proof.Machine
end

