-- ==== Sys2Proof/Machine/Net.lean ====
section
/-! DEFINITION. Sending a message, the times of the paths inside a module (R16, R17, R19, R20), and delivering a result to a
waiting register (R84). -/

namespace Sys2Proof.Machine

/-- Row and column of a cell within its die (R12). -/
def rowOf (u : Nat) : Nat := cellOf u / 16
def colOf (u : Nat) : Nat := cellOf u % 16

def absDiff (a b : Nat) : Nat := (a - b) + (b - a)

/-- Cycles from a cell to the module switch: down its column and over the bridge (R16, R17). -/
def toSwitch (u : Nat) : Nat := if u < 1024 then 2 * (15 - rowOf u) + 8 else 0

/-- Uncontended cycles between two units of one module (R16, R17, R19) (log 5, DESIGN CHOICE). -/
def pathCycles (a b : Nat) : Nat :=
  if a < 1024 ∧ b < 1024 ∧ dieOf a = dieOf b then 2 * (absDiff (rowOf a) (rowOf b) + absDiff (colOf a) (colOf b))
  else toSwitch a + 6 + toSwitch b

/-- The address of a unit by its module's present chip id. -/
def State.addr (s : State) (m u : Nat) : Addr := ⟨s.chip m, u⟩

/-- The virtual channels of relaxed traffic (R433): their messages carry no order between each other (R19, R20). -/
def relaxedVc (vc : Nat) : Bool := vc == 1 || vc == 3 || vc == 4

/-- The answer of a queue, whose time R431 fixes. -/
def Body.isQueueAns (b : Body) : Bool :=
  match b with
  | .queueAns .. => true
  | _ => false

/-- A message leaves a unit: to a unit of the same module, or to the switch on its way to another chip. What stays in its cell
takes one cycle (R278), and a queue's answer the time of its path (R431). -/
def State.send (s : State) (m u strand : Nat) (dst : Addr) (vc : Nat) (body : Body) : State :=
  let here := s.chip m
  let time := if dst.chip = here then pathCycles u dst.unit else toSwitch u + 6
  let due := s.cycle + max 1 time +
    (if relaxedVc vc ∧ dst ≠ ⟨here, u⟩ ∧ body.isQueueAns = false then Config.relaxedDelay s.nextId else 0)
  { s with
    net := s.net ++ [⟨s.nextId, m, .inside due (dst.chip == here), ⟨here, u⟩, strand, dst, vc, body, []⟩]
    nextId := s.nextId + 1 }

/-- A unit as words name it: chip, die and cell in 20 bits; a Spire core by its NODE word (R160, R176), and the I/O die, which
has no number of its own, by die 0, cell 0 (log 5, DESIGN CHOICE). -/
def nodeBits (a : Addr) : Nat := a.chip * 1024 + (if isSpire a.unit then 0x80 + (a.unit - 1024) else a.unit % 1024)

/-! ### Links, cables and routes (R285, R318, R379, R380) -/

def IoDie.link (io : IoDie) (l : Nat) : Link := tget Link.reset io.links l
def State.link (s : State) (m l : Nat) : Link := (s.mod m).io.link l

/-- The other end of a cable (log 1, DESIGN CHOICE). -/
def State.farEnd (s : State) (p : Plug) : Option Plug :=
  s.cables.findSome? fun c => if c.1 = p then some c.2 else if c.2 = p then some c.1 else none

def IoDie.route (io : IoDie) (c : Nat) : Route := tget Route.reset io.routes c

/-- The links of an entry: MASK together with FIRST (R380) (log 36, DEDUCED). -/
def Route.set (r : Route) : List Nat := (List.range 64).filter fun l => r.mask.getLsbD l || l == r.first

/-- The links by which traffic of an entry goes on: for ordered traffic FIRST unless it is DOWN or ISOLATED, for relaxed traffic
every link of the set that is UP or in RETRAIN; none where no link of the set is (R380) (log 38, DEDUCED). -/
def IoDie.onward (io : IoDie) (r : Route) (relaxed : Bool) : List Nat :=
  let live := r.set.filter fun l => (io.link l).state == .up || (io.link l).state == .retrain
  if !r.v || live.isEmpty then []
  else if relaxed then live
  else if (io.link r.first).state = .down ∨ (io.link r.first).state = .isolated then []
  else [r.first]

/-- Traffic from a module to a chip finds a way through so many modules, over links that are not ISOLATED at the far end
(R285, R318, R380) (log 38, DEDUCED). -/
def State.routed (s : State) (relaxed : Bool) : Nat → Nat → Nat → Bool
  | 0, _, _ => false
  | n + 1, m, c =>
    let io := (s.mod m).io
    (io.route c).here || (io.onward (io.route c) relaxed).any fun l =>
      match s.farEnd ⟨m, l⟩ with
      | some q => (s.link q.m q.link).state != .isolated && s.routed relaxed n q.m c
      | none => true

/-- A module has a link that is UP at both ends. -/
def State.linked (s : State) (m : Nat) : Bool :=
  (s.mod m).io.links.any fun p => p.2.state == .up && (match s.farEnd ⟨m, p.1⟩ with
    | some q => (s.link q.m q.link).state == .up
    | none => false)

/-- The module that holds a chip id: of a failed module and the spare that has taken its id, the one that is not cut off
(R425) (log 50, DEDUCED). -/
def State.moduleOf (s : State) (chip : Nat) : Option Nat :=
  let holders := (s.mods.filter fun p => p.2.io.midValid && p.2.io.chip == chip).map fun p => p.1
  (holders.find? s.linked).or holders.head?

/-- A chip can be reached from a module, and the module from it, by the traffic of a channel whose MODE is relaxed or not
(R285, R318, R433) (log 38, DEDUCED). -/
def State.reaches (s : State) (m chip : Nat) (relaxed : Bool) : Bool :=
  let fuel := s.mods.length + 1
  chip == s.chip m || (s.routed relaxed fuel m chip &&
    (match s.moduleOf chip with
    | some m' => s.routed relaxed fuel m' (s.chip m)
    | none => true))

/-- The message of a given number, if it is in flight. -/
def State.msg (s : State) (id : Nat) : Option Msg := s.net.find? fun x => x.id == id

/-- The message is gone. -/
def State.dropMsg (s : State) (id : Nat) : State := { s with net := s.net.filter fun x => x.id != id }

/-- The message has reached its unit and is due. -/
def Msg.arrived (x : Msg) (cycle : Nat) : Bool :=
  match x.place with
  | .inside due final => final && due ≤ cycle
  | _ => false

/-- A message of the given number that has arrived (so that its step is due). -/
def State.arrival (s : State) (id : Nat) : Option Msg :=
  match s.msg id with
  | some x => if x.arrived s.cycle then some x else none
  | none => none

/-- A result waits for the start of a later cycle (R84). -/
def Cell.deliverAt (c : Cell) (due k op reg : Nat) (val : Word) (notes : List Note) : Cell :=
  { c with deliveries := c.deliveries ++ [⟨due, k, op, reg, val, notes⟩] }

/-- Deliver of R89: the pending register of operation `op` takes its value; a register that waits no more is left alone
(R175) (log 60, DEDUCED). -/
def Strand.deliver (st : Strand) (op reg : Nat) (val : Word) (notes : List Note) : Strand :=
  if st.pend.any fun p => p.op == op && p.reg == reg then
    { st.put (.s reg) (.word val) with
      pend := st.pend.filter fun p => !(p.op == op && p.reg == reg)
      delivered := if notes.isEmpty then st.delivered.filter (fun d => d.reg != reg)
        else st.delivered.filter (fun d => d.reg != reg) ++ [⟨reg, op, notes⟩] }
  else st

/-- The register `reg` waits for operation `op` from now on; register 0 of a token field is none (R63, R84)
(log 15, DEDUCED). -/
def Strand.await (st : Strand) (reg op : Nat) : Strand := { st with pend := st.pend ++ [⟨reg, op⟩] }

/-- The strand of a context: on its strand while its record runs there, or saved with its PARKED record. -/
def Cell.context (c : Cell) (k recid : Nat) : Strand :=
  let st := c.strand k
  if c.spire || (st.mode != .idle && st.recid.toNat == recid) then st
  else
    (c.recs.findSome? fun p =>
      if (recordId p.2.gen p.1).toNat = recid ∧ p.2.strand = k then p.2.saved else none).getD st

/-- The same, changed: on its strand while its record runs there, or saved with its PARKED record. -/
def Cell.onContext (c : Cell) (k recid : Nat) (f : Strand → Strand) : Cell :=
  let st := c.strand k
  if c.spire || (st.mode != .idle && st.recid.toNat == recid) then c.setStrand k (f st)
  else
    { c with recs := c.recs.map fun p =>
        if (recordId p.2.gen p.1).toNat = recid ∧ p.2.strand = k then
          (p.1, { p.2 with saved := p.2.saved.map f })
        else p }

end Sys2Proof.Machine
end

