-- ==== Sys2Proof/Machine/Errors.lean ====
section
/-! DEFINITION. Memory errors: planting them, finding them at a read, the error logs and the classifier (R180, R382 to
R386). -/

namespace Sys2Proof.Machine

/-! ### The classifier of a die (R384, R385) -/

/-- Entry `i` of the table of die `d`. -/
def IoDie.classAt (io : IoDie) (d i : Nat) : ClassEntry := tget ClassEntry.reset io.classifier (64 * d + i)

/-- A word of an entry as the window shows it (R384). -/
def ClassEntry.word (e : ClassEntry) (w : Nat) : Word :=
  match w with
  | 0 => BitVec.ofNat 32 (e.v.toNat * 2 ^ 31 + e.cls * 2 ^ 28 + e.store * 2 ^ 27 + e.req.toNat * 2 ^ 26 +
      e.celln * 2 ^ 16 + e.bank * 2 ^ 8)
  | 1 => BitVec.ofNat 32 (e.row * 2 ^ 16 + e.col)
  | 2 => BitVec.ofNat 32 e.count
  | _ => e.last

/-- The class after another error at a row and a column (R385): 0 CELL, 1 ROW, 2 COLUMN, 3 BANK (log 39, DEDUCED). -/
def ClassEntry.again (e : ClassEntry) (row col : Nat) : Nat :=
  match e.cls with
  | 0 =>
    if row = e.row then (if col = e.col then 0 else 1)
    else if col = e.col then 2
    else 3
  | 1 => if row = e.row then 1 else 3
  | 2 => if col = e.col then 2 else 3
  | _ => 3

/-- The entry that a new fault takes: a free one, else that of least COUNT, of equal ones the oldest (R385)
(log 39, DEDUCED). -/
def IoDie.classSlot (io : IoDie) (d : Nat) : Nat :=
  match (List.range 64).find? fun i => !(io.classAt d i).v with
  | some i => i
  | none =>
    (List.range 64).foldl
      (fun b i =>
        let x := io.classAt d i
        let y := io.classAt d b
        if x.count < y.count ∨ x.count = y.count ∧ x.last.toNat < y.last.toNat then i else b) 0

/-- A corrected error at word `off` of a store of cell `u` (R385), with the repair request that it may post (R386)
(log 39, DEDUCED). -/
def IoDie.classify (io : IoDie) (u store off : Nat) : IoDie :=
  let d := dieOf u
  let at' := if store = 0 then off else off - 0x200000
  let bank := at' / 65536
  let row := at' / 128 % 512
  let col := at' / 8 % 16
  let cyc : Word := io.cyc.setWidth 32
  let known := (List.range 64).find? fun i =>
    let e := io.classAt d i
    e.v && e.store == store && e.celln == cellOf u && e.bank == bank
  let i := known.getD (io.classSlot d)
  let e : ClassEntry :=
    match known with
    | some _ =>
      let e := io.classAt d i
      { e with count := min 0xFFFF (e.count + 1), cls := e.again row col, last := cyc }
    | none => ⟨true, 0, store, false, cellOf u, bank, row, col, 1, cyc⟩
  let posts := !e.req && decide (io.cethr ≤ e.count)
  let e := if posts then { e with req := true } else e
  { io with
    classifier := tput io.classifier (64 * d + i) e
    held := if posts then
        io.held ++ [⟨64 * d + i, [BitVec.ofNat 32 (0x04000000 + d * 2 ^ 16 + i), e.word 0, e.word 1, e.word 2]⟩]
      else io.held }

/-! ### The logs of a cell (R382) -/

/-- An error enters a log: a corrected one passes the entries with UE 1. -/
def ErrLog.add (l : ErrLog) (e : LogEntry) : ErrLog :=
  let slot := if e.ue then some l.index
    else ((List.range 8).map fun i => (l.index + i) % 8).find? fun i =>
      match l.entries[i]? with
      | some x => !(x.valid && x.ue)
      | none => false
  match slot with
  | some i => { l with entries := l.entries.set i e, index := (i + 1) % 8 }
  | none => { l with overflow := countUp l.overflow }

/-- A word of an entry (R382). -/
def LogEntry.word (e : LogEntry) (w : Nat) : Word :=
  match w with
  | 0 => BitVec.ofNat 32 (e.valid.toNat * 2 ^ 31 + e.ue.toNat * 2 ^ 30 + e.addr)
  | 1 => e.synd.setWidth 32
  | 2 => BitVec.ofNat 32 (e.recid * 2 ^ 16 + e.strand * 2 ^ 14 + e.source * 2 ^ 12)
  | _ => e.cycle

/-- The log after any write to its control word. -/
def ErrLog.clear (l : ErrLog) : ErrLog := ⟨l.entries.map fun e => { e with valid := false }, 0, 0⟩

def Cell.log (c : Cell) (store : Nat) : ErrLog := tget ErrLog.reset c.logs store

/-! ### Errors planted and found (R180, R383) -/

/-- One planted error is found by a read: it is corrected, or it stays as uncorrectable; an even number of flipped bits of a
syllable passes its parity. The syndrome is a free value (log 6, DESIGN CHOICE) (log 12, DESIGN CHOICE). -/
def State.findFlip (s : State) (m u k recid source : Nat) (x : Flip) : State :=
  let ue := if x.store = 2 then x.bits.length % 2 == 1 else decide (1 < x.bits.length)
  if x.store = 2 ∧ ue = false then s
  else
    let s := s.onCell m u fun c =>
      { c with flips := if ue then c.flips.map fun y => if y = x then { y with seen := true } else y
        else c.flips.filter fun y => y != x }
    let synd : BitVec 8 := if x.store = 2 then 0 else Config.syndrome s.free
    let cycle : Word := (s.cyc m).setWidth 32
    let entry : LogEntry := ⟨true, ue, x.span.1, synd, recid, k, source, cycle⟩
    let s := { s with free := s.free + 1 }.onCell m u fun c =>
      { c with logs := tput c.logs x.store ((c.log x.store).add entry) }
    if ue then s else s.onMod m fun y => { y with io := y.io.classify u x.store x.span.1 }

/-- A read of bytes [off, off + n) of a cell finds the errors planted there. `source` is SRCE of R382. -/
def State.found (s : State) (m u off n k recid source : Nat) : State :=
  ((s.cell m u).flips.filter fun x => !x.seen && meets off n x.span.1 x.span.2).foldl
    (fun s x => s.findFlip m u k recid source x) s

/-- The same for several ranges. -/
def State.foundAll (s : State) (m u : Nat) (rs : List (Nat × Nat)) (k recid source : Nat) : State :=
  rs.foldl (fun s r => s.found m u r.1 r.2 k recid source) s

/-- Flipping one bit of a code word twice restores it. -/
def toggle (bits : List Nat) (b : Nat) : List Nat :=
  if bits.contains b then bits.filter fun x => x != b else bits ++ [b]

/-- The bytes of a word with one of its data bits flipped; data bits are the low ones of the code word (log 12, DESIGN
CHOICE). -/
def flipByte (mem : List Host.Cell) (off b : Nat) : List Host.Cell :=
  memWrite mem (off + b / 8) [memByte mem (off + b / 8) ^^^ BitVec.ofNat 8 (2 ^ (b % 8))]

/-- The bits `bs` of the word at `target` of a store are flipped (R383). One flipped bit of a 64-bit word is corrected at
every read; two are not, and the word then reads as it is stored, until flips leave at most one (log 12, DESIGN CHOICE). -/
def Cell.plant (c : Cell) (store target : Nat) (bs : List Nat) : Cell :=
  let unit := if store = 2 then 4 else 8
  let base := if store = 2 then target - 0x600000 else target
  let word := base / unit
  let old := match c.flips.find? fun x => x.store == store && x.word == word with
    | some x => x.bits
    | none => []
  let bits := bs.foldl toggle old
  let dataBits (l : List Nat) : List Nat := if store = 2 then l.filter (fun b => b < 32)
    else if 1 < l.length then l.filter (fun b => b < 64) else []
  let mem := (dataBits old ++ dataBits bits).foldl (fun mem b => flipByte mem target b) c.mem
  { c with
    mem := mem
    flips := (c.flips.filter fun x => !(x.store == store && x.word == word)) ++
      (if bits.isEmpty then [] else [⟨store, word, bits, false⟩]) }

/-- A write of word 0 of an injection register with ARM = 1 takes effect: its target lies in the store, aligned, and its
bits lie in the code word (R383). -/
def injects (store : Nat) (w0 target : Word) : Option (List Nat) :=
  let t := target.toNat
  let two := w0.getLsbD 30
  let a := w0.toNat % 128
  let b := w0.toNat / 128 % 128
  let last := if store = 2 then 32 else 71
  let inStore := match store with
    | 0 => t < 0x200000 && t % 8 == 0
    | 1 => 0x200000 ≤ t && t < 0x600000 && t % 8 == 0
    | _ => 0x600000 ≤ t && t < 0x620000 && t % 4 == 0
  if inStore && decide (a ≤ last) && (!two || decide (b ≤ last)) then some (if two then [a, b] else [a]) else none

end Sys2Proof.Machine
end

