-- ==== Sys2Proof/Machine/Channels.lean ====
section
/-! DEFINITION. Channel ends: opening and closing, pushes, arrivals, releases, credits, notices and the rate controllers
(R269 to R302, R404). -/

namespace Sys2Proof.Machine

/-! ### Peer words (R273, R323) -/

def hostChip : Nat := 1023

/-- The unit that a peer word names, and the channel or endpoint number. -/
def peerAddr (w : Word) : Addr × Nat :=
  if w.toNat / 2 ^ 22 = hostChip then (⟨w.toNat / 2 ^ 10 % 1024, ioUnit⟩, w.toNat % 128)
  else (⟨w.toNat / 2 ^ 22, w.toNat / 2 ^ 12 % 1024⟩, w.toNat % 16)

def peerIsHost (w : Word) : Bool := w.toNat / 2 ^ 22 == hostChip

/-- The peer word of an end, with bit 11 as VALID where `valid` holds (R273, R432). -/
def peerWord (a : Addr) (chan : Nat) (valid : Bool) : Word :=
  BitVec.ofNat 32 (a.chip * 2 ^ 22 + a.unit * 2 ^ 12 + valid.toNat * 2 ^ 11 + chan)

def Cell.inCh (c : Cell) (n : Nat) : InChan := tget InChan.reset c.ins n
def Cell.outCh (c : Cell) (n : Nat) : OutChan := tget OutChan.reset c.outs n
def Cell.onIn (c : Cell) (n : Nat) (f : InChan → InChan) : Cell := { c with ins := tput c.ins n (f (c.inCh n)) }
def Cell.onOut (c : Cell) (n : Nat) (f : OutChan → OutChan) : Cell := { c with outs := tput c.outs n (f (c.outCh n)) }

/-- W of R274. -/
def slotStride (size : Nat) : Nat := 128 * ((16 + size + 127) / 128)

def InChan.slotAt (x : InChan) (k : Nat) : Nat := x.base + k * slotStride x.size

/-- The entry of the record cache that holds a record id, when it is not FREE (R333). -/
def Cell.entryOf (c : Cell) (rid : BitVec 16) : Option Nat :=
  let e := rid.toNat % 16
  if (c.record e).state != .free && recordId (c.record e).gen e == rid then some e else none

/-- The span of an in-channel lies wholly inside one PRIVATE or SHARED region of its owner (R274). -/
def InChan.spanOk (x : InChan) (d : Desc) : Bool :=
  d.regions.any fun r => (r.cls == .priv || r.cls == .shared) && inside x.base (x.slots * slotStride x.size) r.off r.size

/-! ### Opening and closing (R270, R271, R404, R432) -/

/-- An in-channel opens: its pointers, counts and monitors take their initial values, and its controller starts a period
(log 33, DEDUCED). -/
def InChan.openAt (x : InChan) (cycle : Nat) : InChan :=
  { x with
    state := .opened, occ := 0, popPtr := 0, relPtr := 0, popped := 0, arrived := [], claims := []
    wp := 256, wc := 256, wcNext := none, integ := 0, avg := 0, frozen := false, miss := false, sum := 0, frz := false
    start := cycle + 1, omin := 0, omax := 0, hist := List.replicate 16 0, binAt := none }

/-- An out-channel opens: FBC is SLOTS, and the peer's SIZE is recorded. -/
def OutChan.openAt (x : OutChan) (size : Nat) : OutChan :=
  { x with state := .opened, fbc := x.slots, wptr := 0, weight := 256, weightNext := none, weighted := false,
           peerSize := size, pblk := false, pstv := false, blk := 0, blkAt := none }

/-- SIZE of the end that a peer word names (R272, R325) (log 33, DEDUCED). -/
def State.peerSize (s : State) (m : Nat) (w : Word) : Nat :=
  let a := peerAddr w
  let m' := if a.1.chip = s.chip m then m else (s.moduleOf a.1.chip).getD m
  if peerIsHost w then
    let e := tget Egress.reset (s.mod m').io.egress a.2
    if e.size = 0 then 65536 else e.size
  else ((s.cell m' a.1.unit).inCh a.2).size

/-- An open notice for a host endpoint (R432). -/
def State.noteOpen (s : State) (m u : Nat) (peer : Word) (out : Bool) (chan : Nat) : State :=
  if peerIsHost peer then
    s.send m u 0 (peerAddr peer).1 6 (.openNote (peerAddr peer).2 out (peerWord (s.addr m u) chan true))
  else s

/-- The claims of an in-channel leave the scoreboard with it (R198). -/
def Cell.dropClaims (c : Cell) (n : Nat) : Cell :=
  { c with scb := c.scb.filter fun e => !((c.inCh n).claims.any fun q => q.op == e.op) }

/-- An end opened towards a peer: DEAD at once where the peer's chip cannot be reached (R285, R318) (log 38, DEDUCED). -/
def State.openState (s : State) (m : Nat) (peer : Word) (relaxed : Bool) : EndState :=
  if s.reaches m (peerAddr peer).1.chip relaxed then .opened else .dead

def State.openIn (s : State) (m u n : Nat) : State :=
  let x := (s.cell m u).inCh n
  let state := s.openState m x.peer x.mode
  (s.onCell m u fun c => (c.dropClaims n).onIn n fun x => { x.openAt s.cycle with state := state }).noteOpen m u x.peer false n

def State.openOut (s : State) (m u n : Nat) : State :=
  let x := (s.cell m u).outCh n
  let size := s.peerSize m x.peer
  let state := s.openState m x.peer x.mode
  (s.onCell m u fun c => c.onOut n fun x => { x.openAt size with state := state }).noteOpen m u x.peer true n

/-- An OPEN in-channel closes: its packets are discarded and its peer is told (R271). -/
def State.closeIn (s : State) (m u n : Nat) : State :=
  let x := (s.cell m u).inCh n
  if x.state = .opened then
    let s := s.onCell m u fun c => (c.dropClaims n).onIn n fun x =>
      { x with state := .closed, occ := 0, arrived := [], popped := 0, claims := [] }
    s.send m u 0 (peerAddr x.peer).1 6 (.close (peerAddr x.peer).2 true)
  else s

/-- An OPEN out-channel closes; its peer is unchanged (R271). -/
def State.closeOut (s : State) (m u n : Nat) : State :=
  s.onCell m u fun c => if (c.outCh n).state = .opened then c.onOut n fun x => { x with state := .closed } else c

/-- An end becomes DEAD (R285): only an OPEN one. -/
def Cell.killIn (c : Cell) (n : Nat) : Cell :=
  if (c.inCh n).state = .opened then c.onIn n fun x => { x with state := .dead } else c

def Cell.killOut (c : Cell) (n : Nat) : Cell :=
  let c := if (c.outCh n).state = .opened then c.onOut n fun x => { x with state := .dead } else c
  { c with pushes := c.pushes.map fun j =>
      { j with to' := j.to'.map fun t => if t.chan = n then { t with dead := true } else t } }

/-- Every end that a record owns. -/
def Cell.ownedIns (c : Cell) (rid : BitVec 16) : List Nat :=
  (c.ins.filter fun p => p.2.owner == rid).map fun p => p.1

def Cell.ownedOuts (c : Cell) (rid : BitVec 16) : List Nat :=
  (c.outs.filter fun p => p.2.owner == rid).map fun p => p.1

/-- The ends of a record close (R270, R335). -/
def State.closeEnds (s : State) (m u : Nat) (rid : BitVec 16) : State :=
  let c := s.cell m u
  let s := (c.ownedIns rid).foldl (fun s n => s.closeIn m u n) s
  (c.ownedOuts rid).foldl (fun s n => s.closeOut m u n) s

/-- The ends of a killed record become CLOSED here, and their peers DEAD through notices (R175, R285). -/
def State.deadEnds (s : State) (m u : Nat) (rid : BitVec 16) : State :=
  let c := s.cell m u
  let s := (c.ownedIns rid).foldl
    (fun s n =>
      let x := (s.cell m u).inCh n
      if x.state = .opened then
        let s := s.onCell m u fun c => (c.dropClaims n).onIn n fun x =>
          { x with state := .closed, occ := 0, arrived := [], popped := 0, claims := [] }
        s.send m u 0 (peerAddr x.peer).1 6 (.dead (peerAddr x.peer).2 true)
      else s) s
  (c.ownedOuts rid).foldl
    (fun s n =>
      let x := (s.cell m u).outCh n
      if x.state = .opened then
        (s.closeOut m u n).send m u 0 (peerAddr x.peer).1 6 (.dead (peerAddr x.peer).2 false)
      else s) s

/-! ### Pushing (R276, R277, R287, R291) -/

/-- What a push takes from its strand (R276, R283): SEQ of the trigger packet popped last, unless NEWSEQ or a fixed trip
count makes it the channel's own. -/
def pushInfo (st : Strand) (r : RecEntry) (newseq : Bool) : PushInfo where
  seq := if newseq || !r.desc.arrival then none else st.lastSeq
  poison := st.taint
  etag := st.etag
  recid := st.recid

/-- A push takes a slot of each out-channel: FBC falls, the write pointer advances, and PBLK and PSTV go with the packet
(R275, R277). SEQ comes from the trigger, and then no member's counter changes, or from the first channel's counter; the slot is
the first channel's: the others follow both (R291) (log 33, DEDUCED). -/
def Cell.takeSlots (c : Cell) (outs : List Nat) (seq : Option Word) : Cell × Word × List PushTo :=
  let own := (c.outCh (outs.headD 0)).seq
  let slot := (c.outCh (outs.headD 0)).wptr
  let to' := outs.map fun n =>
    let x := c.outCh n
    ({ chan := n, slot := slot, peer := x.peer, mode := x.mode, pblk := x.pblk, pstv := x.pstv, dead := false } :
      PushTo)
  let c := outs.foldl
    (fun c n => c.onOut n fun x =>
      { x with
        fbc := x.fbc - 1
        wptr := (slot + 1) % x.slots
        pblk := false
        pstv := false
        seq := if seq.isNone then own + 1 else x.seq }) c
  (c, seq.getD own, to')

/-- BLK counts a cycle in which a push waits on FBC = 0, however many of them wait (R404). -/
def OutChan.countBlk (x : OutChan) (cycle : Nat) : OutChan :=
  if x.blkAt.any fun p => p.1 == cycle then x
  else { x with blk := if x.blk = 0xFFFFFFFF then x.blk else x.blk + 1, blkAt := some (cycle, x.blk) }

/-- Word 3 of a packet's header (R275). -/
def producerWord (a : Addr) (k chan : Nat) : Word :=
  BitVec.ofNat 32 (a.chip * 2 ^ 22 + a.unit * 2 ^ 12 + k * 2 ^ 10 + chan)

/-- The packet of a push leaves on VC 0 or VC 1 (R278). -/
def State.sendPacket (s : State) (m u k : Nat) (to' : PushTo) (seq : Word) (eos poison : Bool) (etag : BitVec 8)
    (recid : BitVec 16) (payload : List Byte) : State :=
  let a := peerAddr to'.peer
  let p : Packet :=
    { slot := to'.slot, srcrec := recid, origin := producerWord (s.addr m u) k to'.chan, seq := seq, len := payload.length,
      eos := eos, pblk := to'.pblk, pstv := to'.pstv, poison := poison, etag := if poison then etag else 0,
      payload := payload }
  s.send m u k a.1 (if to'.mode then 1 else 0) (.packet a.2 p)

/-- The header of a packet as 16 bytes (R275). -/
def Packet.header (p : Packet) : List Byte :=
  bytesOf [p.seq,
    BitVec.ofNat 32 (p.poison.toNat * 2 ^ 31 + p.eos.toNat * 2 ^ 30 + p.pblk.toNat * 2 ^ 29 + p.pstv.toNat * 2 ^ 28 + p.len),
    BitVec.ofNat 32 (p.etag.toNat * 2 ^ 16 + p.srcrec.toNat),
    p.origin]

/-! ### Pushes and releases in progress -/

/-- No command earlier than `op` has an unfinished part that conflicts with these reads and this write (R198), and no bank
that they touch is being repaired (R426). -/
def Cell.scbClear (c : Cell) (op : Nat) (reads writes : List (Nat × Nat)) : Bool :=
  ((reads ++ writes).all fun r => !c.underRepair r.1 r.2) && c.scb.all fun e =>
    e.op ≥ op ||
      ((reads.all fun r => e.writesLeft.all fun x => !lineOverlap x r.1 r.2) &&
        writes.all fun w => (e.writesLeft ++ e.readsLeft).all fun x => !lineOverlap x w.1 w.2)

/-- A command enters the scoreboard (R198). -/
def Cell.scbAdd (c : Cell) (op k : Nat) (reads writes : List (Nat × Nat)) : Cell :=
  { c with scb := c.scb ++ [⟨op, k, reads, writes, reads, writes, op⟩] }

/-- A command has finished parts of its ranges: the rest is left; once it reads no more, its read ranges hold no plain
store back (R199). -/
def Cell.scbLeave (c : Cell) (op : Nat) (reads writes : List (Nat × Nat)) : Cell :=
  { c with scb := c.scb.map fun e =>
      if e.op = op then
        { e with reads := if reads.isEmpty then [] else e.reads, readsLeft := reads, writesLeft := writes }
      else e }

/-- A command leaves the scoreboard. -/
def Cell.scbDrop (c : Cell) (op : Nat) : Cell := { c with scb := c.scb.filter fun e => e.op != op }

/-- What a push has still to read: its first byte and how many. -/
def PushJob.left (j : PushJob) : Nat × Nat := (j.off + j.data.length, j.len - j.data.length)

/-- A push that has not begun begins its reads once no earlier command conflicts (R287, R198). -/
def Cell.startPush (c : Cell) (j : PushJob) : PushJob :=
  { j with begun := j.begun || c.scbClear j.op (if j.len = 0 then [] else [(j.off, j.len)]) [] }

/-- A push that has begun reads 128 bytes in a cycle, unless their bank is being repaired; the scoreboard holds what is left
(R198, R287, R426). -/
def State.readPush (s : State) (m u op : Nat) : State :=
  let c := s.cell m u
  match c.pushes.find? fun j => j.op == op with
  | none => s
  | some j =>
    let at' := j.left.1
    let n := min 128 j.left.2
    if !j.begun || n == 0 || c.underRepair at' n then s
    else
      let read (j : PushJob) : PushJob :=
        { j with data := j.data ++ memBytes c.mem at' n, bad := j.bad || c.corrupt at' n }
      (s.found m u at' n j.k j.recid 1).onCell m u fun c =>
        ({ c with pushes := c.pushes.map fun x => if x.op = op then read x else x } : Cell).scbLeave op
          (if j.left.2 = n then [] else [(at' + n, j.left.2 - n)]) []

/-- The pushes of a cell begin, and read their next bytes (R287). -/
def State.runPushes (s : State) (m u : Nat) : State :=
  let s := s.onCell m u fun c => { c with pushes := c.pushes.map c.startPush }
  (s.cell m u).pushes.foldl (fun s j => s.readPush m u j.op) s

/-- The push has read its last byte. -/
def PushJob.done (j : PushJob) : Bool := j.begun && decide (j.len ≤ j.data.length)

/-- A push completes: its packets leave, and st is delivered in the next cycle (R287, R291). -/
def State.completePush (s : State) (m u : Nat) (j : PushJob) : State :=
  let s := j.to'.foldl
    (fun s t => if t.dead then s else
      s.sendPacket m u j.k t j.seq j.eos (j.poison || j.bad) (if j.poison then j.etag else 0xC0) (BitVec.ofNat 16 j.recid)
        j.data) s
  let here := s.chip m
  s.onCell m u fun c =>
    let c := { c.scbDrop j.op with pushes := c.pushes.filter fun x => x.op != j.op }
    let dead := j.to'.find? fun t => t.dead
    let c := match dead with
      | some t => c.onContext j.k j.recid fun st =>
          { st with errs := st.errs ++ [⟨j.op, false, causeChanDead, BitVec.ofNat 32 t.chan, 0, here, u⟩] }
      | none => c
    if j.t = 0 then c
    else
      match dead with
      | some t => c.deliverAt (s.cycle + 1) j.k j.op j.t (Config.errorValue j.op)
          [.trap j.op causeChanDead (BitVec.ofNat 32 t.chan)]
      | none => c.deliverAt (s.cycle + 1) j.k j.op j.t j.seq []

/-- The slots that a release frees. -/
def InChan.relSlots (x : InChan) (n : Nat) : List Nat := (List.range n).map fun i => (x.relPtr + i) % x.slots

/-- The spans of the `n` slots from slot `at'` on, as the scoreboard holds them for a release: two ranges when they run past
the ring's last slot (R289). -/
def InChan.relSpan (x : InChan) (at' n : Nat) : List (Nat × Nat) :=
  let first := min n (x.slots - at' % x.slots)
  let span (k i : Nat) : List (Nat × Nat) := if i = 0 then [] else [(x.slotAt k, i * slotStride x.size)]
  span (at' % x.slots) first ++ span 0 (n - first)

/-- A release takes effect: the slots are free, and their credits go to the peer of an OPEN end, also those of a slot that an
spop has claimed and whose packet has not arrived (R285, R289) (log 33, DEDUCED). -/
def State.completeRel (s : State) (m u : Nat) (j : RelJob) : State :=
  let x := (s.cell m u).inCh j.chan
  let s := s.onCell m u fun c =>
    { (c.onIn j.chan fun x =>
        { x with
          occ := x.occ - j.n
          relPtr := (x.relPtr + j.n) % x.slots
          popped := x.popped - j.n
          arrived := x.arrived.filter fun a => !(x.relSlots j.n).contains a.slot }).scbDrop j.op with
      rels := c.rels.filter fun r => r.op != j.op }
  if x.state = .opened ∧ j.n ≠ 0 then
    s.send m u 0 (peerAddr x.peer).1 6 (.credit (peerAddr x.peer).2 j.n j.chan)
  else s

/-! ### Arrivals -/

def InChan.en (x : InChan) : Bool := x.rate0.getLsbD 31

/-- A period of the controller is under way. -/
def InChan.runs (x : InChan) (cycle : Nat) : Bool := x.en && decide (x.start ≤ cycle)

/-- A fault entry waits in its cell for its queue: at most one for each source (R331) (log 35, DEDUCED). -/
def Cell.postFault (c : Cell) (src : Nat) (words : List Word) : Cell :=
  if c.faults.any fun f => f.src == src then c else { c with faults := c.faults ++ [⟨src, words⟩] }

/-- The node word of R176 with STRAND and TL zero. -/
def nodeWord (a : Addr) : Word := BitVec.ofNat 32 (a.chip * 2 ^ 22 + a.unit * 2 ^ 12)

/-- A packet reaches its in-channel: it fills its slot, or is discarded where the end is not OPEN (R271, R278, R282,
R283, R296). -/
def Cell.packetIn (c : Cell) (here : Addr) (cycle n : Nat) (p : Packet) : Cell :=
  let x := c.inCh n
  if x.state ≠ .opened then c
  else
    let at' := x.slotAt p.slot
    let c := c.storeBytes at' (p.header ++ p.payload)
    let words := (List.range ((p.len + 7) / 8)).map fun i => (at' + 16) / 8 + i
    let c := if p.poison then { c with bad := c.bad ++ words.filter fun w => !c.bad.contains w } else c
    let lost := (c.entryOf x.owner).isNone
    let c := if lost && !x.miss then
        c.postFault (4 + n) [BitVec.ofNat 32 (0x02000000 + n * 2 ^ 16 + x.owner.toNat), nodeWord here, p.seq, 0]
      else c
    c.onIn n fun x =>
      { x with
        occ := x.occ + 1
        arrived := x.arrived ++ [⟨p.slot, p.seq, p.eos, p.poison, p.etag⟩]
        frz := x.frz || (x.runs cycle && (p.pblk || p.pstv))
        miss := x.miss || lost }

/-- The packet's slot lies in a bank under repair, so that its write waits (R426) (log 41, DEDUCED). -/
def Cell.slotUnderRepair (c : Cell) (n : Nat) (p : Packet) : Bool :=
  (c.inCh n).state == .opened && c.underRepair ((c.inCh n).slotAt p.slot) (16 + p.payload.length)

/-- The head packet of an in-channel: the packet in the slot at the pop pointer, where all slots are popped and unreleased
one that has been popped already (R281) (log 33, DEDUCED). -/
def InChan.head (x : InChan) : Option Arrived := x.arrived.find? fun a => a.slot == x.popPtr

/-- The oldest claim of an in-channel that can be delivered: its packet has arrived, or its end is DEAD (R285, R288). -/
def InChan.dueClaim (x : InChan) : Option Claim :=
  x.claims.find? fun q => x.arrived.any (fun a => a.slot == q.slot) || x.state == .dead

/-- An spop delivers the offset of its slot's header, or CHAN_DEAD (R285, R288). -/
def Cell.popDeliver (c : Cell) (n : Nat) (q : Claim) : Cell :=
  let x := c.inCh n
  let c := (c.scbDrop q.op).onIn n fun x => { x with claims := x.claims.filter fun y => y.op != q.op }
  match x.arrived.find? fun a => a.slot == q.slot with
  | some a =>
    c.onContext q.k q.recid fun st => st.deliver q.op q.t (BitVec.ofNat 32 (x.slotAt q.slot))
      (.popped n a.seq q.own :: (if a.poison then [.taint a.etag] else []))
  | none =>
    c.onContext q.k q.recid fun st => st.deliver q.op q.t (Config.errorValue q.op)
      [.trap q.op causeChanDead (BitVec.ofNat 32 n)]

/-! ### The rate controller (R294 to R299) -/

def InChan.per (x : InChan) : Nat := x.rate0.toNat / 2 ^ 24 % 32
def InChan.gi (x : InChan) : Nat := x.rate0.toNat / 2 ^ 20 % 16
def InChan.gp (x : InChan) : Nat := x.rate0.toNat / 2 ^ 16 % 16
def InChan.sp (x : InChan) : Nat := x.rate0.toNat % 64
def InChan.wmax (x : InChan) : Nat := x.rate1.toNat / 2 ^ 16 % 512
def InChan.wmin (x : InChan) : Nat := x.rate1.toNat % 512

/-- Sat of R89 on integers. -/
def clampInt (x lo hi : Int) : Int := max lo (min hi x)

/-- The end of a period: I, AVG, the flag and the two weights (R296). -/
def InChan.endPeriod (x : InChan) (cycle : Nat) : InChan :=
  let avg := x.sum * 256 / 2 ^ x.per
  let e : Int := (avg : Int) - x.sp * 256
  let i : Int := if x.frz then x.integ else clampInt (x.integ + e) (-4096) 4096
  let u : Int := e.fdiv (2 ^ x.gp) + i.fdiv (2 ^ x.gi)
  { x with
    avg := avg
    integ := i
    frozen := x.frz
    wp := (clampInt (256 - u) x.wmin x.wmax).toNat
    wcNext := some (cycle + 1, (clampInt (256 + u) x.wmin x.wmax).toNat)
    sum := 0
    frz := false
    start := cycle + 1 }

/-- The last cycle of a period (R296). -/
def InChan.periodEnds (x : InChan) (cycle : Nat) : Bool :=
  x.en && x.state == .opened && cycle + 1 == x.start + 2 ^ x.per

/-- What a channel samples at the start of a cycle: its monitors and its controller's sum (R296, R404). -/
def InChan.sample (x : InChan) (cycle : Nat) : InChan :=
  if x.state ≠ .opened then { x with binAt := none }
  else
    let bin := 16 * x.occ / (x.slots + 1)
    let was := x.hist.getD bin 0
    { x with
      omin := min x.omin x.occ
      omax := max x.omax x.occ
      hist := if was = 0xFFFFFFFF then x.hist else x.hist.set bin (was + 1)
      binAt := some (bin, was)
      sum := if x.runs cycle then x.sum + x.occ else x.sum
      frz := x.frz || (x.runs cycle && x.occ == x.slots) }

/-- A strand of the consumer waits on an FBC or a need in this cycle (R296). -/
def Cell.freezeControllers (c : Cell) (cycle : Nat) : Cell :=
  { c with ins := c.ins.map fun p =>
      (p.1, if p.2.runs cycle && c.strands.toList.any (fun st => st.mode == .running && st.recid == p.2.owner &&
          st.fbcWait == some cycle) then { p.2 with frz := true } else p.2) }

/-- The controller of an in-channel ends its period: the producer's weight goes to its cell on VC 6 (R296). -/
def State.endPeriod (s : State) (m u n : Nat) : State :=
  let s := s.onCell m u fun c => c.onIn n fun x => x.endPeriod s.cycle
  let x := (s.cell m u).inCh n
  s.send m u 0 (peerAddr x.peer).1 6 (.weight (peerAddr x.peer).2 (BitVec.ofNat 32 x.wp))

/-- The consumer's weight of a period is applied in the cycle after it (R279, R296). -/
def InChan.applyWeight (x : InChan) (cycle : Nat) : InChan :=
  match x.wcNext with
  | some (at', w) => if at' ≤ cycle then { x with wc := w, wcNext := none } else x
  | none => x

/-- A weight is applied in the cycle after its arrival (R296). -/
def OutChan.applyWeight (x : OutChan) (cycle : Nat) : OutChan :=
  match x.weightNext with
  | some (at', w) => if at' ≤ cycle then { x with weight := w, weighted := true, weightNext := none } else x
  | none => x

/-! ### The steps of channels that are not syllables -/

/-- PACKET_ARRIVAL at an in-channel (R278). -/
def execPacketArrival (s : State) : Out :=
  match s.arrival s.focus.j with
  | some x =>
    match x.body with
    | .packet n p =>
      if x.dst.unit < 1024 ∧ (s.cell x.mod x.dst.unit).slotUnderRepair n p = false then
        .next ((s.dropMsg x.id).onCell x.mod x.dst.unit fun c => c.packetIn x.dst s.cycle n p)
      else .refused (.eventNotDue "PACKET_ARRIVAL")
    | _ => .refused (.eventNotDue "PACKET_ARRIVAL")
  | none => .refused (.eventNotDue "PACKET_ARRIVAL")

/-- A credit at an out-channel: FBC grows; a closed end drops it (R271, R277). -/
def Cell.creditIn (c : Cell) (n k : Nat) : Cell :=
  if (c.outCh n).state = .opened then c.onOut n fun x => { x with fbc := x.fbc + k } else c

/-- CREDIT_ARRIVAL at an out-channel, or at an ingress endpoint of the I/O die (R277, R324). -/
def execCreditArrival (s : State) : Out :=
  match s.arrival s.focus.j with
  | some x =>
    match x.body with
    | .credit n k _ =>
      if x.dst.unit < 1024 then .next ((s.dropMsg x.id).onCell x.mod x.dst.unit fun c => c.creditIn n k)
      else .next ((s.dropMsg x.id).onMod x.mod fun y => { y with io := { y.io with
        ingress := tput y.io.ingress n
          { tget Ingress.reset y.io.ingress n with fbc := (tget Ingress.reset y.io.ingress n).fbc + k } } })
    | _ => .refused (.eventNotDue "CREDIT_ARRIVAL")
  | none => .refused (.eventNotDue "CREDIT_ARRIVAL")

/-- A vector is signalled to the host. -/
def State.signal (s : State) (m vec : Nat) : State :=
  s.onMod m fun y => { y with io := { y.io with msix := y.io.msix ++ [(s.cycle, vec)] } }

/-- One bit of the ready bitmap; every change raises RDYVEC (R414, R419). -/
def State.setReady (s : State) (m w b : Nat) (on : Bool) : State :=
  let io := (s.mod m).io
  let old := tget 0 io.ready w
  let new : Word := if on then old ||| BitVec.ofNat 32 (2 ^ b) else old &&& ~~~(BitVec.ofNat 32 (2 ^ b))
  if new = old then s
  else
    let s := s.onMod m fun x => { x with io := { x.io with ready := tput x.io.ready w new } }
    if io.rdyvec.getLsbD 31 then s.signal m (io.rdyvec.toNat % 64) else s

/-- A change of an endpoint's PST to `v` by a notice (R432): an ingress endpoint or an egress endpoint. -/
def State.setPst (s : State) (m ep : Nat) (egress : Bool) (v : Nat) : State :=
  let io := (s.mod m).io
  if egress then
    let e := tget Egress.reset io.egress ep
    let s := s.onMod m fun y => { y with io := { y.io with egress := tput y.io.egress ep { e with pst := v } } }
    if e.en && v != 1 && v != e.pst then s.signal m e.vec else s
  else
    let e := tget Ingress.reset io.ingress ep
    let s := s.onMod m fun y => { y with io := { y.io with ingress := tput y.io.ingress ep { e with pst := v } } }
    if e.nven && v != 1 && v != e.pst then s.signal m e.nvec else s

/-- CLOSE_NOTICE (R271, R432). -/
def execCloseNotice (s : State) : Out :=
  match s.arrival s.focus.j with
  | some x =>
    match x.body with
    | .close n _ =>
      if x.dst.unit < 1024 then
        .next ((s.dropMsg x.id).onCell x.mod x.dst.unit fun c =>
          if (c.outCh n).state = .opened then c.onOut n fun y => { y with state := .closed } else c)
      else .next ((s.dropMsg x.id).setPst x.mod n false 2)
    | _ => .refused (.eventNotDue "CLOSE_NOTICE")
  | none => .refused (.eventNotDue "CLOSE_NOTICE")

/-- DEAD_NOTICE (R285, R432): `toOut` tells which kind of end the channel number names. For a host endpoint it names the
end that died: an in-channel's endpoint is an ingress endpoint. -/
def execDeadNotice (s : State) : Out :=
  match s.arrival s.focus.j with
  | some x =>
    match x.body with
    | .dead n toOut =>
      if x.dst.unit < 1024 then
        .next ((s.dropMsg x.id).onCell x.mod x.dst.unit fun c => if toOut then c.killOut n else c.killIn n)
      else .next ((s.dropMsg x.id).setPst x.mod n (!toOut) 3)
    | _ => .refused (.eventNotDue "DEAD_NOTICE")
  | none => .refused (.eventNotDue "DEAD_NOTICE")

/-- WEIGHT_ARRIVAL: applied in the next cycle; dropped where the end is not OPEN; stored by a host endpoint (R296, R298,
R303). -/
def execWeightArrival (s : State) : Out :=
  match s.arrival s.focus.j with
  | some x =>
    match x.body with
    | .weight n w =>
      if x.dst.unit < 1024 then
        .next ((s.dropMsg x.id).onCell x.mod x.dst.unit fun c =>
          if (c.outCh n).state = .opened then
            c.onOut n fun y => { y with weightNext := some (s.cycle + 1, w.toNat) } else c)
      else .next ((s.dropMsg x.id).onMod x.mod fun y => { y with io := { y.io with
        ingress := tput y.io.ingress n { tget Ingress.reset y.io.ingress n with wgt := w.toNat } } })
    | _ => .refused (.eventNotDue "WEIGHT_ARRIVAL")
  | none => .refused (.eventNotDue "WEIGHT_ARRIVAL")

/-- CONTROLLER_PERIOD_END of in-channel `focus.j` (R296). -/
def execControllerPeriodEnd (s : State) : Out :=
  let f := s.focus
  if ((s.cell f.m f.u).inCh f.j).periodEnds s.cycle then .next (s.endPeriod f.m f.u f.j)
  else .refused (.eventNotDue "CONTROLLER_PERIOD_END")

/-- PUSH_COMPLETE of the push with number `focus.j` (R287). -/
def execPushComplete (s : State) : Out :=
  let f := s.focus
  match (s.cell f.m f.u).pushes.find? fun j => j.op == f.j && j.done with
  | some j => .next (s.completePush f.m f.u j)
  | none => .refused (.eventNotDue "PUSH_COMPLETE")

/-- SPOP_DELIVERY of in-channel `focus.j` (R288). -/
def execSpopDelivery (s : State) : Out :=
  let f := s.focus
  match ((s.cell f.m f.u).inCh f.j).dueClaim with
  | some q => .next (s.onCell f.m f.u fun c => c.popDeliver f.j q)
  | none => .refused (.eventNotDue "SPOP_DELIVERY")

/-- A release may take effect: no earlier command still reads or writes its slots (R289). -/
def Cell.relDue (c : Cell) (j : RelJob) : Bool :=
  c.scbClear j.op [] ((c.inCh j.chan).relSpan (c.inCh j.chan).relPtr j.n)

/-- SREL_RELEASE of the release with number `focus.j` (R289). -/
def execSrelRelease (s : State) : Out :=
  let f := s.focus
  match (s.cell f.m f.u).rels.find? fun j => j.op == f.j && (s.cell f.m f.u).relDue j with
  | some j => .next (s.completeRel f.m f.u j)
  | none => .refused (.eventNotDue "SREL_RELEASE")

end Sys2Proof.Machine
end

