-- ==== Sys2Proof/Machine/Array.lean ====
section
/-! DEFINITION. The array of a cell at work: the expander, the pass unit, the drain unit and the steps in which they act
(R213 to R230, R237 to R241). -/

namespace Sys2Proof.Machine

def ArrayUnit.bank (a : ArrayUnit) (b : Nat) : Bank := a.banks.getD b Bank.empty
def ArrayUnit.onBank (a : ArrayUnit) (b : Nat) (f : Bank → Bank) : ArrayUnit := { a with banks := a.banks.modify b f }
def ArrayUnit.setAt (a : ArrayUnit) (n : Nat) : MatrixSet := tget MatrixSet.reset a.sets n
def ArrayUnit.row (a : ArrayUnit) (r : Nat) : AccRow := tget AccRow.empty a.rows r
def ArrayUnit.chain (a : ArrayUnit) (n : Nat) : Chain := tget Chain.empty a.chains n
def Cell.onArr (c : Cell) (f : ArrayUnit → ArrayUnit) : Cell := { c with arr := f c.arr }

/-- Who works an entry of the array queue: the expander, the pass unit, the drain unit, the drain unit after an mmul's pass,
or no unit (R218). -/
inductive ArrayWork where
  | expand | pass | drain | tail | none
deriving DecidableEq, Repr

/-- The array commands that have not ended, in the order of issue. A pass whose rows have all been fed has left its unit
(R218, R219). -/
def ArrayUnit.entries (a : ArrayUnit) : List (Nat × ArrayWork) :=
  sortBy (fun x => x.1) ((a.wlds.map fun w => (w.op, .expand)) ++
    ((a.passes.filter fun p => p.swap || decide (p.next < p.m.rows)).map fun p => (p.op, .pass)) ++
    (a.drains.map fun d => (d.op, if d.queued then .drain else .tail)) ++
    (a.armings.filter fun g => g.endAt.isNone).map fun g => (g.op, .none))

/-- The entries that have left the queue, in its order: a unit takes its next command when it holds none; the drain of an
mmul leaves with its pass, and waits for the drain unit (R218) (log 31, DEDUCED). -/
def takenOf : List (Nat × ArrayWork) → List ArrayWork → List Nat
  | [], _ => []
  | (op, w) :: r, busy =>
    match w with
    | .none => op :: takenOf r busy
    | .tail => op :: takenOf r (.drain :: busy)
    | w => if busy.contains w then [] else op :: takenOf r (w :: busy)

def ArrayUnit.taken (a : ArrayUnit) : List Nat := takenOf a.entries []

/-- Commands in the array queue: those that have not left it; an mmul is one (R218) (log 31, DEDUCED). -/
def ArrayUnit.queued (a : ArrayUnit) : Nat :=
  let t := a.taken
  a.entries.countP fun x => x.2 != .tail && !t.contains x.1

/-! ### The expander (R214 to R216, R237) -/

/-- The parts of a wld's ranges that lie in the D-store (log 31, DEDUCED). -/
def WldCmd.reads (w : WldCmd) : List (Nat × Nat) :=
  [(w.data, tileBytes w.fmt), (w.scales, 256)].filter fun r => r.1 < 0x200000

def WldCmd.tile (w : WldCmd) (c : Cell) : List Byte × List Word :=
  (memBytes c.mem w.data (tileBytes w.fmt), wordsOf (memBytes c.mem w.scales 256))

/-- The bytes that a wld reads, in whichever store. -/
def WldCmd.ranges (w : WldCmd) : List (Nat × Nat) := [(w.data, tileBytes w.fmt), (w.scales, 256)]

/-- Cycles of a wld (R215). -/
def WldCmd.cycles (w : WldCmd) (c : Cell) : Nat :=
  let t := w.tile c
  let rate := if w.reads.isEmpty then 256 else 128
  max ((tileBytes w.fmt + 256 + rate - 1) / rate) (16 * (expandTile w.fmt t.1 t.2 w.cols w.chk).1.pass)

/-- The wld that the expander may start in this cycle (R215, R216, R237): the earliest, once it has left the queue, every
earlier mswap has flipped, and its target bank is idle, can be written and was so before this cycle (log 31, DEDUCED). -/
def Cell.nextWld (c : Cell) (cycle : Nat) : Option WldCmd :=
  match c.arr.wlds.head? with
  | none => none
  | some w =>
    let b := c.arr.bank w.bank
    if w.endAt.isNone && decide (w.issue < cycle) && c.arr.taken.contains w.op &&
        c.arr.passes.all (fun p => !p.swap || decide (w.op < p.op)) && w.bank != c.arr.act &&
        (b.state == .empty || b.state == .ready) &&
        decide (b.since < cycle ∨ b.since = 0) && c.scbClear w.op w.reads [] && !c.repairHolds w.ranges then some w
    else none

/-- WLD_EXPANSION_START (R215). -/
def execWldExpansionStart (s : State) : Out :=
  let f := s.focus
  match (s.cell f.m f.u).nextWld s.cycle with
  | none => .refused (.eventNotDue "WLD_EXPANSION_START")
  | some w =>
    .next (s.onCell f.m f.u fun c => c.onArr fun a =>
      { a.onBank w.bank (fun b => { b with state := .loading }) with
        wlds := a.wlds.map fun x => if x.op = w.op then { x with endAt := some (s.cycle + w.cycles c) } else x })

/-- The wld that ends at the start of this cycle, or once no bank that it reads is under repair (R237, R426). -/
def Cell.endingWld (c : Cell) (cycle : Nat) : Option WldCmd :=
  c.arr.wlds.find? fun w =>
    match w.endAt with
    | some e => decide (e ≤ cycle) && !c.repairHolds w.ranges
    | none => false

/-- An error of an array command that has no register waits for the strand's next array command (R234). -/
def Cell.arrayError (c : Cell) (op k recid u : Nat) (e : BitVec 8 × Word) : Cell :=
  c.onContext k recid fun st => { st with errs := st.errs ++ [⟨op, true, e.1, e.2, 0, 0, u⟩] }

/-- The end of an array command (R234): its delivery, with its taints and the first of its errors; the errors that do not
travel so wait (log 32, DEDUCED). -/
def Cell.arrayDone (c : Cell) (now due op k recid t : Nat) (val : Word) (errs : List (BitVec 8 × Word))
    (notes : List Note) : Cell :=
  let wait (errs : List (BitVec 8 × Word)) (c : Cell) : Cell := errs.foldl (fun c e => c.arrayError op k recid 0 e) c
  let c := c.scbDrop op
  if t = 0 then wait errs c
  else
    let c := wait (errs.drop 1) c
    let notes := notes ++ (errs.take 1).map fun e => .trap op e.1 e.2
    let val := if errs.isEmpty then val else Config.errorValue op
    if due ≤ now then c.onContext k recid fun st => st.deliver op t val notes
    else c.deliverAt due k op t val notes

/-- The end of a wld (R214, R237): its bank is READY, or EMPTY after WLD_FMT; WLD_RANGE and NAN_OUT count. -/
def Cell.endWld (c : Cell) (cycle : Nat) (w : WldCmd) : Cell :=
  let tile := w.tile c
  let c := c.onArr fun a => { a with wlds := a.wlds.filter fun x => x.op != w.op }
  match tileFault w.fmt tile.1 tile.2 with
  | some f =>
    let c := c.onArr fun a => a.onBank w.bank fun _ => { Bank.empty with since := cycle }
    c.arrayDone cycle cycle w.op w.k w.recid w.t 0 [(causeWldFmt, BitVec.ofNat 32 f)] []
  | none =>
    let (bank, flushed) := expandTile w.fmt tile.1 tile.2 w.cols w.chk
    let c := c.onArr fun a => a.onBank w.bank fun _ => { bank with since := cycle }
    let c := c.count fun n => { n with
      wldRange := countUpBy n.wldRange flushed
      nanOut := countUpBy n.nanOut (nanWeights w.fmt tile.1 w.cols) }
    c.arrayDone cycle cycle w.op w.k w.recid w.t
      (BitVec.ofNat 32 (min 0xFFFF flushed * 2 ^ 16 + (BitVec.ofInt 8 bank.x).toNat * 2 ^ 8 + bank.pass)) [] []

/-- WLD_COMPLETE (R237). -/
def execWldComplete (s : State) : Out :=
  let f := s.focus
  match (s.cell f.m f.u).endingWld s.cycle with
  | none => .refused (.eventNotDue "WLD_COMPLETE")
  | some w =>
    .next ((s.onCell f.m f.u fun c => c.endWld s.cycle w).foundAll f.m f.u w.ranges w.k w.recid 1)

/-! ### The pass unit (R216 to R223, R238, R239) -/

/-- The command that the pass unit works on: the first that has not fed all its rows, once it has left the queue
(log 31, DEDUCED). -/
def ArrayUnit.passHead (a : ArrayUnit) : Option PassCmd :=
  (a.passes.find? fun p => p.swap || decide (p.next < p.m.rows)).filter fun p => a.taken.contains p.op

/-- A bank is idle again: it drains while rows that entered with it are in the array, and one that was EMPTY stays so; it can
be written from this cycle on (R215, R216). -/
def ArrayUnit.retire (a : ArrayUnit) (b cycle : Nat) : ArrayUnit :=
  a.onBank b fun x =>
    if x.state = .active then
      { x with state := if a.flight.any (fun f => f.bank == b) then .draining else .ready, since := cycle }
    else { x with since := cycle }

/-- The last row of a draining bank has left the array (R216). -/
def ArrayUnit.settleBanks (a : ArrayUnit) (cycle : Nat) : ArrayUnit :=
  { a with banks := a.banks.mapIdx fun b x =>
      if x.state = .draining ∧ a.flight.all (fun f => f.bank != b) then { x with state := .ready, since := cycle } else x }

/-- The mswap that may flip in this cycle (R216): it heads the pass unit, and every wld issued before it has ended
(log 31, DEDUCED). -/
def Cell.nextSwap (c : Cell) (cycle : Nat) : Option PassCmd :=
  match c.arr.passHead with
  | some p =>
    if p.swap && decide (p.issue < cycle) && decide (c.arr.passFree ≤ cycle) && c.arr.wlds.all (fun w => w.op > p.op) then
      some p
    else none
  | none => none

/-- The flip (R216, R217, R238): ACT names the other bank, which may still be DRAINING (log 31, DEDUCED), and the new ACT is
delivered in the next cycle. -/
def Cell.flip (c : Cell) (cycle : Nat) (p : PassCmd) : Cell :=
  let act := 1 - c.arr.act
  let c := c.onArr fun a =>
    let a := a.retire a.act cycle
    { a.onBank act (fun b => if b.state = .empty then b else { b with state := .active }) with
      act := act
      passes := a.passes.filter fun x => x.op != p.op }
  c.arrayDone cycle (cycle + 1) p.op p.k p.recid p.t (BitVec.ofNat 32 act) [] []

/-- MSWAP_FLIP (R216). -/
def execMswapFlip (s : State) : Out :=
  let f := s.focus
  match (s.cell f.m f.u).nextSwap s.cycle with
  | none => .refused (.eventNotDue "MSWAP_FLIP")
  | some p => .next (s.onCell f.m f.u fun c => c.flip s.cycle p)

/-- The D-store ranges that a pass still reads: its activation rows and row scales from row `r` up (R235). -/
def PassCmd.reads (p : PassCmd) (r : Nat) : List (Nat × Nat) :=
  if r < p.m.rows then
    [(p.a + p.m.astr * r, p.m.astr * (p.m.rows - 1 - r) + 64), (p.m.ascl + 4 * r, 4 * (p.m.rows - r))]
  else []

def ArrayUnit.onPass (a : ArrayUnit) (op : Nat) (f : PassCmd → PassCmd) : ArrayUnit :=
  { a with passes := a.passes.map fun p => if p.op = op then f p else p }

/-- What feeding row `r` of a pass reads. -/
def PassCmd.rowReads (p : PassCmd) (r : Nat) : List (Nat × Nat) := [(p.a + p.m.astr * r, 64), (p.m.ascl + 4 * r, 4)]

/-- A pass whose rows have all been added: macc delivers in the next cycle; an mmul hands its poison and its error, which comes
before the drain's own, to its drain (R228, R234, R239) (log 32, DEDUCED). -/
def Cell.endPass (c : Cell) (cycle op : Nat) : Cell :=
  match c.arr.passes.find? fun p => p.op == op with
  | none => c
  | some p =>
    if p.done < p.m.rows then c
    else
      let c := c.onArr fun a => { a with passes := a.passes.filter fun x => x.op != op }
      match p.drainOp with
      | some d =>
        { c.scbDrop op with arr := { c.arr with drains := c.arr.drains.map fun x =>
            if x.op = d then
              { x with bad := x.bad || p.bad, actTaint := x.actTaint || p.actTaint, errs := p.err.toList ++ x.errs }
            else x } }
      | none =>
        c.arrayDone cycle (cycle + 1) op p.k p.recid p.t (BitVec.ofNat 32 (p.m.rows + p.bad.toNat * 2 ^ 31)) p.err.toList
          (if p.actTaint then [.taint 0xC0] else [])

/-- Row `r` of a pass that finds its bank EMPTY: the accumulators stay, the row is poisoned and its count advances; block 0
still sets the row's mode (R233). -/
def AccRow.poisonStep (row : AccRow) (scaled : Bool) : AccRow :=
  { row with n := row.n + 1, scaled := if row.n = 0 then scaled else row.scaled, poison := true }

/-- The pass unit feeds one row of its command, whose bank is `bank` (R219): its partials reach the accumulators 66 cycles
after the row's last feed. -/
def Cell.feedRow (c : Cell) (cycle : Nat) (p : PassCmd) : Cell :=
  let bank := c.arr.bank c.arr.act
  let r := p.next
  if bank.state = .empty then
    let c := c.onArr fun a =>
      { a.onPass p.op (fun p => { p with next := p.m.rows, done := p.m.rows, bad := true, started := true
                                         err := some (causeEngineErr, 0x01010001) }) with
        rows := (List.range p.m.rows).foldl (fun t r => tput t r ((a.row r).poisonStep (p.m.amode == 1))) a.rows }
    c.endPass cycle p.op
  else
    let acts := (memBytes c.mem (p.a + p.m.astr * r) 64).map fun b => b.toInt
    let mode := checkMode p.m.chk bank.mirror p.m.cols
    let cyc := bank.pass * (if mode = 2 then 2 else 1)
    let row : FlightRow :=
      { op := p.op, row := r, due := cycle + cyc - 1 + 66, bank := c.arr.act
        s := (List.range 64).map fun j => if j < p.m.cols then partialOf bank.planes acts 1 j else 0
        sa := memWord c.mem (p.m.ascl + 4 * r), x := bank.x, scales := bank.scales, loaded := bank.cols
        nanCols := bank.nanCols.filter fun j => j < p.m.cols
        poisoned := c.corrupt (p.a + p.m.astr * r) 64
        failed := checkFails bank acts p.m.cols mode }
    (c.onArr fun a =>
      { a.onPass p.op (fun p => { p with next := r + 1, started := true }) with
        flight := a.flight ++ [row]
        passFree := cycle + cyc }).scbLeave p.op (p.reads (r + 1)) []

/-- The pass unit in one cycle: it feeds the next row of its command when that row's turn has come, and no bank that holds
the row is under repair (R219, R426). -/
def Cell.feed (c : Cell) (cycle : Nat) : Cell :=
  match c.arr.passHead with
  | some p =>
    if !p.swap && decide (p.issue < cycle) && decide (c.arr.passFree ≤ cycle) &&
        (p.started || c.scbClear p.op (p.reads 0) []) && !c.repairHolds (p.rowReads p.next) &&
        ((c.arr.bank c.arr.act).state != .empty ||
          (c.arr.flight.all (fun f => f.op > p.op) && c.arr.drains.all fun d => d.op > p.op)) then c.feedRow cycle p
    else c
  | none => c

/-- The same as a step of the chain, with the planted errors that the row's reads find (R383). -/
def State.feed (s : State) (m u : Nat) : State :=
  let c := s.cell m u
  let c' := c.feed s.cycle
  match c.arr.passHead with
  | some p =>
    if c'.arr.passFree = c.arr.passFree then s.setCell m u c'
    else (s.setCell m u c').foundAll m u (p.rowReads p.next) p.k p.recid 1
  | none => s

/-- The row at the end of the array that may be added in this cycle: every earlier drain has read it (R220). -/
def Cell.nextFlight (c : Cell) (cycle : Nat) : Option FlightRow :=
  c.arr.flight.find? fun f => decide (f.due ≤ cycle) &&
    c.arr.drains.all fun d => !(decide (d.op < f.op) && decide (f.row < d.rows) && decide (d.next ≤ f.row) && d.out.isNone ||
      decide (d.op < f.op) && decide (f.row < d.rows) && decide (d.next < f.row))

/-- The addition of a row (R220 to R223): its K-block, its counts, its poison and its check. -/
def Cell.addFlight (c : Cell) (cycle : Nat) (f : FlightRow) : Cell :=
  match c.arr.passes.find? fun p => p.op == f.op with
  | none => c.onArr fun a => { a with flight := a.flight.filter fun x => !(x.op == f.op && x.row == f.row) }
  | some p =>
    let (row, sats, nan) := (c.arr.row f.row).add (p.m.amode == 1) f
    let poison := f.poisoned || f.failed
    let c := c.onArr fun a =>
      ({ a.onPass f.op (fun p =>
          { p with
            done := p.done + 1
            bad := p.bad || poison
            actTaint := p.actTaint || f.poisoned
            err := if f.failed && p.sdctrap then some (p.err.getD (causeSdc, BitVec.ofNat 32 p.set)) else p.err }) with
        rows := tput a.rows f.row { row with poison := row.poison || poison }
        flight := a.flight.filter fun x => !(x.op == f.op && x.row == f.row) }).settleBanks cycle
    let c := c.count fun n => { n with
      accSat := countUpBy n.accSat sats
      nanScale := countUpBy n.nanScale nan.toNat
      sdcMismatch := countUpBy n.sdcMismatch f.failed.toNat }
    c.endPass cycle f.op

/-- ARRAY_ROW_ACCUMULATE (R220). -/
def execArrayRowAccumulate (s : State) : Out :=
  let f := s.focus
  match (s.cell f.m f.u).nextFlight s.cycle with
  | none => .refused (.eventNotDue "ARRAY_ROW_ACCUMULATE")
  | some x => .next (s.onCell f.m f.u fun c => c.addFlight s.cycle x)

/-! ### The drain unit (R220, R228, R240) -/

def ArrayUnit.onDrain (a : ArrayUnit) (op : Nat) (f : DrainCmd → DrainCmd) : ArrayUnit :=
  { a with drains := a.drains.map fun d => if d.op = op then f d else d }

/-- The output channel of a drain's OUT node in channel mode (R228). -/
def DrainCmd.channel (d : DrainCmd) : Option Nat :=
  match findKind d.nodes kindOUT with
  | some n => if n.mode = 1 then some (d.dst % 16) else none
  | none => none

/-- The first byte of the ACCF tile, if the chain ends in ACCF. -/
def DrainCmd.accf (d : DrainCmd) : Option Nat := (findKind d.nodes kindACCF).map fun n => n.off

/-- The range that a drain writes from row `r` up (R235). -/
def DrainCmd.writes (d : DrainCmd) (r : Nat) : List (Nat × Nat) :=
  if d.rows ≤ r then []
  else
    match d.accf with
    | some off => [(off + 256 * r, 256 * (d.rows - r))]
    | none =>
      match d.channel with
      | some _ => []
      | none => [(d.dst + outStride d.nodes * r, outStride d.nodes * (d.rows - 1 - r) + outSize d.nodes)]

/-- The range of the RES or ACCF tile that a drain reads from row `r` up (R235). -/
def DrainCmd.tileReads (d : DrainCmd) (r : Nat) : List (Nat × Nat) :=
  match tileNode d.nodes with
  | some n => if d.rows ≤ r then [] else [(n.off + 256 * r, 256 * (d.rows - r))]
  | none => []

/-- What row `r` of a drain reads of its RES or ACCF tile, and what it writes. -/
def DrainCmd.rowReads (d : DrainCmd) (r : Nat) : List (Nat × Nat) :=
  match tileNode d.nodes with
  | some n => [(n.off + 256 * r, 256)]
  | none => []

def DrainCmd.rowWrites (d : DrainCmd) (r : Nat) : List (Nat × Nat) :=
  match d.accf with
  | some off => [(off + 256 * r, 256)]
  | none => if d.channel.isSome then [] else [(d.dst + outStride d.nodes * r, outSize d.nodes)]

/-- Row `r` still awaits an earlier pass (R220). -/
def ArrayUnit.rowAwaits (a : ArrayUnit) (op r : Nat) : Bool :=
  (a.passes.any fun p => !p.swap && decide (p.op < op) && decide (r < p.m.rows) && decide (p.next ≤ r)) ||
    a.flight.any fun f => decide (f.op < op) && f.row == r

/-- The parameters of the arming that a drain uses have been read (R241). -/
def ArrayUnit.paramsOf (a : ArrayUnit) (arming : Nat) : Option ChainPar := a.pars.find? fun p => p.arming == arming

/-- A drain ends: it delivers rows, with bit 31 for an mmul that drained a poisoned row (R239, R240). The drain unit reads
again in the next cycle (R228). Where the join both met a poisoned activation byte and drained a poisoned row, the tag of the
byte comes first (R230, R430) (log 32, DEDUCED). -/
def Cell.endDrain (c : Cell) (cycle : Nat) (d : DrainCmd) : Cell :=
  let c := c.onArr fun a =>
    { a with drains := (a.drains.filter fun x => x.op != d.op).map fun x => { x with nextAt := max x.nextAt (cycle + 1) } }
  c.arrayDone cycle (cycle + 1) d.op d.k d.recid d.t
    (BitVec.ofNat 32 (d.rows + (if d.mmul then d.bad.toNat * 2 ^ 31 else 0))) d.errs
    ((if d.actTaint then [.taint 0xC0] else []) ++ (if d.bad then [.taint 0xA0] else []))

/-- A drain has finished row `next`. -/
def Cell.drainNext (c : Cell) (cycle : Nat) (op : Nat) : Cell :=
  let c := c.onArr fun a => a.onDrain op fun d => { d with next := d.next + 1, nextAt := cycle + 1, out := none }
  match c.arr.drains.find? fun d => d.op == op with
  | none => c
  | some d =>
    if d.next < d.rows then c.scbLeave op (d.tileReads d.next) (d.writes d.next) else c.endDrain cycle d

/-- The drain unit's command may read its next row in this cycle (R220, R228, R241, R198, R426) (log 31, DEDUCED). -/
def Cell.drainReads (c : Cell) (cycle : Nat) (d : DrainCmd) : Bool :=
  d.out.isNone && decide (d.issue < cycle) && decide (d.nextAt ≤ cycle) && !c.arr.rowAwaits d.op d.next &&
    (c.arr.paramsOf d.arming).any (fun p => p.loaded) &&
    (d.started || c.scbClear d.op (d.tileReads 0) (d.writes 0)) && !c.repairHolds (d.rowReads d.next)

/-- The row goes through the chain (R225); it leaves 2 cycles per node later. -/
def Cell.drainRead (c : Cell) (cycle : Nat) (d : DrainCmd) : Cell :=
  let row := c.arr.row d.next
  let c := c.onArr fun a => { a with rows := tput a.rows d.next { row with n := 0, poison := false } }
  if d.dropped then c.drainNext cycle d.op
  else
    let par := (c.arr.paramsOf d.arming).getD ⟨0, [], true⟩
    let tile := match tileNode d.nodes with
      | some n => wordsOf (memBytes c.mem (n.off + 256 * d.next) 256)
      | none => []
    let (data, k) := drainRow d.nodes row par.words tile d.cols d.sat
    let c := { c with cmax := maxMag c.cmax k.cmax, cnan := countUpBy c.cnan k.cnan }.count fun n => { n with
      nanOut := countUpBy n.nanOut k.nanOut
      infOut := countUpBy n.infOut k.infOut
      cvtSat8 := countUpBy n.cvtSat8 k.cvtSat
      nanScale := countUpBy n.nanScale k.nanScale }
    c.onArr fun a => a.onDrain d.op fun d =>
      { d with
        started := true
        out := some ⟨cycle + 2 * d.nodes.length - 1, data, row.poison⟩
        bad := d.bad || row.poison }

/-- A drain's channel no longer takes its rows: it has died, or it has been closed since the command's issue, which ends the
drain in the same way (R228, R234) (log 32, DEDUCED). -/
def Cell.drainDead (c : Cell) (d : DrainCmd) (n : Nat) : Bool :=
  let x := c.outCh n
  x.state != .opened || x.owner != d.push.recid || decide (x.peerSize < outSize d.nodes)

/-- The row of a drain leaves: to the D-store, or as a packet once its channel has a free buffer (R228)
(log 32, DEDUCED). -/
def State.drainOut (s : State) (m u : Nat) (d : DrainCmd) (o : OutRow) : State :=
  match d.channel with
  | none =>
    s.onCell m u fun c =>
      let at' := match d.accf with
        | some off => off + 256 * d.next
        | none => d.dst + outStride d.nodes * d.next
      (c.storeBytes at' o.data).drainNext s.cycle d.op
  | some n =>
    if (s.cell m u).drainDead d n then
      s.onCell m u fun c =>
        (c.onArr fun a => a.onDrain d.op fun d =>
          { d with
            dropped := true
            errs := if d.dropped then d.errs else d.errs ++ [(causeChanDead, BitVec.ofNat 32 n)] }).drainNext s.cycle d.op
    else if ((s.cell m u).outCh n).fbc = 0 then
      s.onCell m u fun c => c.onOut n fun x =>
        { x.countBlk s.cycle with pblk := true }
    else
      let (c, seq, to') := (s.cell m u).takeSlots [n] d.push.seq
      let s := s.setCell m u c
      let s := to'.foldl (fun s t => s.sendPacket m u d.k t seq false (o.poisoned || d.push.poison)
        (if o.poisoned then 0xA0 else d.push.etag) d.push.recid o.data) s
      s.onCell m u fun c => c.drainNext s.cycle d.op

/-- The drain unit's command with something to do in this cycle. -/
def Cell.drainDue (c : Cell) (cycle : Nat) : Option DrainCmd :=
  match (c.arr.drains.head?).filter fun d => c.arr.taken.contains d.op with
  | none => none
  | some d =>
    match d.out with
    | some o => if o.at' ≤ cycle ∧ c.repairHolds (d.rowWrites d.next) = false then some d else none
    | none => if c.drainReads cycle d then some d else none

/-- DRAIN_ROW: the drain unit reads its next row, or the row that has gone through the chain leaves (R228). -/
def execDrainRow (s : State) : Out :=
  let f := s.focus
  match (s.cell f.m f.u).drainDue s.cycle with
  | none => .refused (.eventNotDue "DRAIN_ROW")
  | some d =>
    match d.out with
    | some o => .next (s.drainOut f.m f.u d o)
    | none =>
      .next ((s.onCell f.m f.u fun c => c.drainRead s.cycle d).foundAll f.m f.u (d.rowReads d.next) d.k d.recid 1)

/-! ### Chain parameters (R241) -/

/-- The bytes of a node's parameters: a BIAS vector, a user ACT table, or none (R225, R226). -/
def Node.parBytes (n : Node) : Nat :=
  if n.kind = kindBIAS then 256 else if n.kind = kindACT ∧ n.mode = 3 then 2048 else 0

/-- The parameter reads of a chain: its BIAS vectors, then its user tables, by offset and length (R241). -/
def paramReads (nodes : List Node) : List (Nat × Nat) :=
  ((nodes.filter fun n => n.parBytes == 256) ++ nodes.filter fun n => n.parBytes == 2048).map fun n => (n.off, n.parBytes)

/-- The parameters of each node. -/
def paramWords (mem : List Host.Cell) (nodes : List Node) : List (List Word) :=
  nodes.map fun n => wordsOf (memBytes mem n.off n.parBytes)

/-- Cycles of the parameter reads at 128 B each (R241). -/
def paramCycles (nodes : List Node) : Nat := (paramReads nodes).foldl (fun n r => n + r.2 / 128) 0

/-- An mchain starts its reads in the cycle after issue, or once no earlier command conflicts (R241, R198). -/
def Cell.startArmings (c : Cell) (cycle : Nat) : Cell :=
  c.onArr fun a => { a with armings := a.armings.map fun g =>
    if g.endAt.isNone && decide (g.issue < cycle) && c.scbClear g.op (paramReads g.nodes) [] then
      { g with endAt := some (cycle + paramCycles g.nodes) }
    else g }

/-- The mchain whose parameter reads end at the start of this cycle, or once no bank that it reads is under repair (R241,
R426). -/
def Cell.endingArming (c : Cell) (cycle : Nat) : Option Arming :=
  c.arr.armings.find? fun g =>
    match g.endAt with
    | some e => decide (e ≤ cycle) && !c.repairHolds (paramReads g.nodes)
    | none => false

/-- The parameters are read (R225, R226), the chain's drains may run, and mchain delivers 0. -/
def Cell.endArming (c : Cell) (cycle : Nat) (g : Arming) : Cell :=
  let words := paramWords c.mem g.nodes
  let c := c.onArr fun a =>
    { a with
      armings := a.armings.filter fun x => x.op != g.op
      pars := a.pars.map fun p => if p.arming = g.op then { p with words := words, loaded := true } else p }
  c.arrayDone cycle cycle g.op g.k g.recid g.t 0 [] []

/-- CHAIN_PARAMETERS_READ (R241). -/
def execChainParametersRead (s : State) : Out :=
  let f := s.focus
  match (s.cell f.m f.u).endingArming s.cycle with
  | none => .refused (.eventNotDue "CHAIN_PARAMETERS_READ")
  | some g =>
    .next ((s.onCell f.m f.u fun c => c.endArming s.cycle g).foundAll f.m f.u
      (paramReads g.nodes) g.k g.recid 1)

/-! ### Commands that enter the array at issue -/

/-- A pass enters the prediction (R233): each of its rows advances its block count (log 32, DEDUCED). -/
def Predicted.pass (p : Predicted) (rows amode : Nat) : Predicted :=
  let step (t : Tab (Nat × Nat × Nat)) (r : Nat) : Tab (Nat × Nat × Nat) :=
    let x := tget (0, 0, 0) t r
    tput t r (if x.1 = 0 then (1, rows, amode) else (x.1 + 1, x.2.1, x.2.2))
  { p with rows := (List.range rows).foldl step p.rows }

/-- A drain enters it: its rows' counts are 0 (log 32, DEDUCED). -/
def Predicted.drain (p : Predicted) (rows : Nat) : Predicted :=
  { p with rows := (List.range rows).foldl (fun t r => tput t r (0, 0, 0)) p.rows }

/-- A wld fills its bank in the prediction (R233) (log 32, DEDUCED). -/
def Predicted.load (p : Predicted) (cols chk : Nat) : Predicted :=
  { p with full := p.full.set (1 - p.act) true
           mirror := p.mirror.set (1 - p.act) (decide (cols ≤ 32) && (chk == 1 || chk == 3)) }

/-- The drain that set `m` describes, copied at issue by the strand `st` with number `k` (R228, R232, R240). -/
def Cell.makeDrain (c : Cell) (st : Strand) (op k issue set : Nat) (m : MatrixSet) (dst t : Nat) (mmul queued : Bool) :
    DrainCmd :=
  let ch := c.arr.chain m.chain
  { op := op, k := k, recid := st.recid.toNat, t := t, issue := issue, mmul := mmul, queued := queued, set := set
    rows := m.rows, cols := m.cols, chain := m.chain, nodes := liveNodes ch.nodes, arming := ch.arming, dst := dst
    sat := st.fpc.getLsbD 3, push := pushInfo st (c.record st.entry) false, next := 0, nextAt := 0, out := none
    bad := false, actTaint := false, started := false, dropped := false, errs := [] }

/-- A drain enters the array (R218, R198, R233). -/
def Cell.enterDrain (c : Cell) (d : DrainCmd) : Cell :=
  (c.onArr fun a => { a with drains := a.drains ++ [d], pred := a.pred.drain d.rows }).scbAdd d.op d.k (d.tileReads 0)
    (d.writes 0)

/-- A pass of strand `st` enters the array. -/
def Cell.enterPass (c : Cell) (st : Strand) (op k issue set : Nat) (m : MatrixSet) (a t : Nat) (drainOp : Option Nat) :
    Cell :=
  let p : PassCmd :=
    { op := op, k := k, recid := st.recid.toNat, t := t, issue := issue, swap := false, set := set, a := a, m := m
      sdctrap := st.sdctrap, drainOp := drainOp, started := false, next := 0, nextAt := 0, done := 0, bad := false
      actTaint := false, err := none }
  (c.onArr fun x => { x with passes := x.passes ++ [p], pred := x.pred.pass m.rows m.amode }).scbAdd op k (p.reads 0) []

/-- An mswap enters the array, and the scoreboard, where it names no range (R198). -/
def Cell.enterSwap (c : Cell) (op k issue t : Nat) : Cell :=
  let st := c.strand k
  let p : PassCmd :=
    { op := op, k := k, recid := st.recid.toNat, t := t, issue := issue, swap := true, set := 0, a := 0
      m := MatrixSet.reset, sdctrap := false, drainOp := none, started := false, next := 0, nextAt := 0, done := 0
      bad := false, actTaint := false, err := none }
  (c.onArr fun x => { x with passes := x.passes ++ [p], pred := { x.pred with act := 1 - x.pred.act } }).scbAdd op k [] []

/-- A wld enters the array. -/
def Cell.enterWld (c : Cell) (op k issue : Nat) (m : MatrixSet) (data scales t : Nat) : Cell :=
  let st := c.strand k
  let w : WldCmd :=
    { op := op, k := k, recid := st.recid.toNat, t := t, issue := issue, bank := 1 - c.arr.pred.act, data := data
      scales := scales, fmt := m.wfmt, cols := m.cols, chk := m.chk, endAt := none }
  (c.onArr fun x => { x with wlds := x.wlds ++ [w], pred := x.pred.load m.cols m.chk }).scbAdd op k w.reads []

/-- An mchain that passes its check arms its chain and starts its parameter reads (R241). -/
def Cell.enterChain (c : Cell) (op k issue chain : Nat) (nodes : List Node) (t : Nat) : Cell :=
  let st := c.strand k
  let live := liveNodes nodes
  let none' := (paramReads live).isEmpty
  let c := c.onArr fun x =>
    { x with
      chains := tput x.chains chain ⟨nodes, true, op⟩
      pars := x.pars.filter (fun p => x.drains.any (fun d => d.arming == p.arming) ||
          x.chains.any fun q => q.1 != chain && q.2.arming == p.arming) ++ [⟨op, live.map fun _ => [], none'⟩]
      armings := if none' then x.armings else x.armings ++ [⟨op, k, st.recid.toNat, t, live, issue, none⟩] }
  if none' then (if t = 0 then c else c.deliverAt (issue + 1) k op t 0 [])
  else c.scbAdd op k (paramReads live) []

/-- Every array command that the strand's record has issued has completed (R243). -/
def Cell.arrayIdle (c : Cell) (k : Nat) : Bool :=
  let rid := (c.strand k).recid.toNat
  (c.arr.wlds.all fun w => !(w.k == k && w.recid == rid)) && (c.arr.passes.all fun p => !(p.k == k && p.recid == rid)) &&
    (c.arr.drains.all fun d => !(d.k == k && d.recid == rid)) && c.arr.armings.all fun g => !(g.k == k && g.recid == rid)

end Sys2Proof.Machine
end

