-- ==== Sys2Proof/Machine/EngineOps.lean ====
section
/-! DEFINITION. What the syllables of class E share: their form, the checks of the ranges that they name, and late errors
(R79, R182, R184, R198, R202, R234, R235, R265). -/

namespace Sys2Proof.Machine

/-- An engine syllable in the EN format: the scalar registers it reads, and its token register, which the bundle names
unless it is 0 (R63, R79, R84). -/
def engineSyl (v : View) (onSpire : Bool) (srcs : List (BitVec 6)) (t : BitVec 6) : Syl :=
  { v.syl .engine onSpire with
    reads := srcs.map v.ps
    names := if t = 0 then [] else [v.ps t]
    static := v.illegal onSpire ++ v.declS srcs ++ v.declS [t] }

/-- The physical number of a token register, or 0 for none. -/
def View.pt (v : View) (t : BitVec 6) : Nat := if t = 0 then 0 else v.ps t

/-- Which engine accesses a region admits (R182). -/
def Region.admitsEngine (r : Region) (bound write wld : Bool) : Bool :=
  match r.cls with
  | .priv => bound
  | .shared => true
  | .inbox => true
  | .weight => wld && !write

/-- The first of a command's own checks that fails is the one that it raises (R239). -/
def firstTrap (ts : List TrapReq) : List TrapReq := ts.take 1

/-- The region check of an engine's range; TVAL is given (R184, R235). -/
def engineRegion (d : Desc) (bound write wld : Bool) (off n : Nat) (tval : Word) : List TrapReq :=
  match d.regions.find? fun r => inside off n r.off r.size with
  | some r => if r.admitsEngine bound write wld then [] else [trapReq causeBounds tval]
  | none =>
    let carve := d.carve
    if inside off n carve.1 carve.2 then (if bound then [] else [trapReq causeBounds tval])
    else if d.regions.any (fun r => meets off n r.off r.size) || meets off n carve.1 carve.2 then
      [trapReq causeBounds tval]
    else [trapReq causeDecl tval]

/-- The region check of a range that an engine command names, with a given TVAL (R184). A Spire core has its own memory of 1
MiB, and BOUNDS outside it (log 17, DEDUCED). -/
def View.engineRegionAt (v : View) (off n : Nat) (write wld : Bool) (tval : Word) : List TrapReq :=
  if n = 0 then []
  else if v.spire then (if off + n ≤ 2 ^ 20 then [] else [trapReq causeBounds tval])
  else engineRegion v.rcd.desc v.bound write wld off n tval

/-- The race detector's check of such a range (R202); a Spire core has no detector (log 17, DEDUCED). -/
def View.engineRaceAt (v : View) (off n : Nat) (tval : Word) : List TrapReq :=
  if n = 0 ∨ v.spire then []
  else
    match v.cell.raceAt off with
    | some r => if r.conflict v.context v.st.lacq then [trapReq causeMmRace tval] else []
    | none => []

/-- The checks of a range that an engine command names: its region, then the race detector, with a given TVAL (R184, R202)
(log 17, DEDUCED). -/
def View.engineRangeAt (v : View) (off n : Nat) (write wld : Bool) (tval : Word) : List TrapReq :=
  (v.engineRegionAt off n write wld tval ++ v.engineRaceAt off n tval).take 1

/-- The same, where TVAL is the cell offset (R235). -/
def View.engineRange (v : View) (off n : Nat) (write wld : Bool) : List TrapReq :=
  v.engineRangeAt off n write wld (BitVec.ofNat 32 off)

/-- The checks of a range whose offset must be a multiple of `align`, in the order of EA: its region, its alignment, then the
race detector (R72, R89, R184, R202) (log 17, DEDUCED). -/
def View.engineAligned (v : View) (off n align : Nat) (write wld : Bool) : List TrapReq :=
  let tval : Word := BitVec.ofNat 32 off
  firstTrap (v.engineRegionAt off n write wld tval ++ (if off % align ≠ 0 then [trapReq causeMisalign tval] else []) ++
    v.engineRaceAt off n tval)

/-- The detector effect of an engine write (R202). -/
def View.engineRace (v : View) (off n : Nat) : List Effect :=
  if n = 0 then []
  else
    match v.cell.raceAt off with
    | some r => [.raceWrite r.off]
    | none => []

/-- The trap of the first waiting error that satisfies `p` (R234, R265) (log 20, DEDUCED). -/
def View.lateErr (v : View) (p : WaitingErr → Bool) : List TrapReq :=
  match firstErr (v.st.errs.filter p) with
  | some e => [lateTrap e.op e.cause e.val]
  | none => []

/-- The error word of R233: the unit's number, a code and a detail (log 30, DEDUCED). -/
def engineErr (unit code detail : Nat) : TrapReq :=
  trapReq causeEngineErr (BitVec.ofNat 32 (unit * 2 ^ 24 + code * 2 ^ 16 + detail))

/-- The scoreboard has no room for `n` more entries (R198); a syllable that enters none does not stall on it
(log 61, DEDUCED). -/
def View.scbFull (v : View) (n : Nat) : Bool := 32 < v.cell.scb.length + n

end Sys2Proof.Machine
end

