-- ==== Sys2Proof/Machine/MatrixOps.lean ====
section
/-! DEFINITION. What the array instructions do when their bundle commits (R231, R236 to R242). -/

namespace Sys2Proof.Machine

/-- A field of a matrix descriptor set by its number (R231). -/
def MatrixSet.get (m : MatrixSet) (f : Nat) : Nat :=
  match f with
  | 0 => m.wsrc
  | 1 => m.wfmt
  | 2 => m.wscl
  | 3 => m.ascl
  | 4 => m.rows
  | 5 => m.kblk
  | 6 => m.cols
  | 7 => m.chain
  | 8 => m.amode
  | 9 => m.chk
  | _ => m.astr

def MatrixSet.put (m : MatrixSet) (f x : Nat) : MatrixSet :=
  match f with
  | 0 => { m with wsrc := x }
  | 1 => { m with wfmt := x }
  | 2 => { m with wscl := x }
  | 3 => { m with ascl := x }
  | 4 => { m with rows := x }
  | 5 => { m with kblk := x }
  | 6 => { m with cols := x }
  | 7 => { m with chain := x }
  | 8 => { m with amode := x }
  | 9 => { m with chk := x }
  | _ => { m with astr := x }

/-- The values of a field; ascl takes every multiple of 4 within its bits (R231) (log 32, DEDUCED). -/
def matrixValue (f x : Nat) : Bool :=
  match f with
  | 0 => x < 2 ^ 23 && x % 128 == 0
  | 1 => x < 4
  | 2 => x < 2 ^ 23 && x % 128 == 0
  | 3 => x < 2 ^ 23 && x % 4 == 0
  | 4 => 1 ≤ x && x ≤ 64
  | 5 => 1 ≤ x && x ≤ 255
  | 6 => 1 ≤ x && x ≤ 64
  | 7 => x < 8
  | 8 => x < 2
  | 9 => x < 4
  | _ => 64 ≤ x && x ≤ 4096 && x % 64 == 0

/-- mset at the end of its issue cycle (R236). -/
def Cell.doMset (c : Cell) (n f : Nat) (x : Word) : Cell :=
  c.onArr fun a => { a with sets := tput a.sets n ((a.setAt n).put f x.toNat) }

/-- A scoreboarded result of operation `op` for register `t`, delivered at the start of the next cycle; none for t = 0. -/
def Cell.answer (c : Cell) (cycle k op t : Nat) (x : Word) : Cell :=
  if t = 0 then c else (c.onStrand k fun st => st.await t op).deliverAt (cycle + 1) k op t x []

/-- Register `t` waits for operation `op`; none for t = 0. -/
def Cell.awaits (c : Cell) (k op t : Nat) : Cell := if t = 0 then c else c.onStrand k fun st => st.await t op

/-- mchk's word (R242). -/
def Cell.chkMode (c : Cell) (n chk : Nat) : Nat :=
  checkMode chk (c.arr.pred.mirror.getD c.arr.pred.act false) (c.arr.setAt n).cols

/-- The effect of an array command of strand `k` that issues in `cycle`; `op` is its number, and an mmul's drain takes the
next one. -/
def Cell.arrayCmd (c : Cell) (cycle k op : Nat) (x : Cmd) : Cell :=
  match x with
  | .mset n f x => c.doMset n f x
  | .mget n f d => c.answer cycle k op d (BitVec.ofNat 32 ((c.arr.setAt n).get f))
  | .wld n a b t => (c.awaits k op t).enterWld op k cycle (c.arr.setAt n) a.toNat b.toNat t
  | .mswap t => (c.awaits k op t).enterSwap op k cycle t
  | .macc n a t => (c.awaits k op t).enterPass (c.strand k) op k cycle n (c.arr.setAt n) a.toNat t none
  | .mmul n a b t =>
    let m := c.arr.setAt n
    let d := c.makeDrain (c.strand k) (op + 1) k cycle n m b.toNat t true false
    ((c.awaits k (op + 1) t).enterPass (c.strand k) op k cycle n m a.toNat 0 (some (op + 1))).enterDrain d
  | .mdrain n a t =>
    (c.awaits k op t).enterDrain (c.makeDrain (c.strand k) op k cycle n (c.arr.setAt n) a.toNat t false true)
  | .mchain n a b t =>
    let nodes := if b.getLsbD 0 then nodesOf (memBytes c.mem a.toNat 64) else (c.arr.chain n).nodes
    (c.awaits k op t).enterChain op k cycle n nodes t
  | .mchk n a t =>
    let chk := a.toNat % 4
    (c.doMset n 9 (BitVec.ofNat 32 chk)).answer cycle k op t (BitVec.ofNat 32 (c.chkMode n chk))
  | _ => c

end Sys2Proof.Machine
end

