-- ==== Sys2Proof/Machine/ArrayChecks.lean ====
section
/-! DEFINITION. The checks that array commands make at issue, and the array command that a copy enters (R228, R229, R233, R235,
R239 to R241, R258, R286). -/

namespace Sys2Proof.Machine

/-- The errors of R233 that a pass with set `n` meets in the predicted state: codes 0x01, 0x02, 0x05, and for mmul 0x03 and
0x06 (log 32, DEDUCED). -/
def View.passErrors (v : View) (n : Nat) (m : MatrixSet) (mmul : Bool) : List TrapReq :=
  let p := v.cell.arr.pred
  let rows := (List.range m.rows).map fun r => tget (0, 0, 0) p.rows r
  (if p.full.getD p.act false then [] else [engineErr 1 1 0]) ++
    (if rows.any fun x => x.1 == m.kblk then [engineErr 1 2 n] else []) ++
    (if rows.any fun x => x.1 != 0 && (x.2.1 != m.rows || x.2.2 != m.amode) then [engineErr 1 5 n] else []) ++
    (match (if mmul then rows.find? fun x => x.1 + 1 != m.kblk else none) with
      | some x => [engineErr 1 3 x.1]
      | none => []) ++
    (if mmul && !(v.cell.arr.chain m.chain).armed then [engineErr 1 6 m.chain] else [])

/-- The errors of R233 that an mdrain meets: codes 0x04 and 0x06. -/
def View.drainErrors (v : View) (m : MatrixSet) : List TrapReq :=
  let n (r : Nat) : Nat := (tget (0, 0, 0) v.cell.arr.pred.rows r).1
  (match (List.range m.rows).find? fun r => n r != m.kblk with
    | some r => [engineErr 1 4 (n r)]
    | none => []) ++
    (if (v.cell.arr.chain m.chain).armed then [] else [engineErr 1 6 m.chain])

/-- The range checks of a pass: its activation rows and its row scales (R235). -/
def View.passRanges (v : View) (m : MatrixSet) (a : Word) : List TrapReq :=
  v.engineRange a.toNat (m.astr * (m.rows - 1) + 64) false false ++ v.engineRange m.ascl (4 * m.rows) false false

/-- The checks of a drain's out-channel, which are those of spush (R228, R286). -/
def View.drainPush (v : View) (d : DrainCmd) : List TrapReq :=
  match d.channel with
  | none => []
  | some n =>
    let x := v.cell.outCh n
    (if x.state = .dead then [trapReq causeChanDead (BitVec.ofNat 32 n)] else []) ++
      (if x.owner ≠ d.push.recid then [engineErr 3 1 n] else []) ++
      (if x.state ≠ .opened then [engineErr 3 2 n] else []) ++
      (if x.peerSize < outSize d.nodes then [engineErr 3 3 n] else []) ++
      (if x.grouped then [engineErr 3 6 n] else [])

/-- The checks of a drain's ranges, its tile and the rows that it writes, and of its channel (R235, R286). -/
def View.drainRanges (v : View) (d : DrainCmd) : List TrapReq :=
  (d.tileReads 0).flatMap (fun r => v.engineRange r.1 r.2 false false) ++
    (d.writes 0).flatMap (fun w => v.engineRange w.1 w.2 true false) ++ v.drainPush d

/-- The drain that set `n` describes, as it would be at this issue. -/
def View.drainOf (v : View) (n : Nat) (m : MatrixSet) (dst : Word) (mmul : Bool) : DrainCmd :=
  v.cell.makeDrain v.st 0 v.b.k v.s.cycle n m dst.toNat 0 mmul (!mmul)

/-- The detector effect of a drain's rows. -/
def View.drainRace (v : View) (d : DrainCmd) : List Effect :=
  (d.writes 0).flatMap fun w => v.engineRace w.1 w.2

/-- The array queue or the scoreboard has no room (R218, R198). -/
def View.arrayFull (v : View) (queue scb : Nat) : Bool := decide (16 < v.cell.arr.queued + queue) || v.scbFull scb

/-! ### The descriptor of a chain (R229, R241) -/

/-- The check of a descriptor and of its parameter ranges. -/
def View.chainTraps (v : View) (nodes : List Node) : List TrapReq :=
  match chainFault nodes 0 .acc false with
  | some slot => [trapReq causeChainFmt (BitVec.ofNat 32 slot)]
  | none => (paramReads (liveNodes nodes)).flatMap fun r => v.engineRange r.1 r.2 false false

/-- A drain of a chain waits in the array queue, or for the drain unit (R233, code 0x07) (log 32, DEDUCED). -/
def Cell.drainWaits (c : Cell) (chain : Nat) : Bool :=
  let t := c.arr.taken
  c.arr.drains.any fun d => d.chain == chain && !(t.contains d.op && (c.arr.drains.head?).any fun h => h.op == d.op)

/-! ### The array command of a copy (R258) -/

/-- The view of a context of the cell that has no bundle open. -/
def View.ofContext (s : State) (m u k recid : Nat) : View :=
  let c := s.cell m u
  let st := c.context k recid
  { s := s, b := ⟨m, u, k, st.pc, []⟩, i := .nop true, cell := c, st := st, rcd := c.record st.entry }

/-- The parts of a `then` field: its command, its set and its offset. -/
def thenCmd (x : Word) : Nat := x.toNat / 2 ^ 29 % 4
def thenSet (x : Word) : Nat := x.toNat / 2 ^ 24 % 32
def thenOff (x : Word) : Nat := x.toNat % 2 ^ 23

/-- The checks of a copy's array command when it enters: those of mmul, macc or mdrain (R233, R235, R258). -/
def View.thenTraps (v : View) (x sb : Word) : List TrapReq :=
  let n := thenSet x
  let m := v.cell.arr.setAt n
  let off : Word := BitVec.ofNat 32 (thenOff x)
  match thenCmd x with
  | 0 => v.passErrors n m true ++ v.passRanges m sb ++ v.drainRanges (v.drainOf n m off true)
  | 1 => v.passErrors n m false ++ v.passRanges m sb
  | _ => v.drainErrors m ++ v.drainRanges (v.drainOf n m off false)

/-- The array queue and the scoreboard have no room for it; the copy's own entry makes way (R198, R218). -/
def View.thenFull (v : View) (x : Word) : Bool := v.arrayFull 1 (if thenCmd x = 0 then 1 else 0)

/-- The detectors of the SHARED regions that hold the written ranges note a write of a context (R202). -/
def Cell.noteWrite (c : Cell) (ctx : Nat × Nat) (ws : List (Nat × Nat)) : Cell :=
  ws.foldl
    (fun c w =>
      match c.raceAt w.1 with
      | some r => { c with races := c.races.map fun x => if x.off = r.off then { x with wr := some ctx, wrel := none } else x }
      | none => c) c

/-- The array command that a copy enters, with operation numbers from `op` on and the rank of the copy (R258). -/
def Cell.enterThen (c : Cell) (st : Strand) (cycle op k rank : Nat) (x sb : Word) : Cell :=
  let n := thenSet x
  let m := c.arr.setAt n
  let d (mmul : Bool) : DrainCmd := c.makeDrain st (if mmul then op + 1 else op) k cycle n m (thenOff x) 0 mmul (!mmul)
  let ctx := (st.recid.toNat, k)
  let c :=
    match thenCmd x with
    | 0 => ((c.enterPass st op k cycle n m sb.toNat 0 (some (op + 1))).enterDrain (d true)).noteWrite ctx ((d true).writes 0)
    | 1 => c.enterPass st op k cycle n m sb.toNat 0 none
    | _ => (c.enterDrain (d false)).noteWrite ctx ((d false).writes 0)
  { c with scb := c.scb.map fun e => if e.op = op ∨ e.op = op + 1 then { e with rank := rank } else e }

/-- A copy whose last byte has been performed enters its array command as one of the issuing strand, or the first check that
fails waits at the strand as an error of the array (R234, R258). A Spire core has no array: its banks are EMPTY and its rows
hold no block, so every such command ends in an error of R233 (log 58, DESIGN CHOICE). -/
def State.enterThen (s : State) (m u : Nat) (o : EngOp) : State :=
  let v := View.ofContext s m u o.k o.recid
  let op := s.seq + 1
  { s with seq := s.seq + 2 }.onCell m u fun c =>
    match v.thenTraps o.andThen o.sb with
    | t :: _ => c.arrayError op o.k o.recid 0 (t.cause, t.val)
    | [] => c.enterThen v.st s.cycle op o.k o.op o.andThen o.sb

end Sys2Proof.Machine
end

