-- ==== Sys2Proof/Machine/Flags.lean ====
section
/-! DEFINITION. The conditions and the integer results that the scalar and vector instructions share (R105 to R113, R137,
R138). None of them sets a flag; the FPF flags of FP32 results come with the values of `Fp`. -/

namespace Sys2Proof.Machine

/-- A truth value as a word. -/
def boolWord (b : Bool) : Word := if b then 1 else 0

/-- The condition coded in `cmp` (R108); a code above 5 has none. -/
def cmpCond (c : Nat) (a b : Word) : Bool :=
  match c with
  | 0 => a == b
  | 1 => a != b
  | 2 => a.slt b
  | 3 => a.sle b
  | 4 => a.ult b
  | 5 => a.ule b
  | _ => false

/-- Shifts and the rotation by the low five bits of the amount (R105). -/
def shlW (a b : Word) : Word := a <<< (b.toNat % 32)
def shrW (a b : Word) : Word := a >>> (b.toNat % 32)
def sraW (a b : Word) : Word := a.sshiftRight (b.toNat % 32)
def rotW (a b : Word) : Word := a.rotateLeft (b.toNat % 32)

/-- Bits 63:32 of the signed and of the unsigned product (R106). -/
def mulhS (a b : Word) : Word := BitVec.ofInt 32 (a.toInt * b.toInt / 2 ^ 32)
def mulhUns (a b : Word) : Word := BitVec.ofNat 32 (a.toNat * b.toNat / 2 ^ 32)

/-- Quotient and remainder, truncated towards zero; -2^31 / -1 gives -2^31 and 0 (R107). -/
def divS (a b : Word) : Word := BitVec.ofInt 32 (a.toInt.tdiv b.toInt)
def remS (a b : Word) : Word := BitVec.ofInt 32 (a.toInt.tmod b.toInt)
def divUns (a b : Word) : Word := BitVec.ofNat 32 (a.toNat / b.toNat)
def remUns (a b : Word) : Word := BitVec.ofNat 32 (a.toNat % b.toNat)

def minS (a b : Word) : Word := if a.slt b then a else b
def maxS (a b : Word) : Word := if a.slt b then b else a
def minUns (a b : Word) : Word := if a.ult b then a else b
def maxUns (a b : Word) : Word := if a.ult b then b else a

/-- The number of one bits (R109, R113). -/
def popCount (a : Word) : Nat := (List.range 32).countP fun i => a.getLsbD i

/-- The number of leading zeros, 32 for 0 (R109). -/
def leadingZeros (a : Word) : Nat := if a = 0 then 32 else 31 - Nat.log2 a.toNat

/-- The index of the lowest one bit, 32 for 0 (R113). -/
def firstOne (a : Word) : Nat := ((List.range 32).find? fun i => a.getLsbD i).getD 32

/-- The width operand of bext and bins: 33 to 63 count as 32 (R110). -/
def fieldWidth (b : Word) : Nat := min (b.toNat % 64) 32

/-- Field extraction and insertion (R110). -/
def bextW (a b : Word) (pos : Nat) : Word := BitVec.ofNat 32 (a.toNat / 2 ^ pos % 2 ^ fieldWidth b)
def binsW (d a b : Word) (pos : Nat) : Word :=
  let mask : Word := BitVec.ofNat 32 ((2 ^ fieldWidth b - 1) * 2 ^ pos)
  (d &&& ~~~mask) ||| (BitVec.ofNat 32 (a.toNat % 2 ^ fieldWidth b * 2 ^ pos) &&& mask)

/-- SExt of an immediate (R89). -/
def sext {n : Nat} (i : BitVec n) : Word := i.signExtend 32

/-- Saturation to a range of signed values: Sat of R89. -/
def satInt (x lo hi : Int) : Int := if x < lo then lo else if hi < x then hi else x

end Sys2Proof.Machine
end

