-- ==== Sys2Proof/Machine/Tokens.lean ====
section
/-! DEFINITION. Dependency tokens: the token table, the watchers, the waits on foreign tokens and the hold queue (R360 to
R374). -/

namespace Sys2Proof.Machine

/-- The origin of a token (R360). -/
def tokenOrigin (t : Word) : Addr := ⟨t.toNat / 2 ^ 22, t.toNat / 2 ^ 12 % 1024⟩

/-- The token of entry `i` at a generation (R360). -/
def tokenWord (chip u : Nat) (gen : BitVec 4) (i : Nat) : Word :=
  BitVec.ofNat 32 (chip * 2 ^ 22 + u * 2 ^ 12 + gen.toNat * 2 ^ 8 + i)

def Cell.token (c : Cell) (i : Nat) : TokEntry := tget TokEntry.free c.tokens i

def Cell.onToken (c : Cell) (i : Nat) (f : TokEntry → TokEntry) : Cell :=
  { c with tokens := tput c.tokens i (f (c.token i)) }

/-- The token is local to the unit: a cell that is its origin (R360). -/
def tokenLocal (chip u : Nat) (t : Word) : Bool := !isSpire u && tokenOrigin t == ⟨chip, u⟩

/-- The entry of a local token stands at the token's generation. -/
def Cell.tokenCurrent (c : Cell) (t : Word) : Bool := (c.token (t.toNat % 256)).gen.toNat == t.toNat / 256 % 16

/-- A local token is pending (R363). -/
def Cell.tokenPending (c : Cell) (t : Word) : Bool :=
  t != 0 && c.tokenCurrent t &&
    (match (c.token (t.toNat % 256)).state with
      | .pending => true
      | .join => true
      | _ => false)

/-- The error with which a local token has landed, or 0 (R361). -/
def Cell.tokenErr (c : Cell) (t : Word) : Word :=
  let e := c.token (t.toNat % 256)
  if t != 0 && c.tokenCurrent t && e.state == .landedErr then e.err else 0

/-- The entry that an allocation takes: the lowest FREE entry, else the one that landed earliest (R362). -/
def Cell.freeToken (c : Cell) : Option Nat :=
  match (List.range 256).find? fun i => (c.token i).state == .free with
  | some i => some i
  | none =>
    (List.range 256).foldl
      (fun best i =>
        let e := c.token i
        if e.state == .landed || e.state == .landedErr then
          match best with
          | none => some i
          | some j => if e.order < (c.token j).order then some i else best
        else best) none

/-- Entry `i` allocated (R362): its generation steps, 15 to 1. -/
def Cell.allocToken (c : Cell) (i k recid count : Nat) (state : TokState) (carry ina inb : Word) : Cell :=
  c.onToken i fun e =>
    { TokEntry.free with
      state := state
      gen := if e.gen = 15 then 1 else e.gen + 1
      recid := recid
      k := k
      count := count
      carry := carry
      ina := ina
      inb := inb }

/-- The entry lands: with an error when ERR is not 0; its WATCHING slots become NONE (R362, R364). -/
def Cell.landToken (c : Cell) (i : Nat) : Cell :=
  { c.onToken i (fun e =>
      { e with
        state := if e.err = 0 then .landed else .landedErr
        count := 0
        order := c.landings
        slots := e.slots.map fun x =>
          match x with
          | some w => if w.watching then none else some w
          | none => none }) with
    landings := c.landings + 1 }

/-- A node as a watcher slot names it. -/
def nodeOf (a : Addr) : Nat := a.chip * 4096 + a.unit
def nodeAddr (n : Nat) : Addr := ⟨n / 4096, n % 4096⟩

/-- Entry `i` of a cell lands, and each WATCHING slot is sent a RELEASE on VC 5 (R364). -/
def State.landToken (s : State) (m u i : Nat) : State :=
  let e := (s.cell m u).token i
  let t := tokenWord (s.chip m) u e.gen i
  let s := s.onCell m u fun c => c.landToken i
  e.slots.foldl
    (fun s x =>
      match x with
      | some w => if w.watching then s.send m u 0 (nodeAddr w.node) 5 (.release t) else s
      | none => s) s

/-- One acknowledgement or error response of entry `i` (R364). -/
def State.ackToken (s : State) (m u i : Nat) (err : Word) : State :=
  let s := s.onCell m u fun c => c.onToken i fun e =>
    { e with count := e.count - 1, err := if e.err = 0 then err else e.err }
  if ((s.cell m u).token i).state = .pending ∧ ((s.cell m u).token i).count = 0 then s.landToken m u i else s

/-- One of the four slots is NONE (R365). -/
def TokEntry.slotFree (e : TokEntry) : Bool := e.slots.contains none

/-- The first NONE slot takes a state for a node. -/
def TokEntry.putSlot (e : TokEntry) (node : Nat) (watching : Bool) : TokEntry :=
  match e.slots.findIdx? fun x => x == none with
  | some j => { e with slots := e.slots.set j (some ⟨node, watching⟩) }
  | none => e

/-- A carried operation takes a slot of its own for its destination: SENT (R365) (log 29, DEDUCED). -/
def TokEntry.takeSlot (e : TokEntry) (node : Nat) : TokEntry := e.putSlot node false

/-- A WATCH from a node (R368): a slot SENT for it becomes WATCHING, or a NONE slot; none when other cells use all four
(log 29, DEDUCED). -/
def TokEntry.watchSlot (e : TokEntry) (node : Nat) : Option TokEntry :=
  match e.slots.findIdx? fun x => x == some ⟨node, false⟩ with
  | some j => some { e with slots := e.slots.set j (some ⟨node, true⟩) }
  | none =>
    if e.slots.contains (some ⟨node, true⟩) then some e
    else if e.slotFree then some (e.putSlot node true)
    else none

/-! ### Waits on foreign tokens (R263, R368, R377) -/

/-- The back-off before the n-th resending (R371). -/
def backoff (n : Nat) : Nat := 256 * 2 ^ (min n 6 - 1)

/-- A wait on a foreign token begins: WATCH goes to its origin on VC 5. -/
def State.startWatch (s : State) (m u : Nat) (what : WaitFor) (t : Word) : State :=
  let s := s.onCell m u fun c => { c with waits := c.waits ++ [⟨what, t, s.cycle, 0, .out⟩] }
  s.send m u 0 (tokenOrigin t) 5 (.watch t 0)

/-- The wait of a given owner. -/
def Cell.waitOf (c : Cell) (what : WaitFor) : Option TokenWait := c.waits.find? fun w => w.what == what

/-- The owner waits no more. -/
def Cell.endWait (c : Cell) (what : WaitFor) : Cell := { c with waits := c.waits.filter fun w => w.what != what }

/-- A change of the waits that satisfy `p`. -/
def Cell.onWaits (c : Cell) (p : TokenWait → Bool) (f : TokenWait → TokenWait) : Cell :=
  { c with waits := c.waits.map fun w => if p w then f w else w }

/-- A wait that has not ended. -/
def TokenWait.open' (w : TokenWait) : Bool :=
  match w.state with
  | .out => true
  | .backoff _ => true
  | _ => false

/-- RELEASE reaches a holder: its held entries of that token become READY, and its waits on it end (R370). -/
def Cell.releaseToken (c : Cell) (cycle : Nat) (t : Word) : Cell :=
  let isQuery : WaitFor → Bool := fun w =>
    match w with
    | .query .. => true
    | _ => false
  { c.onWaits (fun w => w.token == t && w.open' && !isQuery w.what) (fun w => { w with state := .landed }) with
    hold := c.hold.map fun p =>
      (p.1, if p.2.req.carry = t ∧ p.2.ready = none then { p.2 with ready := some cycle } else p.2) }

/-- The answer of a token's origin to a WATCH from a holder (R368). -/
def State.answerWatch (s : State) (m u : Nat) (holder : Addr) (t : Word) (tag : Nat) : State :=
  let c := s.cell m u
  if isSpire u || !(tokenLocal (s.chip m) u t) || !c.tokenPending t then s.send m u 0 holder 5 (.release t)
  else
    let i := t.toNat % 256
    match (c.token i).watchSlot (nodeOf holder) with
    | some e => s.onCell m u fun c => c.onToken i fun _ => e
    | none => s.send m u 0 holder 5 (.busy t tag)

/-! ### JOIN entries (R368, R378) -/

/-- Whether an input of a JOIN entry has landed, and its error. -/
def Cell.joinInput (c : Cell) (chip u i : Nat) (second : Bool) (t : Word) : Bool × Word :=
  if t = 0 then (true, 0)
  else if tokenLocal chip u t then (!c.tokenPending t, c.tokenErr t)
  else
    match c.waitOf (.join i second) with
    | some w =>
      match w.state with
      | .landed => (true, 0)
      | .failed e => (true, e)
      | _ => (false, 0)
    | none => (false, 0)

/-- At the start of a cycle, a JOIN entry counts its inputs, as the cell `c` stood before any JOIN of the cycle landed, and
lands when both have landed. -/
def State.joinStep (c : Cell) (s : State) (m u i : Nat) : State :=
  let e := c.token i
  if e.state = .join then
    let chip := s.chip m
    let a := c.joinInput chip u i false e.ina
    let b := c.joinInput chip u i true e.inb
    let s := s.onCell m u fun c => c.onToken i fun e =>
      { e with
        count := (if a.1 then 0 else 1) + (if b.1 then 0 else 1)
        err := if e.err ≠ 0 then e.err else if a.2 ≠ 0 then a.2 else b.2 }
    if a.1 && b.1 then
      (s.onCell m u fun c => (c.endWait (.join i false)).endWait (.join i true)).landToken m u i
    else s
  else s

/-- Every JOIN entry of a cell. -/
def State.joinAll (s : State) (m u : Nat) : State :=
  let c := s.cell m u
  c.tokens.foldl (fun s p => State.joinStep c s m u p.1) s

/-! ### The hold queue (R367 to R372) -/

def HoldEntry.zero : HoldEntry :=
  ⟨⟨.write, false, false, 0, [], [], 0, 0, 0, 0, 0, 0, none, 0⟩, ⟨0, 0⟩, 0, 0, 0, none⟩

/-- A FREE entry of the hold queue; 32 entries. -/
def Cell.freeHold (c : Cell) : Option Nat := (List.range 32).find? fun j => c.hold.all fun p => p.1 != j

/-- A READY entry may be performed: in a later cycle than it became READY, with no earlier held ordered entry of the same
source before it (R370). -/
def Cell.holdReady (c : Cell) (cycle : Nat) (e : HoldEntry) : Bool :=
  match e.ready with
  | some r => decide (r < cycle) && c.hold.all fun p =>
      !(p.2.req.ordered && p.2.src == e.src && decide (p.2.arrival < e.arrival))
  | none => false

/-- The entry that the cell performs next: of those that may be, the oldest arrival. -/
def Cell.nextHold (c : Cell) (cycle : Nat) : Option (Nat × HoldEntry) :=
  (c.hold.filter fun p => c.holdReady cycle p.2).foldl
    (fun best p =>
      match best with
      | none => some p
      | some q => if p.2.arrival < q.2.arrival then some p else best) none

/-- A HELD entry that reaches the cell's TOKEXP, of which a new value applies from the next cycle (R372). -/
def Cell.holdExpired (c : Cell) (cycle : Nat) (e : HoldEntry) : Bool :=
  e.ready.isNone && decide (c.tokexpNow.toNat ≤ cycle - e.since)

end Sys2Proof.Machine
end

