-- ==== Sys2Proof/Machine/TbOps.lean ====
section
/-! DEFINITION. Transaction barriers (R388 to R395). -/

namespace Sys2Proof.Machine

def Cell.tbar (c : Cell) (b : Nat) : Tbar := tget Tbar.reset c.tbs b
def Cell.onTbar (c : Cell) (b : Nat) (f : Tbar → Tbar) : Cell := { c with tbs := tput c.tbs b (f (c.tbar b)) }

/-- Counts saturate (R388, R395). -/
def Tbar.count (x : Tbar) (arrivals sectors : Nat) : Tbar :=
  { x with arr := min 0xFFFF (x.arr + arrivals), sec := min 0xFFFFFF (x.sec + sectors) }

/-- Sectors and arrivals of copies count on a barrier of the destination cell (R389). -/
def State.tbCount (s : State) (m u b sectors arrivals : Nat) : State :=
  s.onCell m u fun c => c.onTbar b fun x => x.count arrivals sectors

/-- tbinit (R392): a and b are its operands. -/
def Tbar.init (x : Tbar) (a b : Word) : Tbar :=
  { x with
    arr := if a.getLsbD 31 then 0 else x.arr
    sec := if a.getLsbD 31 then 0 else x.sec
    exparr := a.toNat % 2 ^ 16
    expsec := b.toNat % 2 ^ 24
    phase := x.phase + 1
    state := .armed }

/-- The completion test at the end of a cycle (R389). -/
def Tbar.complete (x : Tbar) (cyc : Word) : Tbar :=
  if x.state = .armed ∧ x.exparr ≤ x.arr ∧ x.expsec ≤ x.sec then
    { x with arr := x.arr - x.exparr, sec := x.sec - x.expsec, state := .done, donecyc := cyc }
  else x

/-- PHASE in bits 31:24 with a low part (R392 to R394). -/
def Tbar.word (x : Tbar) (low : Nat) : Word := BitVec.ofNat 32 (x.phase.toNat * 2 ^ 24 + low)

/-- A tbarr waits until every earlier engine command of its strand that writes the cell's D-store has completed; a command
that a copy enters is as early as the copy (R258, R393). -/
def Cell.tbarrDue (c : Cell) (j : TbJob) : Bool :=
  c.scb.all fun e => !(e.k == j.k && decide (e.rank < j.op) && !e.writes.isEmpty)

/-- One tbarr or tbinit of the cycle counts or arms, and delivers in the next cycle (R390, R392, R393). -/
def Cell.tbStep (c : Cell) (cycle : Nat) (j : TbJob) : Cell :=
  let c := { c.scbDrop j.op with tbjobs := c.tbjobs.filter fun x => x.op != j.op }
  let c := c.onTbar j.tb fun x => if j.init then x.init j.a j.b else x.count 1 (j.a.toNat % 2 ^ 24)
  let x := c.tbar j.tb
  if j.t = 0 then c else c.deliverAt (cycle + 1) j.k j.op j.t (x.word (if j.init then 0 else x.arr)) []

/-- What the barriers of a cell do at the end of a cycle, after the copies' counts: the arrivals whose wait has ended, then
tbinit, then the completion test (R390). -/
def Cell.endBarriers (c : Cell) (cycle : Nat) (cyc : Word) : Cell :=
  let arrs := c.tbjobs.filter fun j => !j.init && c.tbarrDue j
  let c := arrs.foldl (fun c j => c.tbStep cycle j) c
  let inits := c.tbjobs.filter fun j => j.init
  let c := inits.foldl (fun c j => c.tbStep cycle j) c
  { c with tbs := c.tbs.map fun p => (p.1, p.2.complete cyc) }

/-- The wait of R394: the awaited phase has completed. -/
def tbReady (x : Tbar) (a : Word) : Bool :=
  let d := (a.toNat % 256 + 256 - x.phase.toNat) % 256
  (d == 0 && x.state == .done) || decide (128 ≤ d)

/-- The effect of a barrier command that issues: tbinit and tbarr act at the end of the cycle (R390),
and are commands in flight until then (R197, R198). -/
def Cell.barrierCmd (c : Cell) (cycle k op : Nat) (x : Cmd) : Cell :=
  let rid := (c.strand k).recid.toNat
  let enter (t : Nat) (j : TbJob) : Cell := { (c.awaits k op t).scbAdd op k [] [] with tbjobs := c.tbjobs ++ [j] }
  match x with
  | .tbinit n a b t => enter t ⟨op, k, rid, n, true, a, b, t⟩
  | .tbarr n a t => enter t ⟨op, k, rid, n, false, a, 0, t⟩
  | .tbwait n a _ t => c.answer cycle k op t ((c.tbar n).word (if tbReady (c.tbar n) a then 1 else 2))
  | _ => c

end Sys2Proof.Machine
end

