-- ==== Sys2Proof/Machine/Remote.lean ====
section
/-! DEFINITION. The copy engine and the one-sided remote operations, at their source and at their destination (R247 to
R266). -/

namespace Sys2Proof.Machine

/-! ### Errors (R264, R265) -/

/-- An error word of the copy engine. -/
def copyErr (code detail : Nat) : Word := BitVec.ofNat 32 (0x02000000 + code * 2 ^ 16 + detail % 2 ^ 16)

def errREFUSED : Nat := 1
def errDISCARDED : Nat := 2
def errLINKDEAD : Nat := 3
def errNOROUTE : Nat := 4
def errLENGTH : Nat := 5
def errTHENREMOTE : Nat := 6
def errEXPIRED : Nat := 7

/-- The trap that an error word raises: TOKEN_EXPIRED with the carried token for EXPIRED, else ENGINE_ERR (R265, R372). -/
def errTrap (word carry : Word) : BitVec 8 × Word :=
  if word.toNat / 2 ^ 16 = 0x0207 then (causeTokenExpired, carry) else (causeEngineErr, word)

/-! ### The destination (R248, R254, R260) -/

/-- The bytes that a request reaches. -/
def Req.size (r : Req) : Nat :=
  match r.kind with
  | .write => r.data.length
  | .read n => n
  | .atomic _ => 4

/-- A record that keeps its regions open to cell strands (R248). -/
def RecEntry.active (r : RecEntry) : Bool :=
  match r.state with
  | .bound => true
  | .running => true
  | .parked => true
  | _ => false

/-- The declared region of a cell that holds the bytes, and whether an active record declares it. -/
def Cell.regionAt (c : Cell) (off n : Nat) (active : Bool) : Option RegionClass :=
  (c.recs.findSome? fun p =>
    if p.2.state != .free && (!active || p.2.active) then
      p.2.desc.regions.find? fun r => inside off n r.off r.size
    else none).map fun r => r.cls

/-- The destination admits a request (R248). -/
def Cell.admits (c : Cell) (fromSpire : Bool) (r : Req) : Bool :=
  let n := r.size
  let isAtomic := match r.kind with
    | .atomic _ => true
    | _ => false
  let isRead := match r.kind with
    | .read _ => true
    | _ => false
  if fromSpire then
    if inside r.off n 0 0x200000 then !isAtomic || c.regionAt r.off n false == some .inbox
    else if inside r.off n 0x200000 0x400000 then r.copy
    else if inside r.off n 0x600000 0x20000 then r.copy && !isRead
    else if inside r.off n 0x700000 0x100000 then
      !isAtomic && (r.copy || !isRead) && r.off % 4 == 0 && n % 4 == 0
    else false
  else
    inside r.off n 0 0x200000 &&
      (match c.regionAt r.off n true with
        | some .inbox => true
        | some .shared => isRead
        | _ => false)

/-- The word after a remote atomic (R260). -/
def atomicWord (k : RemoteKind) (x b : Word) : Word :=
  match k with
  | .rfadd => fpAddRNE x b
  | .radd => x + b
  | .rmax => maxS x b
  | _ => b

/-- The 4-byte units of [off, off + n) whose word is marked uncorrectable, as offsets from `off` (R257). -/
def Cell.badUnits (c : Cell) (off n : Nat) : List Nat :=
  ((List.range ((n + 3) / 4)).map fun i => 4 * i).filter fun i => c.corrupt (off + i) 4

/-- Bytes written by an engine, a packet or a remote party: fresh codes, then the units whose data arrived marked. -/
def Cell.engineWrite (c : Cell) (off : Nat) (data : List Byte) (bad : List Nat) : Cell :=
  let c := c.storeBytes off data
  { c with bad := bad.foldl (fun l i => if l.contains ((off + i) / 8) then l else l ++ [(off + i) / 8]) c.bad }

/-! ### Commands at their source -/

def Cell.engOp (c : Cell) (op : Nat) : Option EngOp := c.ops.find? fun o => o.op == op

def Cell.onEngOp (c : Cell) (op : Nat) (f : EngOp → EngOp) : Cell :=
  { c with ops := c.ops.map fun o => if o.op = op then f o else o }

/-- How many requests or sectors a command sends (R254) (log 27, DEDUCED). -/
def EngOp.sectors (o : EngOp) : Nat :=
  match o.kind with
  | .copy => (o.len + 255) / 256
  | _ => 1

/-- Sector `i` of a command: its place and its length in the copy. -/
def EngOp.sectorLen (o : EngOp) (i : Nat) : Nat := min 256 (o.len - 256 * i)

/-- The command sends nothing more. -/
def EngOp.allStarted (o : EngOp) : Bool := o.err != 0 || o.next == o.sectors

/-- The writes and atomics of a command that have not been answered. -/
def EngOp.writesOut (o : EngOp) : Nat :=
  o.out.countP fun q =>
    match q.req.kind with
    | .read _ => false
    | _ => true

/-- Every request of the command to a given cell exists: its reads there have started, and its writes there have their
data. -/
def EngOp.allMade (o : EngOp) (a : Addr) : Bool :=
  o.err != 0 || ((o.src != some a || o.next == o.sectors) && (o.dst != some a || decide (o.sectors ≤ o.done + o.writesOut)))

/-- A request that reads. -/
def Req.isRead (r : Req) : Bool :=
  match r.kind with
  | .read _ => true
  | _ => false

/-- The sectors of an ordered copy are written in ascending order, in whatever order their data come (R257): a write is in
turn once no earlier sector is still being read. -/
def EngOp.inTurn (o : EngOp) (q : OutReq) : Bool :=
  o.relaxed || q.req.isRead || o.out.all fun x => !(x.req.isRead && decide (x.req.sector < q.req.sector))

/-- A request of command `o` may be sent now under the order of its queue (R366): on an ordered queue every earlier request
to the same cell has been sent, no carried one of them is unanswered, and an uncarried request passes no held one. -/
def Cell.maySend (c : Cell) (o : EngOp) (q : OutReq) : Bool :=
  !q.req.ordered || o.inTurn q && c.ops.all fun p =>
    (p.op ≥ o.op || p.relaxed || p.allMade q.dst) &&
      p.out.all fun x =>
        !(x.req.ordered && x.dst == q.dst && (p.op < o.op || (p.op == o.op && x.req.sector < q.req.sector))) ||
          (match x.state with
            | .ready => false
            | .backoff _ => false
            | .sent => x.req.carry == 0
            | .held => q.req.carry != 0)

/-- The virtual channel of a request (R253). -/
def Req.vc (r : Req) : Nat := if r.ordered then 2 else 3

/-- A carried token as a request bears it that issues, or a copy's sector that is sent, now (R257, R365): nothing when it has
landed at its own cell. -/
def Cell.carryNow (c : Cell) (chip u : Nat) (t : Word) : Word :=
  if t = 0 then 0
  else if tokenLocal chip u t && !c.tokenPending t then 0 else t

/-- A sector of a copy that is sent after its carried token has landed is sent uncarried; every other request keeps what its
issue decided (R257, R262, R365). -/
def Cell.uncarried (c : Cell) (chip u : Nat) (q : OutReq) : OutReq :=
  if q.req.copy && q.nacks == 0 then { q with req := { q.req with carry := c.carryNow chip u q.req.carry } } else q

/-- The request `q` of command `o` is sent. -/
def State.sendReq (s : State) (m u : Nat) (o : EngOp) (q : OutReq) : State :=
  let s := s.onCell m u fun c => c.onEngOp o.op fun o =>
    { o with out := o.out.map fun x =>
        if x.req.sector = q.req.sector ∧ x.req.kind = q.req.kind then
          { x with req := q.req, state := .sent, first := if x.nacks = 0 then s.cycle else x.first } else x }
  s.send m u o.k q.dst q.req.vc (.request q.req)

/-- The write of a sector whose source bytes are in hand (R257). -/
def EngOp.writeOf (o : EngOp) (i : Nat) (data : List Byte) (bad : List Nat) : Req :=
  { kind := .write, copy := o.kind == .copy, ordered := !o.relaxed, off := o.dstOff + 256 * i, data := data, bad := bad,
    operand := 0, carry := if o.dst.isSome then o.carry else 0, token := o.token,
    op := o.op, sector := i, sectors := o.sectors, tbar := o.tbar, strand := o.k }

/-- A sector of a copy is written in the copying cell itself after `delay` cycles, as an engine write (log 27, DEDUCED). -/
def State.writeHere (s : State) (m u : Nat) (r : Req) (delay : Nat) : State :=
  let me := s.addr m u
  { s with
    net := s.net ++ [⟨s.nextId, m, .inside (s.cycle + max 1 delay) true, me, r.strand, me, 2, .request r, []⟩]
    nextId := s.nextId + 1 }

/-- The source bytes of a sector of a local source are in hand after `delay` cycles: it is written in this cell, or becomes a
request to the destination (R257) (log 27, DEDUCED). -/
def State.forwardSector (s : State) (m u : Nat) (o : EngOp) (i : Nat) (data : List Byte) (bad : List Nat) (delay : Nat) :
    State :=
  let r := o.writeOf i data bad
  match o.dst with
  | none => s.writeHere m u r delay
  | some d => s.onCell m u fun c => c.onEngOp o.op fun o => { o with out := o.out ++ [⟨r, d, s.cycle, 0, .backoff (s.cycle + delay)⟩] }

/-- The sectors of a copy into its own cell that have come from another cell and are in turn are written, in ascending order
(R257). -/
def State.writeInTurn (s : State) (m u op : Nat) : State :=
  match (s.cell m u).engOp op with
  | none => s
  | some o =>
    let go := sortBy (fun (q : OutReq) => q.req.sector) (o.out.filter fun q => !q.req.isRead && q.state == .ready && o.inTurn q)
    let s := s.onCell m u fun c => c.onEngOp op fun o =>
      { o with out := o.out.map fun q => if go.contains q then { q with state := .sent } else q }
    go.foldl (fun s q => s.writeHere m u q.req 0) s

/-- The bytes of a sector have come from another cell: it becomes a request to the destination, or is written here in its turn
(R257). -/
def State.takeSector (s : State) (m u : Nat) (o : EngOp) (i : Nat) (data : List Byte) (bad : List Nat) : State :=
  let q : OutReq := ⟨o.writeOf i data bad, o.dst.getD (s.addr m u), s.cycle, 0, .ready⟩
  let s := s.onCell m u fun c => c.onEngOp o.op fun o => { o with out := o.out ++ [q] }
  if o.dst.isNone then s.writeInTurn m u o.op else s

/-- Every earlier copy and write-type operation of the strand has landed (R259) (log 28, DEDUCED). -/
def Cell.serialClear (c : Cell) (o : EngOp) : Bool :=
  c.ops.all fun p => !(p.k == o.k && p.recid == o.recid && p.op < o.op &&
    (p.kind == .copy || p.kind == .store || p.kind == .atomic))

/-- The wait of a local copy for its foreign carried token has ended well, or it needs none (R263) (log 28, DEDUCED). -/
def Cell.copyMayWrite (c : Cell) (chip u : Nat) (o : EngOp) : Bool :=
  o.dst.isSome || o.carry == 0 ||
    (if tokenLocal chip u o.carry then !c.tokenPending o.carry
    else match c.waitOf (.copy o.op) with
      | some w => w.state == .landed
      | none => false)

/-- The next sector of a copy or block read may start in this cycle (R254, R198, R259, R263) (log 28, DEDUCED). -/
def State.mayStart (s : State) (m u : Nat) (o : EngOp) : Bool :=
  let c := s.cell m u
  let i := o.next
  let n := o.sectorLen i
  (o.kind == .copy || o.kind == .readBlock) && !o.allStarted && decide (o.nextAt ≤ s.cycle) &&
    decide (c.engineAt ≤ s.cycle) && (!o.serial || 0 < i || c.serialClear o) &&
    c.copyMayWrite (s.chip m) u o &&
    c.scbClear o.op (if o.src.isNone && !o.zeros then [(o.srcOff + 256 * i, n)] else [])
      (if o.dst.isNone then [(o.dstOff + 256 * i, n)] else [])

/-- The next sector of a command starts: a local source is read now, a remote one with a read request (R256, R257)
(log 27, DEDUCED). -/
def State.startSector (s : State) (m u : Nat) (o : EngOp) : State :=
  let c := s.cell m u
  let i := o.next
  let n := o.sectorLen i
  let s := s.onCell m u fun c =>
    { c.onEngOp o.op (fun o => { o with next := o.next + 1 }) with engineAt := s.cycle + 2 }
  match o.src with
  | none =>
    let delay := (n + 127) / 128
    if o.zeros then s.forwardSector m u o i (List.replicate n 0) [] delay
    else
      (s.forwardSector m u o i (memBytes c.mem (o.srcOff + 256 * i) n) (c.badUnits (o.srcOff + 256 * i) n) delay).found m u
        (o.srcOff + 256 * i) n o.k o.recid 1
  | some a =>
    let r : Req :=
      { kind := .read n, copy := o.kind == .copy, ordered := !o.relaxed, off := o.srcOff + 256 * i, data := [], bad := [],
        operand := 0, carry := 0, token := 0, op := o.op, sector := i, sectors := o.sectors, tbar := none, strand := o.k }
    s.onCell m u fun c => c.onEngOp o.op fun o => { o with out := o.out ++ [⟨r, a, s.cycle, 0, .ready⟩] }

/-- A request is ready to be sent: its sector has been read, or nothing holds it (R254) (log 29, DEDUCED). -/
def OutReq.ready (q : OutReq) (cycle : Nat) : Bool :=
  match q.state with
  | .ready => true
  | .backoff t => q.nacks == 0 && decide (t ≤ cycle)
  | _ => false

/-- A late error of a command waits at its strand, unless the strand's record has ended (R265) (log 27, DEDUCED). -/
def EngOp.report (o : EngOp) (c : Cell) (word : Word) (dst : Addr) : Cell :=
  let t := errTrap word o.carry
  c.onContext o.k o.recid fun st =>
    { st with errs := st.errs ++ [⟨o.op, false, t.1, t.2, o.token, dst.chip, dst.unit⟩] }

/-- A command finishes its ranges sector by sector (R198): the parts after `done` sectors. -/
def Cell.shrinkScb (c : Cell) (o : EngOp) (done : Nat) : Cell :=
  match c.scb.find? fun e => e.op == o.op && !o.relaxed with
  | none => c
  | some e =>
    c.scbLeave o.op
      (if o.next < o.sectors then e.reads.map fun r => (o.srcOff + 256 * done, r.1 + r.2 - (o.srcOff + 256 * done)) else [])
      (e.writes.map fun w => (o.dstOff + 256 * done, w.1 + w.2 - (o.dstOff + 256 * done)))

/-- The node that performs a command: the cell that a read names, else the destination; none for the issuing cell (R196)
(log 27, DEDUCED). -/
def EngOp.target (o : EngOp) : Option Addr :=
  match o.kind with
  | .readWord => o.src
  | .readBlock => o.src
  | _ => o.dst

/-- The array command of a copy may enter, but finds no room (R218, R258). -/
def State.thenWaits (s : State) (m u : Nat) (o : EngOp) : Bool :=
  let v := View.ofContext s m u o.k o.recid
  (v.thenTraps o.andThen o.sb).isEmpty && v.thenFull o.andThen

/-- A command ends when everything that it sent has been answered (for an atomic also by the old word, which sets its
`len`): its `then` command enters the array queue once that has room, its register is delivered, and it leaves the engine and
the scoreboard (R257, R258, R264). -/
def State.finishOp (s : State) (m u op : Nat) : State :=
  match (s.cell m u).engOp op with
  | none => s
  | some o =>
    if !o.allStarted || !o.out.isEmpty || (o.err == 0 && (o.done < o.sectors || o.kind == .atomic && o.len == 0)) then s
    else if o.err == 0 && o.andThen.getLsbD 31 && s.thenWaits m u o then s
    else
      let ok := o.err == 0
      let s := if ok && o.andThen.getLsbD 31 then s.enterThen m u o else s
      let t := errTrap o.err o.carry
      s.onCell m u fun c =>
        let c := { c.endWait (.copy op) with
          ops := c.ops.filter fun x => x.op != op
          scb := (c.scbDrop op).scb }
        let c := if ok then c else o.report c o.err (o.target.getD (s.addr m u))
        match o.kind with
        | .copy | .readBlock =>
          if o.t = 0 then c
          else c.deliverAt (s.cycle + 1) o.k op o.t (if ok then 0 else Config.errorValue op)
            (if ok then [] else [.trap op t.1 t.2])
        | .readWord | .atomic =>
          if ok || o.t = 0 then c
          else c.deliverAt (s.cycle + 1) o.k op o.t (Config.errorValue op) [.trap op t.1 t.2]
        | .store => c

/-- What the copy engine of a cell does in one cycle: each command in the order of issue sends the requests that may go,
and one sector starts (R254, R366). -/
def State.pumpEngine (s : State) (m u : Nat) : State :=
  (s.cell m u).ops.foldl
    (fun s p =>
      let s := if p.andThen.getLsbD 31 then s.finishOp m u p.op else s
      match (s.cell m u).engOp p.op with
      | none => s
      | some o =>
        let s := if s.mayStart m u o then s.startSector m u o else s
        match (s.cell m u).engOp p.op with
        | none => s
        | some o => o.out.foldl
            (fun s q =>
              if q.ready s.cycle && (s.cell m u).maySend o q then s.sendReq m u o ((s.cell m u).uncarried (s.chip m) u q) else s)
            s) s

/-- The command after an answer of its request of `sector`: an error stops whatever it has not sent (R257, R264)
(log 29, DEDUCED). -/
def EngOp.settled (o : EngOp) (sector : Nat) (err : Word) (counts : Bool) : EngOp :=
  let out := o.out.filter fun q => !(q.req.sector == sector && (counts || q.req.kind != .write))
  { o with
    out := if err = 0 then out else out.filter fun q =>
      match q.state with
      | .sent => true
      | .held => true
      | _ => false
    done := if err = 0 ∧ counts then o.done + 1 else o.done
    err := if o.err = 0 then err else o.err }

/-- A request of a command is answered for good: it is no longer outstanding, and its token counts the answer (R364)
(log 29, DEDUCED). -/
def State.settleReq (s : State) (m u op sector : Nat) (err : Word) (counts : Bool) : State :=
  match (s.cell m u).engOp op with
  | none => s
  | some o =>
    let o' : EngOp := o.settled sector err counts
    let s := s.onCell m u fun c => (c.onEngOp op fun _ => o').shrinkScb o' o'.done
    let s :=
      match o.entry with
      | none => s
      | some i =>
        if err = 0 ∧ counts = false then s
        else if err ≠ 0 ∧ o.kind = EngKind.copy then
          (s.onCell m u fun c => c.onToken i fun e => { e with count := o'.writesOut + 1 }).ackToken m u i err
        else s.ackToken m u i err
    s.finishOp m u op

/-- A local sector of a copy is performed as an engine write (R257). -/
def State.performLocal (s : State) (m u : Nat) (r : Req) : State :=
  let s := s.onCell m u fun c => c.engineWrite r.off r.data r.bad
  let s :=
    match r.tbar with
    | none => s
    | some b => s.tbCount m u b 1
        (if ((s.cell m u).engOp r.op).any (fun (o : EngOp) => o.done + 1 == o.sectors) then 1 else 0)
  s.settleReq m u r.op r.sector 0 true

/-- The answer to a read or an atomic reaches its source (R257, R260, R261) (log 29, DEDUCED). -/
def State.takeResponse (s : State) (m u op sector : Nat) (word : Word) (data : List Byte) (bad : List Nat)
    (tainted : Bool) : State :=
  match (s.cell m u).engOp op with
  | none => s
  | some o =>
    match o.kind with
    | .readWord =>
      let s := s.onCell m u fun c =>
        c.deliverAt (s.cycle + 1) o.k op o.t word (if tainted then [.taint 0xC0] else [])
      s.settleReq m u op sector 0 true
    | .atomic =>
      let s := s.onCell m u fun c =>
        let c := c.onEngOp op fun o => { o with len := 1 }
        if o.t = 0 then c else c.deliverAt (s.cycle + 1) o.k op o.t word []
      s.finishOp m u op
    | _ =>
      let s := s.onCell m u fun c => c.onEngOp op fun o =>
        { o with out := o.out.filter fun q => !(q.req.sector == sector && q.req.kind != .write) }
      if o.err ≠ 0 then s.finishOp m u op
      else s.takeSector m u o sector (if data.isEmpty then leBytes 4 word.toNat else data) bad

end Sys2Proof.Machine
end

