-- ==== Sys2Proof/Machine/CopyCmds.lean ====
section
/-! DEFINITION. What the copy, remote and token instructions do when their bundle commits (R251 to R263, R365, R376,
R378). -/

namespace Sys2Proof.Machine

/-! ### Copy descriptor sets (R251, R252) -/

/-- A field of a set by its number. -/
def CopySet.get (x : CopySet) (f : Nat) : Word :=
  match f with
  | 0 => x.sh
  | 1 => x.dh
  | 2 => x.len
  | 3 => x.tbar
  | 4 => x.andThen
  | 5 => x.carry
  | _ => x.ord

def CopySet.put (x : CopySet) (f : Nat) (w : Word) : CopySet :=
  match f with
  | 0 => { x with sh := w }
  | 1 => { x with dh := w }
  | 2 => { x with len := w }
  | 3 => { x with tbar := w }
  | 4 => { x with andThen := w }
  | 5 => { x with carry := w }
  | _ => { x with ord := w }

/-- The values of a field. -/
def copyValue (f : Nat) (w : Word) : Bool :=
  match f with
  | 0 => w.toNat < 16
  | 1 => w.toNat < 16
  | 2 => 1 ≤ w.toNat && w.toNat ≤ 2097152
  | 3 => w.toNat < 64
  | 4 => w.toNat / 2 ^ 29 % 4 != 3 && !w.getLsbD 23
  | 5 => true
  | _ => w.toNat < 3

def Cell.cd (c : Cell) (n : Nat) : CopySet := tget CopySet.reset c.cds n

/-! ### Targets and carried tokens (R247, R365) -/

/-- The cell and the cell offset that a handle and an offset name (R247). -/
def Handle.target (h : Handle) (here : Addr) (off : Nat) : Addr × Nat :=
  if h.win then (here, h.w1.toNat + off)
  else (⟨h.w3.toNat / 2 ^ 22, h.w3.toNat / 2 ^ 12 % 1024⟩, h.w3.toNat % 128 * 65536 + off)

/-- A carried token that is pending takes a slot of its entry for the destination (R365). -/
def Cell.claimSlot (c : Cell) (chip u : Nat) (carry : Word) (dst : Addr) : Cell :=
  if carry ≠ 0 ∧ tokenLocal chip u carry then c.onToken (carry.toNat % 256) fun e => e.takeSlot (nodeOf dst)
  else c

/-- All slots of a carried token's entry are in use (R365). -/
def Cell.slotsFull (c : Cell) (chip u : Nat) (carry : Word) : Bool :=
  carry != 0 && tokenLocal chip u carry && c.tokenPending carry && !(c.token (carry.toNat % 256)).slotFree

/-- The token that the next allocation gives, or the null token on a Spire core, which has no table (R360, R362). -/
def Cell.nextToken (c : Cell) (chip u : Nat) : Word :=
  if c.spire then 0
  else
    match c.freeToken with
    | some i => tokenWord chip u (if (c.token i).gen = 15 then 1 else (c.token i).gen + 1) i
    | none => 0

/-! ### Commands enter the engine (R255, R257, R260) -/

/-- A command that moves its bytes by sectors. -/
def EngOp.bulk (o : EngOp) : Bool := o.kind == EngKind.copy || o.kind == EngKind.readBlock

/-- A command joins the engine and the scoreboard. -/
def Cell.enterOp (c : Cell) (o : EngOp) : Cell :=
  { c with ops := c.ops ++ [o] }.scbAdd o.op o.k
    (if o.src.isNone && !o.zeros && o.bulk then [(o.srcOff, o.len)] else [])
    (if o.dst.isNone && o.bulk then [(o.dstOff, o.len)] else [])

/-- A write-type command to another cell takes a token and, for its carried token, a slot; one through a discarded page
completes with DISCARDED (R250, R257, R260, R365). -/
def State.enterRemote (s : State) (m u : Nat) (o : EngOp) (disc : Bool) : State :=
  let chip := s.chip m
  let c := s.cell m u
  let dst := o.dst.getD (s.addr m u)
  let c := if disc then c else c.claimSlot chip u o.carry dst
  let c :=
    match o.entry with
    | some i => c.allocToken i o.k o.recid (if disc then 1 else o.sectors) .pending o.carry 0 0
    | none => c
  let s := s.setCell m u (c.enterOp o)
  if disc then s.settleReq m u o.op 0 (copyErr errDISCARDED 0) false else s

/-- A copy issues (R257): `x` is its descriptor set, with the handles and the offsets of its sides. -/
def State.issueCopy (s : State) (m u k op : Nat) (x : CopySet) (sh dh : Handle) (a b : Word) (t : Nat) : State :=
  let c := s.cell m u
  let here := s.addr m u
  let src := sh.target here a.toNat
  let dst := dh.target here b.toNat
  let far := dh.aper != 0
  let carry := if far then c.carryNow (s.chip m) u x.carry else x.carry
  let entry := if far && !c.spire then c.freeToken else none
  let o : EngOp :=
    { op := op, k := k, recid := (c.strand k).recid.toNat, kind := .copy, t := t, entry := entry
      token := if far then c.nextToken (s.chip m) u else 0
      relaxed := x.ord == 1, serial := x.ord == 2
      src := if sh.aper = 0 ∨ sh.disc then none else some src.1
      srcOff := src.2, dst := if far then some dst.1 else none, dstOff := dst.2, len := x.len.toNat, zeros := sh.disc
      tbar := if x.tbar.getLsbD 5 then some (x.tbar.toNat % 32) else none
      andThen := x.andThen, sb := b, carry := carry, next := 0, done := 0, nextAt := s.cycle, out := [], err := 0 }
  let s := s.onCell m u fun c => c.awaits k op t
  if far then s.enterRemote m u o dh.disc
  else
    let s := s.onCell m u fun c => c.enterOp o
    if carry ≠ 0 ∧ !(tokenLocal (s.chip m) u carry) then s.startWatch m u (.copy op) carry else s

/-- The kind of engine command of a one-sided operation. -/
def RemoteKind.engKind (r : RemoteKind) : EngKind :=
  match r with
  | .rst => .store
  | .rstc => .store
  | .rld => .readWord
  | .rldBlock => .readBlock
  | _ => .atomic

/-- What its request does at the destination. -/
def RemoteKind.reqKind (r : RemoteKind) : ReqKind :=
  match r with
  | .rst => .write
  | .rstc => .write
  | .rld => .read 4
  | .rldBlock => .read 128
  | x => .atomic x

/-- A one-sided operation on another cell issues (R260), or the block form of rld from any cell (R261, R263). -/
def State.issueRemote (s : State) (m u k op : Nat) (kind : RemoteKind) (relaxed : Bool) (h : Handle) (a b carried : Word)
    (t : Nat) : State :=
  let c := s.cell m u
  let here := s.addr m u
  let to' := h.target here a.toNat
  let rid := (c.strand k).recid.toNat
  let carry := c.carryNow (s.chip m) u carried
  let isRead := kind = .rld ∨ kind = .rldBlock
  let base : EngOp :=
    { op := op, k := k, recid := rid, kind := kind.engKind, t := t, entry := none, token := 0, relaxed := relaxed
      serial := false, src := none, srcOff := to'.2, dst := none, dstOff := 0, len := 0, zeros := false, tbar := none
      andThen := 0, sb := 0, carry := 0, next := 1, done := 0, nextAt := s.cycle, out := [], err := 0 }
  let req : Req :=
    { kind := kind.reqKind, copy := false, ordered := !relaxed, off := to'.2
      data := if isRead then [] else leBytes 4 b.toNat, bad := [], operand := b, carry := if isRead then 0 else carry
      token := 0, op := op, sector := 0, sectors := 1, tbar := none, strand := k }
  match kind with
  | .rld =>
    if h.disc then s.onCell m u fun c => c.answer s.cycle k op t 0
    else
      s.onCell m u fun c => (c.awaits k op t).enterOp
        { base with src := some to'.1, out := [⟨req, to'.1, s.cycle, 0, .ready⟩] }
  | .rldBlock =>
    s.onCell m u fun c => (c.awaits k op t).enterOp
      { base with
        src := if h.aper = 0 ∨ h.disc then none else some to'.1
        zeros := h.disc, dstOff := b.toNat, len := 128, next := 0 }
  | _ =>
    let entry := if c.spire then none else c.freeToken
    let token := c.nextToken (s.chip m) u
    let o : EngOp :=
      { base with
        entry := entry, token := token, dst := some to'.1, dstOff := to'.2, carry := carry
        out := if h.disc then [] else [⟨{ req with token := token }, to'.1, s.cycle, 0, .ready⟩] }
    let s := s.onCell m u fun c =>
      if kind = .rst ∨ kind = .rstc then c.answer s.cycle k op t token else c.awaits k op t
    s.enterRemote m u o h.disc

/-- A one-sided operation of the issuing cell is performed in its issue cycle (R263): `old` is the word before the bundle, and
`bad` tells that it was read with an uncorrectable error (R69, R187) (log 61, DEDUCED). -/
def Cell.localOp (c : Cell) (cycle k op : Nat) (kind : RemoteKind) (off : Nat) (old : Word) (bad : Bool) (b : Word) (t : Nat) :
    Cell :=
  let notes : List Note := if bad then [.taint 0xC0] else []
  let give (c : Cell) (x : Word) (notes : List Note) : Cell :=
    if t = 0 then c else (c.awaits k op t).deliverAt (cycle + 1) k op t x notes
  match kind with
  | .rst => give (c.storeBytes off (leBytes 4 b.toNat)) 0 []
  | .rstc => give (c.storeBytes off (leBytes 4 b.toNat)) 0 []
  | .rld => give c old notes
  | .rldBlock => c
  | x => give (c.storeBytes off (leBytes 4 (atomicWord x old b).toNat)) old notes

/-! ### Token instructions (R376 to R378) -/

/-- The tokens of a list with the inputs of those that are joins of this cell, `n` levels deep (R377, R378). -/
def Cell.joined (c : Cell) (chip u : Nat) : Nat → List Word → List Word
  | 0, ts => ts
  | n + 1, ts =>
    let more := ts.flatMap fun t =>
      if t ≠ 0 ∧ tokenLocal chip u t ∧ c.tokenCurrent t then
        [(c.token (t.toNat % 256)).ina, (c.token (t.toNat % 256)).inb]
      else []
    let new := more.filter fun t => t != 0 && !ts.contains t
    if new.isEmpty then ts else c.joined chip u n (ts ++ new)

/-- The tokens whose errors an observer of `t` meets; the null token has none. -/
def Cell.tokensOf (c : Cell) (chip u : Nat) (t : Word) : List Word := if t = 0 then [] else c.joined chip u 256 [t]

/-- The status word of a token at its origin, or of the null token (R376). -/
def Cell.tokenStatus (c : Cell) (t : Word) : Word :=
  if c.tokenPending t then 0 else if c.tokenErr t ≠ 0 then 3 else 1

/-- tchk (R376): answered here for a local or null token, else by the token's origin. -/
def State.issueTchk (s : State) (m u k op : Nat) (a : Word) (t : Nat) : State :=
  let chip := s.chip m
  let notes (c : Cell) : List Note := [.concerns (c.tokensOf chip u a)]
  if a = 0 ∨ tokenLocal chip u a then
    s.onCell m u fun c => (c.awaits k op t).deliverAt (s.cycle + 1) k op t (c.tokenStatus a) (notes c)
  else
    let s := s.onCell m u fun c =>
      { c.awaits k op t with waits := c.waits ++ [⟨.query k t op, a, s.cycle, 0, .out⟩] }
    s.send m u 0 (tokenOrigin a) 5 (.query a op)

/-- A token counts as landed for tjoin at once: null, or local and landed (R378). -/
def Cell.joinDone (c : Cell) (chip u : Nat) (t : Word) : Bool :=
  t == 0 || (tokenLocal chip u t && !c.tokenPending t)

/-- tjoin (R378). On a Spire core, which has no token table, the join of two tokens that may be pending is a free value
(log 6, DESIGN CHOICE). -/
def State.issueTjoin (s : State) (m u k op : Nat) (a b : Word) (t : Nat) : State :=
  let c := s.cell m u
  let chip := s.chip m
  let x := c.joinDone chip u a
  let y := c.joinDone chip u b
  let give (s : State) (w : Word) : State := s.onCell m u fun c => c.answer s.cycle k op t w
  if x && y then give s 0
  else if x then give s b
  else if y then give s a
  else if c.spire then give { s with free := s.free + 1 } (Config.spireJoin s.free)
  else
    match c.freeToken with
    | none => s
    | some i =>
      let w := c.nextToken chip u
      let s := give s w
      let s := s.onCell m u fun c => c.allocToken i k (c.strand k).recid.toNat 2 .join 0 a b
      let s := if tokenLocal chip u a then s else s.startWatch m u (.join i false) a
      if tokenLocal chip u b then s else s.startWatch m u (.join i true) b

/-- The effect of a copy, remote or token command that issues; `op` is its number (R251 to R263, R376 to R378). -/
def State.copyCmd (s : State) (m u k op : Nat) (x : Cmd) : State :=
  match x with
  | .cset n f w => s.onCell m u fun c => { c with cds := tput c.cds n ((c.cd n).put f w) }
  | .cget n f d => s.onCell m u fun c => c.answer s.cycle k op d ((c.cd n).get f)
  | .copy n sh dh a b t => s.issueCopy m u k op ((s.cell m u).cd n) sh dh a b t
  | .remote kind relaxed h a b carried t => s.issueRemote m u k op kind relaxed h a b carried t
  | .localOp kind off old bad b t => s.onCell m u fun c => c.localOp s.cycle k op kind off old bad b t
  | .tchk a t => s.issueTchk m u k op a t
  | .tjoin a b t => s.issueTjoin m u k op a b t
  | _ => s

end Sys2Proof.Machine
end

