-- ==== Sys2Proof/Machine/LinkOps.lean ====
section
/-! DEFINITION. Ilfin links: lanes and widths, link packets, credits, replay, isolation, routing at the module switch, and
the synchronisation of cycle counters (R305 to R319, R379 to R381, R402, R406, R433). -/

namespace Sys2Proof.Machine

/-! ### Ports, lanes and links (R305, R306, R314) -/

def IoDie.onLink (io : IoDie) (l : Nat) (f : Link → Link) : IoDie := { io with links := tput io.links l (f (io.link l)) }
/-- SPLIT of a port, and whether a link number names a link under it. -/
def IoDie.split (io : IoDie) (p : Nat) : Nat := tget 0 io.splits p
def IoDie.linkExists (io : IoDie) (l : Nat) : Bool := decide (l < 64) && decide (l % 4 < 2 ^ io.split (l / 4))

/-- The lanes of a link: the first and how many (R305). -/
def IoDie.lanes (io : IoDie) (l : Nat) : Nat × Nat :=
  let n := 16 / 2 ^ io.split (l / 4)
  (n * (l % 4), n)

/-- The replay buffer of a link in flits (R305). -/
def IoDie.replayCap (io : IoDie) (l : Nat) : Nat := 512 / 2 ^ io.split (l / 4)

/-- The widest aligned group of lanes with no failed lane, of these the lowest (R314): its width and first lane. -/
def widest (lanes : Nat × Nat) (failed : BitVec 16) : Option (Nat × Nat) :=
  ((([16, 8, 4, 2].filter fun w => w ≤ lanes.2).flatMap fun w =>
    (List.range (lanes.2 / w)).map fun i => (w, lanes.1 + w * i))).find? fun g =>
      (List.range g.1).all fun i => !failed.getLsbD (g.2 + i)

/-- A change of a link; the ready bit of its port follows the state of link 0 (R419). -/
def State.onLink (s : State) (m l : Nat) (f : Link → Link) : State :=
  let s := s.onMod m fun x => { x with io := x.io.onLink l f }
  if l % 4 = 0 then s.setReady m 32 (l / 4) ((s.link m l).state == .up) else s

/-- The code of a state (R313). -/
def LinkState.code (x : LinkState) : Nat :=
  match x with
  | .down => 0
  | .train => 1
  | .up => 2
  | .retrain => 3
  | .isolated => 4

/-! ### Flits (R306 to R310) -/

/-- The payload bytes of a message, from which its link packets follow (R307). -/
def Body.bytes (b : Body) : Nat :=
  match b with
  | .request r =>
    (match r.kind with
      | .write => r.data.length
      | .read _ => 0
      | .atomic _ => 4)
  | .response _ _ _ data _ _ => if data.isEmpty then 4 else data.length
  | .packet _ p => 16 + p.payload.length
  | .image _ data => data.length
  | _ => 0

/-- The link packets of a message, and the flits of the `i`-th. -/
def Body.parts (b : Body) : Nat := max 1 ((b.bytes + 255) / 256)
def Body.flits (b : Body) (i : Nat) : Nat := 1 + (min 256 (b.bytes - 256 * i) + 31) / 32

/-- The transaction of a message, in the order of R308. -/
def Body.transaction (b : Body) : Nat :=
  match b with
  | .packet .. => 0
  | .request r => if r.copy then 1 else 2
  | .response .. => 3
  | .error .. => 3
  | .queueAns .. => 3
  | .ack .. => 4
  | .held .. => 4
  | .nack .. => 4
  | .watch .. => 4
  | .watchError .. => 4
  | .release .. => 4
  | .busy .. => 4
  | .query .. => 4
  | .queryAnswer .. => 4
  | .image .. => 6
  | _ => 5

/-- INFO of a header: a channel, a sector number or the tag of a request (log 5, DESIGN CHOICE). -/
def Body.info (b : Body) : Nat :=
  match b with
  | .packet chan _ => chan
  | .credit chan _ _ => chan
  | .close chan _ => chan
  | .dead chan _ => chan
  | .weight chan _ => chan
  | .request r => if r.copy then r.sector else r.op
  | .response op .. => op
  | .error op .. => op
  | .ack op _ => op
  | .held op _ => op
  | .nack op _ => op
  | _ => 0

/-- DOFF, TOKEN and ERR of a header; a word to which R308 gives no value for a message is 0 (log 5, DESIGN CHOICE). -/
def Body.rest (b : Body) : List Word :=
  match b with
  | .request r => [BitVec.ofNat 32 (r.off % 2 ^ 23), if r.carry = 0 then r.token else r.carry, 0]
  | .error _ _ word => [0, 0, word]
  | .watch token _ => [0, token, 0]
  | .watchError token _ word => [0, token, word]
  | .release token => [0, token, 0]
  | .busy token _ => [0, token, 0]
  | .query token _ => [0, token, 0]
  | _ => [0, 0, 0]

/-- The eight words of a header flit, whose nodes are those of R160 and R176 (R308). -/
def Msg.header (x : Msg) (lseq : BitVec 12) (flits : Nat) : List Word :=
  [BitVec.ofNat 32 (2 ^ 28 + x.vc * 2 ^ 25 + (flits - 1) * 2 ^ 21 + lseq.toNat), BitVec.ofNat 32 (nodeBits x.dst * 2 ^ 12),
    BitVec.ofNat 32 (nodeBits x.src * 2 ^ 12 + x.strand * 2 ^ 10),
    BitVec.ofNat 32 ((Config.opcode x.body.transaction).toNat * 2 ^ 24 + x.body.info % 2 ^ 24)] ++ x.body.rest ++ [0]

/-- Word 0 of a control flit (R309). -/
def controlWord (ctype low : Nat) : Word := BitVec.ofNat 32 (2 * 2 ^ 28 + ctype * 2 ^ 24 + low)

/-- Words 1 to 4 of an ACK: the credits returned, 16 bits for each virtual channel. -/
def creditWords (credits : List Nat) : List Word :=
  (List.range 4).map fun i => BitVec.ofNat 32 (credits.getD (2 * i) 0 % 2 ^ 16 + credits.getD (2 * i + 1) 0 % 2 ^ 16 * 2 ^ 16)

/-- The first words of a flit (R308, R309) (log 5, DESIGN CHOICE). -/
def State.flitWords (s : State) (b : FlitBody) : List Word :=
  match b with
  | .packet lseq msg _ flits _ =>
    (match s.net.find? fun x => x.id == msg with
      | some x => x.header lseq flits
      | none => [BitVec.ofNat 32 (2 ^ 28 + lseq.toNat)])
  | .ack lseq credits => controlWord 1 lseq.toNat :: creditWords credits
  | .nak lseq => [controlWord 2 lseq.toNat]
  | .time hops cyc head =>
    [controlWord 4 (hops % 2 ^ 12), cyc.setWidth 32, BitVec.ofNat 32 (cyc.toNat / 2 ^ 32), BitVec.ofNat 32 (head * 2 ^ 22)]
  | .train chip link => [controlWord 3 0, BitVec.ofNat 32 (chip * 2 ^ 22 + link)]
  | .isolate => [controlWord 5 0]
  | .control ctype => [controlWord (ctype % 16) 0]

/-- CTYPE of a control flit, by its word 0 (R309). -/
def ctypeOf (w : Word) : Option Nat := if w.toNat / 2 ^ 28 = 2 then some (w.toNat / 2 ^ 24 % 16) else none

/-- The time that a link of a width takes to send some flits, in sevenths of a cycle: 7 flits in 32 lane-cycles (R306)
(log 5, DESIGN CHOICE). -/
def flitTime (width flits : Nat) : Nat := 32 * flits / width

/-- A flit leaves end `p` of a link after `time` cycles and reaches the other end in the order of sending (R307). -/
def State.sendFlit (s : State) (p : Plug) (time : Nat) (body : FlitBody) : State :=
  match s.farEnd p with
  | none => s
  | some q =>
    let due := (s.flits.filter fun f => f.to' == q).foldl (fun d f => max d f.due)
      (s.cycle + max 1 time + Config.linkDelay s.nextId)
    { s with flits := s.flits ++ [⟨s.nextId, due, q, body, (s.link p.m p.link).era⟩], nextId := s.nextId + 1 }

/-- Some flits follow one another at end `p` of a link at its rate, and the last of them leaves when they have been sent
(R306) (log 5, DESIGN CHOICE). -/
def State.sendFlits (s : State) (p : Plug) (flits : Nat) (body : FlitBody) : State :=
  let k := tget Link.reset (s.mod p.m).io.links p.link
  let ends := max k.txFree (7 * s.cycle) + flitTime k.width flits
  (s.onLink p.m p.link fun k => { k with txFree := ends }).sendFlit p ((ends + 6) / 7 - s.cycle) body

/-- A flit that has arrived. -/
def State.flitAt (s : State) (id : Nat) : Option Flit := s.flits.find? fun f => f.id == id && decide (f.due ≤ s.cycle)

def State.dropFlit (s : State) (id : Nat) : State := { s with flits := s.flits.filter fun f => f.id != id }

/-- What is on the wires of a link in both directions is lost (R315) (log 52, DEDUCED). -/
def State.clearWire (s : State) (p : Plug) : State :=
  { s with flits := s.flits.filter fun f => f.to' != p && some f.to' != s.farEnd p }

/-! ### Requests and packets that cannot go on (R285, R317, R318) -/

/-- The channel end that sent a stream packet: its out-channel, or its ingress endpoint. -/
def producerEnd (x : Msg) (p : Packet) : EndKey :=
  if x.src.unit = ioUnit then ⟨x.src, true, p.origin.toNat / 2 ^ 12 % 256⟩ else ⟨x.src, true, p.origin.toNat % 16⟩

/-- A dead notice to a channel end (R285) (log 38, DEDUCED). -/
def State.deadTo (s : State) (m : Nat) (k : EndKey) : State := s.send m ioUnit 0 k.addr 6 (.dead k.chan k.out)

/-- Module `m` answers a message that cannot go on: a request with an error, a stream packet and a credit with a dead notice
to the end that sent it, WATCH and QUERY with errors; every other message is lost (R285, R317, R318, R373, R374) (log 38,
DEDUCED). -/
def State.turnAway (s : State) (m : Nat) (x : Msg) (word : Word) : State :=
  match x.body with
  | .request r => s.send m ioUnit x.strand x.src 4 (.error r.op r.sector word)
  | .packet _ p => s.deadTo m (producerEnd x p)
  | .credit _ _ n => s.deadTo m ⟨x.src, false, n⟩
  | .watch t tag => s.send m ioUnit x.strand x.src 4 (.watchError t tag word)
  | .query _ op => s.send m ioUnit x.strand x.src 4 (.queryAnswer op 3)
  | _ => s

/-! ### Isolation (R316, R317) -/

/-- The OPEN channel ends of a module, those of its host endpoints among them, each with its peer's chip and whether its MODE is
relaxed. -/
def State.openEnds (s : State) (m : Nat) : List (EndKey × Nat × Bool) :=
  let chip := s.chip m
  let io := (s.mod m).io
  let key (u : Nat) (out : Bool) (n : Nat) (peer : Word) (mode : Bool) : EndKey × Nat × Bool :=
    (⟨⟨chip, u⟩, out, n⟩, (peerAddr peer).1.chip, mode)
  ((s.mod m).cells.flatMap fun p =>
    (p.2.ins.filter fun x => x.2.state == .opened).map (fun x => key p.1 false x.1 x.2.peer x.2.mode) ++
    (p.2.outs.filter fun x => x.2.state == .opened).map fun x => key p.1 true x.1 x.2.peer x.2.mode) ++
    (io.ingress.filter fun x => x.2.valid && x.2.pst == 1).map (fun x => key ioUnit true x.1 x.2.peer false) ++
    (io.egress.filter fun x => x.2.valid && x.2.pst == 1).map fun x => key ioUnit false x.1 x.2.peer false

/-- Those whose peer lies on another chip (log 38, DEDUCED). -/
def State.foreignEnds (s : State) (m : Nat) : List (EndKey × Nat × Bool) :=
  (s.openEnds m).filter fun p => p.2.1 != s.chip m

/-- The OPEN ends of every module whose peer chip cannot be reached, each with its module (R285, R318)
(log 38, DEDUCED). -/
def State.cutEnds (s : State) : List (Nat × EndKey) :=
  s.mods.flatMap fun p => ((s.foreignEnds p.1).filter fun q => !s.reaches p.1 q.2.1 q.2.2).map fun q => (p.1, q.1)

/-- They become DEAD, and some further ends of module `m` (R285, R317) (log 38, DEDUCED). -/
def State.cut (s : State) (m : Nat) (more : List EndKey) : State :=
  (more.map (fun k => (m, k)) ++ s.cutEnds).eraseDups.foldl (fun s p => s.deadTo p.1 p.2) s

/-- An error response goes back over the links of `path` (R317) (log 38, DEDUCED). -/
def State.sendBack (s : State) (m strand : Nat) (dst : Addr) (body : Body) (path : List Nat) : State :=
  let t := s.send m ioUnit strand dst 4 body
  { t with net := t.net.map fun x => if x.id = s.nextId then { x with path := path } else x }

/-- The link enters ISOLATED, and its module acts under R317 (log 38, DEDUCED). -/
def State.isolate (s : State) (m l : Nat) : State :=
  let x := s.link m l
  let word := copyErr errLINKDEAD (l / 4)
  let waiting := s.net.filter fun y => y.mod == m && (match y.place with
    | .link l' _ => l' == l
    | _ => false)
  let s := (s.onLink m l fun x => { x with
    state := .isolated, width := 0, outst := [], chans := [], replay := [], attempts := 0, heard := none, booting := false })
  let onWire (id : Nat) : Bool := s.flits.any fun f =>
    match f.body with
    | .packet _ msg _ _ last => msg == id && last
    | _ => false
  let s := { s with net := s.net.filter fun y => !(y.mod == m && (match y.place with
    | .link l' _ => l' == l
    | .sent l' => l' == l && !onWire y.id
    | _ => false)) }
  let s := x.outst.foldl (fun s o => s.sendBack m o.strand o.src (.error o.op o.sector word) o.path) s
  let s := (waiting.filter fun y => !(x.outst.any fun o => o.msg == y.id)).foldl (fun s y => s.turnAway m y word) s
  let ends := if x.chovf then (s.foreignEnds m).map fun p => p.1 else x.chans
  let s := s.cut m ends
  let pvec := tget 0 (s.mod m).io.pvec (l / 4)
  let s := if pvec.getLsbD 31 then s.signal m (pvec.toNat % 64) else s
  s.onMod m fun y => { y with io := { y.io with
    held := if y.io.held.any fun h => h.src == 256 + l then y.io.held
      else y.io.held ++ [⟨256 + l, [BitVec.ofNat 32 (0x03000000 + l / 4 * 2 ^ 16 + l), 0, 0, 0]⟩] } }

/-! ### Routing at the module switch (R379 to R381, R433) -/

/-- The virtual channels that keep their order (R433). -/
def orderedVc (vc : Nat) : Bool := vc == 0 || vc == 2 || vc == 5 || vc == 6

/-- Where a message goes from the switch. -/
inductive Hop where
  | here
  | link (l : Nat)
  | wait
  | away (word : Word)
deriving DecidableEq, Repr

/-- A link holds an outstanding entry towards a chip. -/
def IoDie.owes (io : IoDie) (c l : Nat) : Bool := (io.link l).outst.any fun o => o.dst.chip == c

/-- Requests on VC 2 wait while a former FIRST link holds an outstanding entry towards the chip (R381) (log 36, DEDUCED). -/
def IoDie.oldBusy (io : IoDie) (r : Route) (c : Nat) : Bool := r.old.any fun l => io.owes c l

/-- Former FIRST links that hold none any more are forgotten (R381). -/
def IoDie.settleRoutes (io : IoDie) : IoDie :=
  { io with routes := io.routes.map fun (p : Nat × Route) => (p.1, { p.2 with old := p.2.old.filter fun l => io.owes p.1 l }) }

/-- The table of R380, row by row; a request whose only link is isolated meets LINK_DEAD (R317) (log 36, DEDUCED). -/
def IoDie.hop (io : IoDie) (c vc : Nat) (isRequest : Bool) : Hop :=
  let r := io.route c
  let up := r.set.filter fun l => (io.link l).state == .up
  let dead (l : Nat) : Hop := .away (copyErr errLINKDEAD (l / 4))
  let noRoute : Hop := .away (copyErr errNOROUTE c)
  if r.here then .here
  else if !r.v then noRoute
  else if r.set = [r.first] ∧ (io.link r.first).state = .isolated then dead r.first
  else if r.set.all fun l => (io.link l).state != .up && (io.link l).state != .retrain then noRoute
  else if orderedVc vc then
    match (io.link r.first).state with
    | .up => if vc = 2 ∧ isRequest ∧ io.oldBusy r c then .wait else .link r.first
    | .train => .wait
    | .retrain => .wait
    | _ => dead r.first
  else
    match up with
    | l :: more =>
      .link (more.foldl
        (fun b l => if (io.link b).credits.getD vc 0 < (io.link l).credits.getD vc 0 then l else b) l)
    | [] => .wait

/-- The message is at the switch of its module. -/
def Msg.atSwitch (x : Msg) (cycle : Nat) : Bool :=
  match x.place with
  | .inside due final => !final && decide (due ≤ cycle)
  | .switch => true
  | _ => false

/-- A message moved to another place. -/
def State.place (s : State) (id m : Nat) (w : Where) : State :=
  { s with net := s.net.map fun x => if x.id = id then { x with mod := m, place := w } else x }

/-- A message joins those that have reached a link before it (R312). -/
def State.queueAt (s : State) (x : Msg) (l : Nat) : State :=
  { s.dropMsg x.id with net := (s.dropMsg x.id).net ++ [{ x with place := .link l 0 }] }

/-- The link by which an error response goes back, while it may carry (R317). -/
def State.wayBack (s : State) (x : Msg) : Option (Nat × List Nat) :=
  match x.body, x.path with
  | .error .., l :: r => if (s.link x.mod l).state = .up ∨ (s.link x.mod l).state = .retrain then some (l, r) else none
  | _, _ => none

/-- One message at the switch takes its next hop (R380). -/
def State.switchMsg (s : State) (x : Msg) : State :=
  let isRequest := match x.body with
    | .request _ => true
    | _ => false
  match s.wayBack x with
  | some (l, r) => s.queueAt { x with path := r } l
  | none =>
  match (s.mod x.mod).io.hop x.dst.chip x.vc isRequest with
  | .here => s.place x.id x.mod (.inside (s.cycle + toSwitch x.dst.unit) true)
  | .link l => s.queueAt x l
  | .wait => s.place x.id x.mod .switch
  | .away word => (s.dropMsg x.id).turnAway x.mod x word

/-- Every message at a switch. -/
def State.switchAll (s : State) : State :=
  (s.net.filter fun x => x.atSwitch s.cycle).foldl (fun s x => s.switchMsg x) s

/-! ### Sending (R310 to R312, R316) -/

/-- The virtual channels in the sender's order of choice (R312). -/
def vcOrder (rr : Nat) : List Nat :=
  let others := [0, 1, 2, 3, 7]
  [4, 5, 6] ++ others.drop rr ++ others.take rr

/-- The first message of a virtual channel that waits at a link, with the link packets of it already sent. -/
def State.headAt (s : State) (m l vc : Nat) : Option (Msg × Nat) :=
  s.net.findSome? fun x =>
    match x.place with
    | .link l' part => if x.mod = m ∧ l' = l ∧ x.vc = vc then some (x, part) else none
    | _ => none

/-- A request that takes an entry of the outstanding table (R316) (log 38, DEDUCED). -/
def Msg.outstanding (x : Msg) : Option Outst :=
  match x.body with
  | .request r => if x.vc = 2 ∨ x.vc = 3 then some ⟨x.id, x.src, x.strand, r.op, r.sector, x.dst, x.path⟩ else none
  | _ => none

/-- The link has credits for a link packet, room in its replay buffer and in its window (R310, R311). -/
def Link.mayCarry (x : Link) (cap vc flits : Nat) : Bool :=
  decide (flits ≤ x.credits.getD vc 0) && decide ((x.replay.foldl (fun n e => n + e.flits) 0) + flits ≤ cap) &&
    decide (x.replay.length < 2048)

/-- A channel end enters the channel table (R316) (log 38, DEDUCED). -/
def Link.noteEnd (x : Link) (k : EndKey) : Link :=
  if x.chans.contains k then x
  else if x.chans.length < 4096 then { x with chans := x.chans ++ [k] }
  else { x with chovf := true }

/-- The next link packet of a message is sent across a link. -/
def State.sendPart (s : State) (m l : Nat) (x : Msg) (part : Nat) : State :=
  let k := s.link m l
  let flits := x.body.flits part
  let last := decide (x.body.parts ≤ part + 1)
  let s := s.onLink m l fun k =>
    let k := { k with
      tx := k.tx + 1
      replay := k.replay ++ [⟨k.tx, x.id, last, flits, x.vc, s.cycle, true, true⟩]
      credits := k.credits.modify x.vc fun c => c - flits
      rr := match [0, 1, 2, 3, 7].findIdx? fun v => v == x.vc with
        | some i => (i + 1) % 5
        | none => k.rr
      outst := match x.outstanding with
        | some o => if part = 0 then k.outst ++ [o] else k.outst
        | none => k.outst }
    match x.body with
    | .packet _ p => k.noteEnd (producerEnd x p)
    | .credit _ _ n => k.noteEnd ⟨x.src, false, n⟩
    | _ => k
  let s := s.place x.id m (if last then .sent l else .link l (part + 1))
  s.sendFlits ⟨m, l⟩ flits (.packet k.tx x.id x.vc flits last)

/-- A link packet of the replay buffer is sent again. The credits that it took as it was sent first are still its own, so that no
replay waits for credits and holds back another virtual channel; after a training it takes them anew, unless the receiver has
accepted it (R310, R311, R312, R315) (log 59, DEDUCED). -/
def State.resend (s : State) (m l : Nat) (e : Sent) : State :=
  let s := s.onLink m l fun k =>
    { k with
      replay := k.replay.map fun x => if x.lseq = e.lseq then { x with at' := s.cycle, out := true, paid := true } else x
      credits := if e.paid then k.credits else k.credits.modify e.vc fun c => c - e.flits }
  s.sendFlits ⟨m, l⟩ e.flits (.packet e.lseq e.msg e.vc e.flits e.last)

/-- The next link packet that an UP link begins to send in this cycle: the oldest replayed packet, else the first message in
the order of R312; none while a TIME flit is due (log 5, DESIGN CHOICE). -/
def State.pumpNext (s : State) (m l : Nat) : Option State :=
  let k := s.link m l
  if k.state ≠ .up ∨ 7 * (s.cycle + 1) ≤ k.txFree ∨ k.timeAt ≤ s.cycle then none
  else
    match k.replay.find? fun e => !e.out with
    | some e => some (s.resend m l e)
    | none =>
      let run (p : Plug) : Bool := (s.mod p.m).io.boot == .run
      let open' := run ⟨m, l⟩ && (s.farEnd ⟨m, l⟩).any run
      let may (vc : Nat) : Option (Msg × Nat) :=
        match s.headAt m l vc with
        | some (x, part) =>
          if (open' || vc == 7) && k.mayCarry ((s.mod m).io.replayCap l) vc (x.body.flits part) &&
              (x.outstanding.isNone || decide (k.outst.length < 1024)) then some (x, part)
          else none
        | none => none
      ((vcOrder k.rr).findSome? may).map fun p => s.sendPart m l p.1 p.2

/-- At most `n` of them. -/
def State.pumpTimes : Nat → State → Nat → Nat → State
  | 0, s, _, _ => s
  | n + 1, s, m, l =>
    match s.pumpNext m l with
    | some t => t.pumpTimes n m l
    | none => s

/-- What an UP link sends in one cycle: at most 3.5 flits (R306), so that no more than four link packets begin
(log 5, DESIGN CHOICE). -/
def State.pumpLink (s : State) (m l : Nat) : State := s.pumpTimes 4 m l

/-! ### Receiving (R310, R311, R316) -/

/-- Responses that free an entry of the outstanding table as they come back (R316). -/
def Body.settles (b : Body) : Option (Nat × Nat) :=
  match b with
  | .response op sector .. => some (op, sector)
  | .error op sector _ => some (op, sector)
  | .ack op sector => some (op, sector)
  | .nack op sector => some (op, sector)
  | _ => none

/-- The answer of a request has come back across the link (R316) (log 38, DEDUCED). -/
def Link.settle (k : Link) (src : Addr) (op sector : Nat) : Link :=
  { k with outst := k.outst.filter fun o => !(o.src == src && o.op == op && o.sector == sector) }

/-- A message has been accepted whole at link `l` of module `m` (log 5, DESIGN CHOICE). -/
def State.acceptMsg (s : State) (m l : Nat) (x : Msg) : State :=
  let s :=
    match x.body.settles with
    | some (op, sector) => s.onLink m l fun k => k.settle x.dst op sector
    | none => s
  let s :=
    match x.body with
    | .packet n _ => s.onLink m l fun k => k.noteEnd ⟨x.dst, false, n⟩
    | .credit n _ _ => s.onLink m l fun k => k.noteEnd ⟨x.dst, true, n⟩
    | _ => s
  if x.vc = 7 then
    let home (y : Msg) : Msg :=
      { y with mod := m, place := .inside s.cycle true, dst := ⟨s.chip m, ioUnit⟩, strand := l }
    { s with net := s.net.map fun (y : Msg) => if y.id = x.id then home y else y }
  else
    let path := match x.body with
      | .request _ => l :: x.path
      | _ => x.path
    { s with net := s.net.map fun (y : Msg) =>
        if y.id = x.id then { y with mod := m, place := .inside (s.cycle + 6) false, path := path } else y }

/-- How far `a` lies below `b`, modulo 4,096. -/
def lseqBelow (a b : BitVec 12) : Nat := (b - a).toNat

/-- The flits of an accepted packet leave the receive buffer; in RESET those of VC 7 are held there (R415). -/
def Link.drain (k : Link) (vc flits : Nat) (hold : Bool) : Link :=
  if hold && vc == 7 then { k with heldFlits := k.heldFlits + flits }
  else { k with freed := k.freed.modify vc fun n => n + flits }

/-- The end discards a flit before it looks at it: the flit was sent before the replay for which the end waits (R310)
(log 59, DEDUCED). -/
def Link.skips (k : Link) (f : Flit) : Bool := k.discarding.any fun e => decide (f.era ≤ e)

/-- A discarded flit leaves its credits where they were: a packet keeps its own for its replay, and those that an ACK carried
are owed again (R311) (log 59, DEDUCED). -/
def State.loseFlit (s : State) (f : Flit) : State :=
  match f.body with
  | .ack _ credits =>
    (match s.farEnd f.to' with
    | some q => s.onLink q.m q.link fun k =>
        { k with freed := (List.range 8).map fun v => k.freed.getD v 0 + credits.getD v 0 }
    | none => s)
  | _ => s

/-- A flit arrives at an UP end. One that fails its CRC is discarded with every later one up to the next replay, and a NAK
asks for that; what `g` does, the others do (R310) (log 59, DEDUCED). -/
def State.hearFlit (s : State) (f : Flit) (g : State → State) : State :=
  let p := f.to'
  let k := s.link p.m p.link
  let s := s.dropFlit f.id
  if k.skips f then s.loseFlit f
  else if Config.flitFails f.id then
    ((s.loseFlit f).onLink p.m p.link fun k => { k with discarding := some f.era, lastRx := s.cycle }).sendFlits p 1 (.nak k.rx)
  else
    g (s.onLink p.m p.link fun k =>
      { k with discarding := k.discarding.filter fun e => decide (f.era ≤ e), lastRx := s.cycle })

/-- The packet with the number that the end expects is accepted; any other is a duplicate, and is discarded (R310)
(log 59, DEDUCED). -/
def State.acceptPacket (s : State) (f : Flit) (lseq : BitVec 12) (msg vc flits : Nat) (last : Bool) : State :=
  let m := f.to'.m
  let l := f.to'.link
  if lseq = (s.link m l).rx then
    let s := s.onLink m l fun k =>
      { (k.drain vc flits ((s.mod m).io.boot == .reset)) with rx := k.rx + 1, owed := k.owed + 1 }
    if last then
      match s.msg msg with
      | some x => s.acceptMsg m l x
      | none => s
    else s
  else s

/-- A link packet arrives (R310); at an end that is not UP it is lost, and its message with it where no end keeps that. -/
def State.receivePacket (s : State) (f : Flit) (lseq : BitVec 12) (msg vc flits : Nat) (last : Bool) : State :=
  let gone := match s.farEnd f.to' with
    | some p => (s.link p.m p.link).replay.all fun e => e.msg != msg
    | none => true
  if (s.link f.to'.m f.to'.link).state = .up then s.hearFlit f fun s => s.acceptPacket f lseq msg vc flits last
  else if gone && last then (s.dropFlit f.id).dropMsg msg
  else s.dropFlit f.id

/-- An ACK covers packets and returns credits (R309, R310, R406). -/
def Link.takeAck (k : Link) (cycle : Nat) (lseq : BitVec 12) (credits : List Nat) : Link :=
  let covered := k.replay.filter fun e => decide (lseqBelow e.lseq lseq < 2048)
  let times := covered.map fun e => min 0xFFFF (cycle - e.at')
  { k with
    replay := k.replay.filter fun e => !decide (lseqBelow e.lseq lseq < 2048)
    credits := (List.range 8).map fun v => k.credits.getD v 0 + credits.getD v 0
    platLast := times.getLastD k.platLast
    platMax := times.foldl max k.platMax }

/-- A NAK: the sender replays from the expected number (R310, R319) (log 59, DEDUCED). -/
def Link.takeNak (k : Link) (lseq : BitVec 12) : Link :=
  let again (e : Sent) : Bool := decide (lseqBelow lseq e.lseq < 2048)
  let n := k.replay.countP fun e => again e
  { k with
    era := k.era + 1
    replay := k.replay.map fun e => if again e then { e with out := false } else e
    rplyEvents := min 0xFFFF (k.rplyEvents + 1)
    rplyPackets := min 0xFFFF (k.rplyPackets + n) }

/-- The receiver sends an ACK: at least every 64 cycles and after 16 packets (R310). -/
def Link.ackDue (k : Link) (cycle : Nat) : Bool :=
  k.state == .up && (decide (16 ≤ k.owed) || decide (k.lastAck + 64 ≤ cycle))

def State.sendAck (s : State) (m l : Nat) : State :=
  let k := s.link m l
  (s.onLink m l fun k => { k with owed := 0, freed := List.replicate 8 0, lastAck := s.cycle }).sendFlits ⟨m, l⟩ 1
    (.ack (k.rx - 1) k.freed)

/-! ### Training and widths (R313 to R315) -/

/-- An 8-bit entry of PHIST (R319) (log 37, DEDUCED). -/
def histEntry (width first cause : Nat) : Nat :=
  (if width = 16 then 0 else if width = 8 then 1 else if width = 4 then 2 else 3) * 64 + first * 4 + cause

/-- A change of width enters PHIST and CHANGES (log 37, DEDUCED). -/
def Link.noteWidth (k : Link) (width first cause : Nat) (counts : Bool) : Link :=
  { k with
    width := width
    first := first
    hist := k.hist <<< 8 ||| BitVec.ofNat 32 (histEntry width first cause)
    changes := if counts then min 255 (k.changes + 1) else k.changes }

/-- Training starts at full width, with an empty channel table (R313, R314, R316). A link that was not UP starts with fresh
numbers and an empty outstanding table; one that was UP keeps what it has not seen acknowledged (R315) (log 37, DEDUCED). -/
def Link.startTraining (k : Link) (cycle : Nat) (fresh : Bool) : Link :=
  let k := { k with state := .train, failed := 0, changes := 0, attempts := 0, since := cycle, nbrValid := false, heard := none
                    ident := none, chans := [], chovf := false }
  if fresh then { k with tx := 0, rx := 0, replay := [], outst := [], imaged := false } else k

def State.startTraining (s : State) (m l : Nat) (fresh : Bool) : State :=
  s.onLink m l fun k => k.startTraining s.cycle fresh

/-- Credits after training: the free buffer that the receiver reports, whose VC 7 may hold flits (R311, R415). -/
def freshCredits (held : Nat) : List Nat := List.replicate 7 64 ++ [64 - held]

/-- What is unacknowledged is replayed after a training, and counts; the receiver expects number `rx` (R315, R319)
(log 37, DEDUCED) (log 59, DEDUCED). -/
def Link.replayAll (k : Link) (rx : BitVec 12) : Link :=
  { k with
    replay := k.replay.map fun e => { e with out := false, paid := decide (2048 ≤ lseqBelow rx e.lseq) }
    rplyEvents := if k.replay.isEmpty then k.rplyEvents else min 0xFFFF (k.rplyEvents + 1)
    rplyPackets := min 0xFFFF (k.rplyPackets + k.replay.length) }

/-- An end comes UP after training with the identity that the other end's TRAIN flit gave and with full credits, and replays
what is unacknowledged (R309, R311, R313, R315); `far` is the other end, whose buffer holds some flits (log 37, DEDUCED). -/
def Link.trained (k : Link) (cycle : Nat) (failed : BitVec 16) (g : Nat × Nat) (full : Nat) (far : Link) : Link :=
  let nbr := k.ident.getD (0, 0)
  let k :=
    if g.1 = (if k.width = 0 then full else k.width) then { k with width := g.1, first := g.2 }
    else k.noteWidth g.1 g.2 (if g.1 = full then 0 else 2) false
  { k.replayAll far.rx with
    state := .up, failed := failed, nbrChip := nbr.1, nbrLink := nbr.2, nbrValid := true, ident := none
    credits := freshCredits far.heldFlits, freed := List.replicate 8 0, owed := 0
    discarding := none, lastAck := cycle, lastRx := cycle, txFree := 7 * cycle, timeAt := cycle + 65536, attempts := 0 }

/-- The end takes part in a training: it trains itself, or its module is not yet in RUN and joins (R418)
(log 37, DEDUCED). -/
def State.trains (s : State) (p : Plug) : Bool :=
  let io := (s.mod p.m).io
  io.linkExists p.link &&
    ((io.link p.link).state == .train ||
      ((io.link p.link).state == .down && io.boot != .run))

/-- An end in training sends TRAIN flits, one at a time on the wire, with its module's chip id and its link number; one that
joins does so once it has received one (R309, R313, R418) (log 5, DESIGN CHOICE). -/
def State.sendTrain (s : State) (p : Plug) : State :=
  let k := s.link p.m p.link
  let onWire := s.flits.any fun f => some f.to' == s.farEnd p && (match f.body with
    | .train .. => true
    | _ => false)
  if s.trains p && (k.state == .train || k.ident.isSome) && !onWire then s.sendFlit p 1 (.train (s.chip p.m) p.link) else s

def State.sendTrains (s : State) : State :=
  (s.mods.flatMap fun p => p.2.io.links.map fun q => (⟨p.1, q.1⟩ : Plug)).foldl (fun s p => s.sendTrain p) s

/-- The TRAIN flits that have arrived tell the ends in training who their neighbours are (R309, R313). -/
def State.takeTrains (s : State) : State :=
  (s.flits.filter fun f => decide (f.due ≤ s.cycle) && !Config.flitFails f.id).foldl
    (fun s f =>
      match f.body with
      | .train chip link =>
        if s.trains f.to' then s.onLink f.to'.m f.to'.link fun k => { k with ident := some (chip, link) } else s
      | _ => s) s

/-- The lanes on which two ends can run with some lanes failed: lanes that both links have, from the same first lane on; a
module without an applied image has SPLIT 0 (R418) (log 1, DESIGN CHOICE) (log 37, DEDUCED). -/
def State.agreed (s : State) (p q : Plug) (failed : BitVec 16) : Option (Nat × Nat) :=
  let a := (s.mod p.m).io.lanes p.link
  let b := (s.mod q.m).io.lanes q.link
  if a.1 = b.1 then widest (a.1, min a.2 b.2) failed else none

/-- The UP links of a module whose neighbour reports a chip id. -/
def IoDie.linksTo (io : IoDie) (chip : Nat) : List Nat :=
  (List.range 64).filter fun l => (io.link l).state == .up && (io.link l).nbrValid && (io.link l).nbrChip == chip

/-- At boot Spire firmware of a module in RUN writes the entry of the neighbour that a link trained at boot reports, once
for each link and where the entry routes to no other link (R379): `valid` tells whether the neighbour holds a chip id (log
48, DEDUCED) (log 48, DEDUCED). -/
def IoDie.nameNeighbour (io : IoDie) (l : Nat) (valid : Bool) : IoDie :=
  let chip := (io.link l).nbrChip
  let links := io.linksTo chip
  let r := tget Route.reset io.routes chip
  let own := !r.v || (!r.here && ((List.range 64).filter fun k => r.mask.getLsbD k).all fun k => links.contains k)
  if io.boot == .run && valid && (io.link l).booting && own && decide (chip < 1023) then
    { io.onLink l fun k => { k with booting := false } with
      routes := tput io.routes chip
        ⟨true, false, links.headD l, links.foldl (fun m k => m ||| BitVec.ofNat 64 (2 ^ k)) 0,
          if r.v && r.first != links.headD l then r.first :: r.old else r.old⟩ }
  else io

/-- The replay that follows a retraining (R311, R315). -/
def Link.retrained (k : Link) (cycle : Nat) (g : Nat × Nat) (far : Link) : Link :=
  let k := if g.1 = k.width then { k with first := g.2 } else k.noteWidth g.1 g.2 1 true
  { k.replayAll far.rx with
    state := .up
    credits := freshCredits far.heldFlits
    freed := List.replicate 8 0
    discarding := none
    lastRx := cycle
    txFree := 7 * (cycle + 1) }

/-! ### Cycle counters (R402) -/

/-- Of two references the one of lower head, and of these the one of least hop count. -/
def firstRef (a b : Nat × Nat) : Nat × Nat := if b.1 < a.1 ∨ b.1 = a.1 ∧ b.2 < a.2 then b else a

/-- The best reference among the latest TIME flits of the links: head and hop count; none is head 1,023. -/
def IoDie.reference (io : IoDie) : Nat × Nat :=
  (io.links.filterMap fun p => p.2.heard).foldl firstRef (1023, 0)

/-- The head that a module names, with its hop count: the lowest it receives, or itself (log 46, DEDUCED). -/
def IoDie.head (io : IoDie) : Nat × Nat :=
  let r := io.reference
  if io.midValid && decide (io.chip ≤ r.1) then (io.chip, 0) else (r.1, r.2 + 1)

/-- A TIME flit comes over a link: where it names the lowest head received, with the least hop count of these, it steers the
counter. A hop count that no chain has names no module of the group (log 46, DEDUCED). -/
def IoDie.steerTo (io : IoDie) (l hops head : Nat) (cyc : BitVec 64) : IoDie :=
  let io := io.onLink l fun k => { k with heard := if hops < 1023 then some (head, hops) else none }
  if hops < 1023 ∧ io.reference = (head, hops) ∧ ¬(io.midValid = true ∧ io.chip ≤ head) then
    { io with steer := (cyc.toNat : Int) + (io.link l).platLast / 2 - io.cyc.toNat }
  else io

/-- One cycle of the counter: it advances by one, and by 0 or 2 while it is steered (R402) (log 46, DEDUCED). -/
def IoDie.tickCyc (io : IoDie) : IoDie :=
  if io.steer > 0 then { io with cyc := io.cyc + 2, steer := io.steer - 1 }
  else if io.steer < 0 then { io with steer := io.steer + 1 }
  else { io with cyc := io.cyc + 1 }

end Sys2Proof.Machine
end

