-- ==== Sys2Proof/Machine/QueueCmds.lean ====
section
/-! DEFINITION. Hardware queues: the queues of the I/O die, qpush and qpop on their way, and fault entries (R327 to R331,
R431). -/

namespace Sys2Proof.Machine

/-! ### The queues (R327) -/

def IoDie.queue (io : IoDie) (q : Nat) : Queue := tget Queue.reset io.queues q
def IoDie.onQueue (io : IoDie) (q : Nat) (f : Queue → Queue) : IoDie :=
  { io with queues := tput io.queues q (f (io.queue q)) }

def Queue.depth (q : Queue) : Nat := 2 ^ q.log

/-- Entries held, and entries that may still be appended: at most 2^LOG - 1 are held. -/
def Queue.count (q : Queue) : Nat := (q.tail + q.depth - q.head) % q.depth
def Queue.room (q : Queue) : Nat := q.depth - 1 - q.count

/-- The first byte of an entry in the queue SRAM. -/
def Queue.entryAt (q : Queue) (i : Nat) : Nat := 16 * (q.base + i)

/-- Spire firmware has seen a queue that it serves, and serves its first entry at a time that is open (R413)
(log 51, DEDUCED). -/
def State.serveLater (s : State) (m q : Nat) : State :=
  if Config.serves m q && !((s.mod m).io.serves.any fun p => p.1 == q) then
    { s with free := s.free + 1 }.onMod m fun x =>
      { x with io := { x.io with serves := tput x.io.serves q (s.cycle + 1 + Config.firmwareDelay s.free) } }
  else s

/-- The consumer is signalled under QCTL: a host vector, a Spire core, which starts on the signal, or none, and firmware polls
(R327, R413). -/
def State.signalQueue (s : State) (m q : Nat) : State :=
  let x := (s.mod m).io.queue q
  if x.kind = 1 then s.signal m x.target else if x.kind = 2 then s.serveLater m q else s

/-- An entry is appended at the tail of a queue that has room; the old tail (log 5, DESIGN CHOICE). -/
def State.appendQueue (s : State) (m q : Nat) (words : List Word) : State × Nat :=
  let x := (s.mod m).io.queue q
  let s := s.onMod m fun y => { y with io :=
    { y.io with qsram := memWrite y.io.qsram (x.entryAt x.tail) (bytesOf words) }.onQueue q fun x =>
      { x with tail := (x.tail + 1) % x.depth } }
  (s.signalQueue m q, x.tail)

/-- The word that says that a queue is full or empty, and the error word of a disabled one (R329). -/
def queueNone : Word := 0xFFFFFFFF
def queueOff (q : Nat) : Word := BitVec.ofNat 32 (0x04020000 + q)

/-- A qpush or qpop is performed at its queue (R329, R431), and the answer goes back on VC 4. -/
def State.performQueue (s : State) (m : Nat) (src : Addr) (strand : Nat) (push : Bool) (q : Nat) (words : List Word)
    (op k t : Nat) : State :=
  let x := (s.mod m).io.queue q
  let back (s : State) (w : Word) (ws : List Word) : State := s.send m ioUnit strand src 4 (.queueAns op k t w ws)
  if !x.en then back s (queueOff q) []
  else if push then
    if x.room = 0 then back s queueNone []
    else
      let (s, i) := s.appendQueue m q words
      back s (BitVec.ofNat 32 i) []
  else if x.count = 0 then back s queueNone []
  else
    let ws := wordsOf (memBytes (s.mod m).io.qsram (x.entryAt x.head) 16)
    let s := s.onMod m fun y => { y with io := y.io.onQueue q fun x => { x with head := (x.head + 1) % x.depth } }
    back s (BitVec.ofNat 32 x.head) ws

/-! ### At the cell (R329) -/

/-- qpush or qpop issues; the queue is named by sa. -/
def Cell.issueQueue (c : Cell) (k op : Nat) (push : Bool) (a b : Word) (t : Nat) : Cell :=
  let st := c.strand k
  let c := if t = 0 then c else c.onStrand k fun st => st.await t op
  let c := c.scbAdd op k (if push then [(b.toNat, 16)] else []) (if push then [] else [(b.toNat, 16)])
  { c with qwaits := c.qwaits ++ [⟨op, k, st.recid.toNat, push, a.toNat / 128, b.toNat, t, false⟩] }

/-- A command that writes: a copy, a remote store or a remote atomic (R196). -/
def EngOp.writes (o : EngOp) : Bool :=
  match o.kind with
  | .copy => true
  | .store => true
  | .atomic => true
  | _ => false

/-- The request of a qpush may leave: every earlier write-type operation of the strand aimed within the module has been
performed (R329), and no earlier command still writes its entry. -/
def Cell.queueReady (c : Cell) (chip : Nat) (j : QueueWait) : Bool :=
  !j.sent && (!j.push ||
    ((c.ops.all fun o => !(o.k == j.k && o.recid == j.recid && decide (o.op < j.op) && o.writes &&
        (match o.dst with
          | some d => d.chip == chip
          | none => true))) &&
      (c.scb.all fun e => !(e.k == j.k && decide (e.op < j.op) && !e.writes.isEmpty)) &&
      c.scbClear j.op [(j.off, 16)] []))

/-- The request leaves for the I/O die on VC 2 (R431). -/
def State.sendQueue (s : State) (m u : Nat) (j : QueueWait) : State :=
  let words := if j.push then wordsOf (memBytes (s.cell m u).mem j.off 16) else []
  let s := s.onCell m u fun c =>
    { (if j.push then c.scbLeave j.op [] [] else c) with
      qwaits := c.qwaits.map fun x => if x.op = j.op then { x with sent := true } else x }
  let s := if j.push then s.found m u j.off 16 j.k j.recid 1 else s
  s.send m u j.k ⟨s.chip m, ioUnit⟩ 2 (.queueCmd j.push j.queue words j.op j.k j.t)

/-- The queue commands of a cell that may leave do so. -/
def State.pumpQueues (s : State) (m u : Nat) : State :=
  (s.cell m u).qwaits.foldl
    (fun s j => if (s.cell m u).queueReady (s.chip m) j then s.sendQueue m u j else s) s

/-- An answer may be taken: no earlier command conflicts with the write of a popped entry (R198). -/
def Cell.answerReady (c : Cell) (op : Nat) : Bool :=
  match c.qwaits.find? fun x => x.op == op with
  | some j => j.push || c.scbClear op [] [(j.off, 16)]
  | none => true

/-- The answer reaches the cell: a popped entry is written, and st is delivered in the next cycle (R431). The error word of a
disabled queue is delivered too, and its trap waits under R265 (R329). -/
def State.takeQueueAnswer (s : State) (m u op k t : Nat) (x : Word) (words : List Word) : State :=
  match (s.cell m u).qwaits.find? fun j => j.op == op with
  | none => s
  | some j =>
    let bad := x.toNat / 2 ^ 16 == 0x0402
    let here := s.chip m
    s.onCell m u fun c =>
      let c := if words.isEmpty then c else c.storeBytes j.off (bytesOf words)
      let c := { c.scbDrop op with qwaits := c.qwaits.filter fun y => y.op != op }
      let c := if bad then c.onContext k j.recid fun st =>
          { st with errs := st.errs ++ [⟨op, false, causeEngineErr, x, 0, here, ioUnit⟩] } else c
      if t = 0 then c
      else c.deliverAt (s.cycle + 1) k op t x
        (if bad then [.trap op causeEngineErr x] else [])

/-! ### Fault entries (R331) -/

/-- The queue that a fault register names, if the register is enabled. -/
def faultQueue (w : Word) : Option Nat := if w.getLsbD 31 then some (w.toNat % 512) else none

/-- A queue that can take an entry now. -/
def IoDie.takes (io : IoDie) (q : Nat) : Bool := (io.queue q).en && decide (0 < (io.queue q).room)

/-- The first held entry of a list whose queue can take it (log 35, DEDUCED). -/
def IoDie.faultDue (io : IoDie) (reg : Word) (held : List HeldFault) : Option (Nat × HeldFault) :=
  match faultQueue reg, held with
  | some q, f :: _ => if io.takes q then some (q, f) else none
  | _, _ => none

/-- FAULT_ENTRY_APPEND of the first held entry of unit `focus.u` of a module: a cell's, or the I/O die's own (R331). -/
def execFaultEntryAppend (s : State) : Out :=
  let f := s.focus
  let io := (s.mod f.m).io
  if f.u = ioUnit then
    match io.faultDue io.sfaultq io.held with
    | some (q, h) =>
      .next ((s.onMod f.m fun x => { x with io := { x.io with held := x.io.held.drop 1 } }).appendQueue f.m q h.words).1
    | none => .refused (.eventNotDue "FAULT_ENTRY_APPEND")
  else
    let c := s.cell f.m f.u
    match io.faultDue c.faultq c.faults with
    | some (q, h) =>
      .next ((s.onCell f.m f.u fun c => { c with faults := c.faults.drop 1 }).appendQueue f.m q h.words).1
    | none => .refused (.eventNotDue "FAULT_ENTRY_APPEND")

/-! ### The steps of queues that are not syllables -/

/-- QUEUE_COMMAND_PERFORM (R431). -/
def execQueueCommandPerform (s : State) : Out :=
  match s.arrival s.focus.j with
  | some x =>
    match x.body with
    | .queueCmd push q words op k t =>
      if x.dst.unit = ioUnit then .next ((s.dropMsg x.id).performQueue x.mod x.src x.strand push q words op k t)
      else .refused (.eventNotDue "QUEUE_COMMAND_PERFORM")
    | _ => .refused (.eventNotDue "QUEUE_COMMAND_PERFORM")
  | none => .refused (.eventNotDue "QUEUE_COMMAND_PERFORM")

/-- QUEUE_ANSWER (R431). -/
def execQueueAnswer (s : State) : Out :=
  match s.arrival s.focus.j with
  | some x =>
    match x.body with
    | .queueAns op k t w words =>
      if x.dst.unit < 1032 ∧ (s.cell x.mod x.dst.unit).answerReady op then
        .next ((s.dropMsg x.id).takeQueueAnswer x.mod x.dst.unit op k t w words)
      else .refused (.eventNotDue "QUEUE_ANSWER")
    | _ => .refused (.eventNotDue "QUEUE_ANSWER")
  | none => .refused (.eventNotDue "QUEUE_ANSWER")

end Sys2Proof.Machine
end

