-- ==== Sys2Proof/Machine/Mgmt.lean ====
section
/-! DEFINITION. What the host reads in the management window and in the stream window, and what a Spire core reads at the
same management offsets (R319, R322, R324, R325, R327, R379, R384, R397, R402, R406, R414, R419). -/

namespace Sys2Proof.Machine

/-! ### The management window (R322) -/

/-- Queue registers (R327) (log 47, DESIGN CHOICE). -/
def Queue.reg (q : Queue) (r : Nat) : Word :=
  match r with
  | 0x00 => BitVec.ofNat 32 (q.en.toNat * 2 ^ 31 + q.kind * 2 ^ 24 + q.target * 2 ^ 8)
  | 0x04 => BitVec.ofNat 32 q.base
  | 0x08 => BitVec.ofNat 32 q.log
  | 0x0C => BitVec.ofNat 32 q.head
  | 0x10 => BitVec.ofNat 32 q.tail
  | 0x18 => BitVec.ofNat 32 q.ovf
  | _ => 0

/-- Registers of a link (R319, R406); SPLIT shows in those of link 0 of its port (log 37, DEDUCED). -/
def IoDie.linkReg (io : IoDie) (l r : Nat) : Word :=
  let k := io.link l
  match r with
  | 0x00 => BitVec.ofNat 32 (if l % 4 = 0 then io.split (l / 4) else 0)
  | 0x04 => BitVec.ofNat 32 (k.changes * 2 ^ 24 + k.first * 2 ^ 16 + k.chovf.toNat * 2 ^ 11 + k.state.code * 2 ^ 8 +
      (if k.state == .up then k.width else 0))
  | 0x08 => k.failed.setWidth 32
  | 0x0C => BitVec.ofNat 32 (k.rplyEvents * 2 ^ 16 + k.rplyPackets)
  | 0x10 => k.hist
  | 0x14 => BitVec.ofNat 32 (k.nbrChip * 2 ^ 22 + k.nbrValid.toNat * 2 ^ 21 + k.nbrLink)
  | 0x18 => BitVec.ofNat 32 k.outst.length
  | 0x1C => BitVec.ofNat 32 (k.platMax * 2 ^ 16 + k.platLast)
  | _ => 0

/-- Words of a routing-table entry (R379). -/
def Route.word (r : Route) (w : Nat) : Word :=
  match w with
  | 0 => BitVec.ofNat 32 (r.v.toNat * 2 ^ 31 + r.here.toNat * 2 ^ 30 + r.first)
  | 1 => BitVec.ofNat 32 r.mask.toNat
  | 2 => BitVec.ofNat 32 (r.mask.toNat / 2 ^ 32)
  | _ => 0

/-- Words of a unit-table entry (R397). -/
def UnitEntry.word (x : UnitEntry) (w : Nat) : Word :=
  match w with
  | 0 => BitVec.ofNat 32 (x.v.toNat * 2 ^ 31 + x.level * 2 ^ 28 + x.fired.toNat * 2 ^ 27 + x.status * 2 ^ 24 + x.id)
  | 1 => BitVec.ofNat 32 (x.closed.toNat * 2 ^ 31 + x.live)
  | 2 => BitVec.ofNat 32 (x.home * 2 ^ 22 + x.nmod)
  | 3 => BitVec.ofNat 32 x.kills
  | w => if 32 ≤ w ∧ w < 64 then BitVec.ofNat 32 (x.cells.toNat / 2 ^ (32 * (w - 32))) else 0

def IoDie.unit (io : IoDie) (i : Nat) : UnitEntry := tget UnitEntry.reset io.units i

def BootState.code (x : BootState) : Nat :=
  match x with
  | .reset => 0
  | .wait => 1
  | .verify => 2
  | .run => 3
  | .fail => 4

/-- Module registers by their offset from 0x50_0000 (R331, R414). -/
def IoDie.modReg (io : IoDie) (serial : BitVec 64) (o : Nat) : Word :=
  if o = 0x00 then BitVec.ofNat 32 (io.chip * 2 ^ 22 + io.midValid.toNat * 2 ^ 21)
  else if o = 0x04 then BitVec.ofNat 32 (io.boot.code * 2 ^ 29 + io.bootErr)
  else if o = 0x0C then BitVec.ofNat 32 io.pceil
  else if o = 0x10 then io.cyc.setWidth 32
  else if o = 0x14 then io.cycLatch
  else if o = 0x18 then io.pwr
  else if o = 0x1C then BitVec.ofNat 32 io.pcap
  else if o = 0x20 then BitVec.ofNat 32 io.temp
  else if o = 0x24 then BitVec.ofNat 32 (io.ckDir.toNat * 2 ^ 30 + io.transfer.isSome.toNat * 2 ^ 29)
  else if o = 0x28 then io.ckLo
  else if o = 0x2C then io.ckHi
  else if o = 0x34 then io.sfaultq
  else if 0x40 ≤ o ∧ o < 0x60 then tget (tget 0 io.nonce ((o - 0x40) / 4)) io.nonceNext ((o - 0x40) / 4)
  else if o = 0x80 then serial.setWidth 32
  else if o = 0x84 then BitVec.ofNat 32 (serial.toNat / 2 ^ 32)
  else if 0x100 ≤ o ∧ o < 0x140 then tget 0 io.pvec ((o - 0x100) / 4)
  else if 0x200 ≤ o ∧ o < 0x300 then tget 0 io.uvec ((o - 0x200) / 4)
  else if o = 0x300 then io.rdyvec
  else if 0x320 ≤ o ∧ o < 0x340 then tget 0 io.spvec ((o - 0x320) / 4)
  else if 0x8000 ≤ o ∧ o < 0xF8000 then memWord io.stage (o - 0x8000)
  else if 0xF8000 ≤ o ∧ o < 0xF9000 then tget 0 io.attrep ((o - 0xF8000) / 4)
  else 0

/-- A word of the management window; unmapped offsets read 0 (R321, R322) (log 47, DESIGN CHOICE). -/
def IoDie.mgmtWord (io : IoDie) (serial : BitVec 64) (off : Nat) : Word :=
  if off < 0x8000 then (io.queue (off / 64)).reg (off % 64)
  else if 0x200000 ≤ off ∧ off < 0x400000 then memWord io.qsram (off - 0x200000)
  else if 0x400000 ≤ off ∧ off < 0x401000 then tget 0 io.ready ((off - 0x400000) / 4)
  else if 0x410000 ≤ off ∧ off < 0x411000 then io.linkReg ((off - 0x410000) / 64) (off % 64)
  else if 0x420000 ≤ off ∧ off < 0x420400 then tget 0 io.msixTable ((off - 0x420000) / 4)
  else if 0x430000 ≤ off ∧ off < 0x434000 then (io.route ((off - 0x430000) / 16)).word (off % 16 / 4)
  else if 0x440000 ≤ off ∧ off < 0x441000 then
    (io.classAt ((off - 0x440000) / 1024) (off % 1024 / 16)).word (off % 16 / 4)
  else if off = 0x441000 then BitVec.ofNat 32 io.cethr
  else if 0x450000 ≤ off ∧ off < 0x454000 then (io.unit ((off - 0x450000) / 256)).word (off % 256 / 4)
  else if 0x500000 ≤ off ∧ off < 0x600000 then io.modReg serial (off - 0x500000)
  else 0

/-- The aligned word at an offset of a module's management window (log 47, DESIGN CHOICE). -/
def State.mgmtRead (s : State) (m off : Nat) : Word := (s.mod m).io.mgmtWord (Config.serial m) off

/-! ### The stream window (R324, R325), numbered on from the end of the management window -/

/-- The first offset of the stream window in the model's one numbering of host offsets. -/
def streamBase : Nat := 0x800000

def IoDie.ingressAt (io : IoDie) (e : Nat) : Ingress := tget Ingress.reset io.ingress e
def IoDie.egressAt (io : IoDie) (e : Nat) : Egress := tget Egress.reset io.egress e

/-- A stage is free: no doorbell of it waits, and no forward reads it (R324). -/
def Ingress.stageFree (x : Ingress) (k : Nat) : Bool := !x.doorbells.contains k && !(x.busy.any fun b => b.1 == k)

def Ingress.stage (x : Ingress) (k : Nat) : List Host.Cell := if k = 0 then x.stage0 else x.stage1

/-- A word of an ingress endpoint's block. -/
def Ingress.word (x : Ingress) (o : Nat) : Word :=
  if o = 0x0 then
    BitVec.ofNat 32 ((x.stageFree 1).toNat * 2 ^ 9 + (x.stageFree 0).toNat * 2 ^ 8 + x.fbc % 128)
  else if o = 0x8 then BitVec.ofNat 32 x.wgt
  else if o = 0xC then
    BitVec.ofNat 32 (x.en.toNat * 2 ^ 31 + x.pst * 2 ^ 28 + x.nven.toNat * 2 ^ 27 + x.nvec * 2 ^ 16 + x.slots)
  else if o = 0x10 then x.peer
  else if 0x1000 ≤ o ∧ o < 0x1000 + 65552 then memWord x.stage0 (o - 0x1000)
  else if 0x12000 ≤ o ∧ o < 0x12000 + 65552 then memWord x.stage1 (o - 0x12000)
  else 0

/-- A word of an egress endpoint's block. -/
def Egress.word (x : Egress) (o : Nat) : Word :=
  match o with
  | 0x00 => x.lo
  | 0x04 => x.hi
  | 0x08 => BitVec.ofNat 32 (x.en.toNat * 2 ^ 31 + x.slots * 2 ^ 22 + x.vec * 2 ^ 16 + x.size)
  | 0x0C => BitVec.ofNat 32 x.wptr
  | 0x14 => x.peer
  | 0x18 => BitVec.ofNat 32 x.pst
  | _ => 0

/-- The aligned word at a host offset: the management window, then the stream window (log 47, DESIGN CHOICE). -/
def State.hostRead (s : State) (m off : Nat) : Word :=
  let io := (s.mod m).io
  let o := off - streamBase
  if off < streamBase then s.mgmtRead m off
  else if o < 0x2000000 then (io.ingressAt (o / 0x40000)).word (o % 0x40000)
  else if o < 0x2000000 + 0x8000 then (io.egressAt ((o - 0x2000000) / 0x100)).word (o % 0x100)
  else 0

/-! ### Which step a write is -/

/-- The step that a write of a word to the management window is. -/
def mgmtEvent (off : Nat) (w : Word) : Instr :=
  let set (b : Nat) : Bool := w.getLsbD b
  if off < 0x8000 then
    (if off % 64 = 0x14 then .queueNotify else if off % 64 = 0x0C then .queueHeadWrite else .registerWrite)
  else if 0x410000 ≤ off ∧ off < 0x411000 then
    (if off % 64 = 0 ∧ set 3 = true then .linkIsolate
    else if off % 64 = 0 ∧ set 2 = true then .linkRetrain
    else if off % 64 = 0x1C then .platMaxClear
    else .registerWrite)
  else if 0x430000 ≤ off ∧ off < 0x434000 then .routingWrite
  else if 0x450000 ≤ off ∧ off < 0x454000 ∧ off % 256 = 4 ∧ set 31 = true then .unitClose
  else if off = 0x500008 ∧ set 0 = true then .bootGo
  else if off = 0x500024 ∧ set 31 = true then (if set 30 then .checkpointRestore else .checkpointSave)
  else if off = 0x500030 ∧ set 0 = true then .attestation
  else .registerWrite

/-- The same for the host, whose stream window follows on (R324, R325). -/
def hostEvent (off : Nat) (w : Word) : Instr :=
  let o := off - streamBase
  let en : Bool := w.getLsbD 31
  if off < streamBase then mgmtEvent off w
  else if o < 0x2000000 then
    (if o % 0x40000 = 0x4 then .ingressDoorbell
    else if o % 0x40000 = 0xC then (if en then .ingressEnable else .ingressDisable)
    else .registerWrite)
  else if o < 0x2000000 + 0x8000 then
    (if o % 0x100 = 0x08 then (if en then .egressEnable else .egressDisable)
    else if o % 0x100 = 0x10 then .egressRelease
    else .registerWrite)
  else .registerWrite

/-- The write that the present focus names: module, offset, word, and whether a Spire core makes it; when it is step `i`. -/
def State.write (s : State) (i : Instr) : Option (Nat × Nat × Word × Bool) :=
  let f := s.focus
  let w : Word := BitVec.ofNat 32 f.v
  let spire := isSpire f.u
  if (if spire then mgmtEvent f.j w else hostEvent f.j w) = i ∧ (spire = true ∨ f.u = hostUnit) then some (f.m, f.j, w, spire)
  else none

/-! ### A Spire core's path to the window (R414) -/

/-- The management offset that an offset of a Spire core's aperture-0 space names. -/
def spireWindow (c : Nat) : Option Nat :=
  if 0x400000 ≤ c ∧ c + 4 ≤ 0x600000 then some c
  else if 0x300000 ≤ c ∧ c + 4 ≤ 0x308000 then some (c - 0x300000)
  else none

/-- The bits of a register of the window that its table calls reserved (R319, R327, R331, R379, R414). -/
def mgmtReserved (off : Nat) : Word :=
  if off < 0x8000 then (if off % 64 = 0 then 0x7CFFC0FF else 0)
  else if 0x410000 ≤ off ∧ off < 0x411000 then
    (match off % 64 with
    | 0x00 => 0xFFFFFFF0
    | 0x04 => 0x00F0F000
    | 0x08 => 0xFFFF0000
    | 0x14 => 0x001FFFC0
    | 0x18 => 0xFFFFF800
    | _ => 0)
  else if 0x430000 ≤ off ∧ off < 0x434000 then (if off % 16 = 0 then 0x3FFFFFC0 else 0)
  else if off = 0x500000 then 0x001FFFFF
  else if off = 0x500034 then 0x7FFFFE00
  else if 0x500100 ≤ off ∧ off < 0x500140 ∨ 0x500320 ≤ off ∧ off < 0x500340 then 0x7FFFFFC0
  else 0

/-- A store of a Spire core sets a reserved bit of a register, or writes a reserved code: QCTL.KIND 3 or PCTL.SPLIT 3
(R2, R305, R327). -/
def usesReserved (off : Nat) (w : Word) : Bool :=
  w &&& mgmtReserved off != 0 || (decide (off < 0x8000 ∧ off % 64 = 0) && w.toNat / 2 ^ 24 % 4 == 3) ||
    (decide (0x410000 ≤ off ∧ off < 0x411000 ∧ off % 64 = 0) && w.toNat % 4 == 3)

/-- The bits of the cell control register at an offset that its table calls reserved, where `w` is to be written (R273, R295,
R331, R334, R383, R388, R426); a peer word of the host has another layout (R323). -/
def cellReservedBits (o : Nat) (w : Word) : Word :=
  let field := o % 128 / 4
  if o = 0x10 then 0x7FFFFE00
  else if 0x800 ≤ o ∧ o < 0x900 then (if o % 16 = 0 then 0x000F00FF else 0)
  else if 0x1000 ≤ o ∧ o < 0x2000 then
    (if field = 4 ∧ w.toNat / 2 ^ 22 ≠ 0x3FF then 0x00000FF0
    else if field = 8 ∧ o < 0x1800 then 0x6000FFC0
    else if field = 9 ∧ o < 0x1800 then 0xFE00FE00
    else 0)
  else if 0x9200 ≤ o ∧ o < 0x9218 then (if o % 8 = 0 then 0x3FFFC000 else 0)
  else if o = 0x9300 then 0x1F8000F0
  else if o = 0x9304 then 0x3FFFFFC0
  else if 0xA000 ≤ o ∧ o < 0xA200 then (if o % 16 = 8 then 0x3F000000 else 0)
  else 0

/-- A word for a cell control register sets a reserved bit, or is one of the reserved values of TOKEXP (R2, R156, R158).
What the translation set refuses is not written and ends in REFUSED (R355), and a channel field that sset could not write
keeps its value (log 40, DESIGN CHOICE). -/
def cellReserved (o : Nat) (w : Word) : Bool :=
  w &&& cellReservedBits o w != 0 || (o == 0x0C && decide (w.toNat < 0x10000))

/-- A read of CYC's low word latches its high word (R402). -/
def State.latchCyc (s : State) (m off : Nat) : State :=
  if off = 0x500010 then
    s.onMod m fun x => { x with io := { x.io with cycLatch := BitVec.ofNat 32 (x.io.cyc.toNat / 2 ^ 32) } }
  else s

/-- A write of a Spire core waits for its step in this cycle. -/
def State.queueWrite (s : State) (m off : Nat) (w : Word) : State :=
  s.onMod m fun x => { x with io := { x.io with writes := x.io.writes ++ [(off, w)] } }

/-- CYC_READ: the host reads CYC (R402). -/
def execCycRead (s : State) : Out := .next (s.latchCyc s.focus.m 0x500010)

end Sys2Proof.Machine
end

