-- ==== Sys2Proof/Machine/ChanCmds.lean ====
section
/-! DEFINITION. The fields of channel ends (R272, R273, R290, R292, R295), the items of mstat (R407), and what the channel
instructions do when their bundle commits (R287 to R292). -/

namespace Sys2Proof.Machine

/-! ### Fields (R272) -/

/-- The number in a state. -/
def EndState.code (x : EndState) : Nat :=
  match x with
  | .unconf => 0
  | .opened => 1
  | .closed => 2
  | .dead => 3

/-- A field of an in-channel by its number; none where it has no such field. PTRS holds 6 bits of the popped count (R272)
(log 33, DEDUCED). -/
def InChan.field (x : InChan) (f : Nat) : Option Word :=
  match f with
  | 0 => some (BitVec.ofNat 32 x.state.code)
  | 1 => some (BitVec.ofNat 32 x.base)
  | 2 => some (BitVec.ofNat 32 x.size)
  | 3 => some (BitVec.ofNat 32 x.slots)
  | 4 => some x.peer
  | 5 => some (BitVec.ofNat 32 x.mode.toNat)
  | 6 => some (x.owner.setWidth 32)
  | 8 => some x.rate0
  | 9 => some x.rate1
  | 10 => some (BitVec.ofNat 32 x.rtt)
  | 11 => some x.seq
  | 12 => some (BitVec.ofNat 32 x.occ)
  | 13 => some (BitVec.ofNat 32 (x.popped % 64 * 2 ^ 16 + x.popPtr * 2 ^ 8 + x.relPtr))
  | 14 => some (BitVec.ofNat 32 (x.wp * 2 ^ 16 + x.wc))
  | 15 => some (BitVec.ofInt 32 x.integ)
  | 16 => some (BitVec.ofNat 32 x.avg)
  | 17 => some (BitVec.ofNat 32 (x.miss.toNat * 2 + x.frozen.toNat))
  | _ => none

/-- A field of an out-channel by its number. -/
def OutChan.field (x : OutChan) (f : Nat) : Option Word :=
  match f with
  | 0 => some (BitVec.ofNat 32 x.state.code)
  | 3 => some (BitVec.ofNat 32 x.slots)
  | 4 => some x.peer
  | 5 => some (BitVec.ofNat 32 x.mode.toNat)
  | 6 => some (x.owner.setWidth 32)
  | 7 => some (BitVec.ofNat 32 (x.grouped.toNat * 16 + x.group))
  | 11 => some x.seq
  | 12 => some (BitVec.ofNat 32 x.fbc)
  | 13 => some (BitVec.ofNat 32 x.wptr)
  | 14 => some (if x.weighted then BitVec.ofNat 32 x.weight else 0x01000100)
  | _ => none

/-- The error code of two rate words on a ring of `slots` slots, or 0 (R295, R301). -/
def rateFault (r0 r1 : Word) (slots : Nat) : Nat :=
  let gi := r0.toNat / 2 ^ 20 % 16
  let gp := r0.toNat / 2 ^ 16 % 16
  let per := r0.toNat / 2 ^ 24 % 32
  let sp := r0.toNat % 64
  let wmax := r1.toNat / 2 ^ 16 % 512
  let wmin := r1.toNat % 512
  if !r0.getLsbD 31 then 0
  else if (r0 &&& 0x6000FFC0) ≠ 0 ∨ (r1 &&& 0xFE00FE00) ≠ 0 ∨ per < 8 ∨ 16 < per ∨ wmax < 1 ∨ 256 < wmax ∨ wmin < 1 ∨
      wmax < wmin then 9
  else if gp < 1 ∨ 12 < gp ∨ gi < gp + 2 ∨ sp < 1 ∨ slots ≤ sp then 10
  else 0

/-- The reserved bits of a peer word are zero (R273). -/
def peerOk (w : Word) : Bool := if peerIsHost w then (w &&& 0x00300380) == 0 else (w &&& 0xFF0) == 0

/-- The values of a writable field that is not STATE or a rate word (R272). -/
def channelValue (f x : Nat) (w : Word) : Bool :=
  match f with
  | 1 => x < 2 ^ 21 && x % 128 == 0
  | 2 => 1 ≤ x && x ≤ 65536
  | 3 => 1 ≤ x && x ≤ 64
  | 4 => peerOk w
  | 5 => x < 2
  | 6 => x < 65536
  | 7 => x < 32
  | 10 => x < 65536
  | _ => true

/-- An in-end may be opened by sset: its owner names a bound record that holds its span (R270, R274). -/
def Cell.mayOpen (c : Cell) (n : Nat) : Bool :=
  let x := c.inCh n
  match c.entryOf x.owner with
  | some e => (c.record e).state != .ended && x.spanOk (c.record e).desc
  | none => false

/-- The code of the ENGINE_ERR that a write of a field raises, or 0 (R286, codes 0x07 to 0x0A). -/
def Cell.writeFault (c : Cell) (out : Bool) (n f : Nat) (w : Word) : Nat :=
  let state := if out then (c.outCh n).state else (c.inCh n).state
  let known := if out then ((c.outCh n).field f).isSome else ((c.inCh n).field f).isSome
  if !known || 12 ≤ f || (f == 11 && !out) then 7
  else if state = .opened ∧ (1 ≤ f ∧ f ≤ 7 ∨ f = 10) then 8
  else if f = 0 then
    if 1 < w.toNat ∨ w.toNat = 1 ∧ (state = .dead ∨ out = false ∧ c.mayOpen n = false) then 9 else 0
  else if f = 8 then rateFault w (c.inCh n).rate1 (c.inCh n).slots
  else if f = 9 then rateFault (c.inCh n).rate0 w (c.inCh n).slots
  else if channelValue f w.toNat w then 0 else 9

/-- New rate words (R292): the controller starts afresh in the next cycle, and both parties have weight 256 from then on. The
freeze flag that is cleared is the running period's; FLAGS keeps that of the last period (log 33, DEDUCED). -/
def State.setRate (s : State) (m u n : Nat) (r0 r1 : Word) : State :=
  let s := s.onCell m u fun c => c.onIn n fun x =>
    { x with rate0 := r0, rate1 := r1, integ := 0, sum := 0, frz := false, wp := 256
             wcNext := some (s.cycle + 1, 256), start := s.cycle + 1 }
  let x := (s.cell m u).inCh n
  if x.state = .opened then s.send m u 0 (peerAddr x.peer).1 6 (.weight (peerAddr x.peer).2 256) else s

/-- A write of a plain field of an in-channel or of an out-channel. -/
def InChan.put (x : InChan) (f : Nat) (w : Word) : InChan :=
  match f with
  | 1 => { x with base := w.toNat }
  | 2 => { x with size := w.toNat }
  | 3 => { x with slots := w.toNat }
  | 4 => { x with peer := w }
  | 5 => { x with mode := w.getLsbD 0 }
  | 6 => { x with owner := w.setWidth 16 }
  | 10 => { x with rtt := w.toNat }
  | _ => x

def OutChan.put (x : OutChan) (f : Nat) (w : Word) : OutChan :=
  match f with
  | 3 => { x with slots := w.toNat }
  | 4 => { x with peer := w }
  | 5 => { x with mode := w.getLsbD 0 }
  | 6 => { x with owner := w.setWidth 16 }
  | 7 => { x with grouped := w.getLsbD 4, group := w.toNat % 16 }
  | 11 => { x with seq := w }
  | _ => x

/-- A field of a channel end written, after its checks (R270, R271, R290). An end that is OPEN already stays as it is when
STATE is set to 1. -/
def State.writeField (s : State) (m u : Nat) (out : Bool) (n f : Nat) (w : Word) : State :=
  let c := s.cell m u
  match f with
  | 0 =>
    if w = 0 then
      s.onCell m u fun c =>
        if out then c.onOut n fun x => { x with state := .unconf } else c.onIn n fun x => { x with state := .unconf }
    else if out then (if (c.outCh n).state = .opened then s else s.openOut m u n)
    else if (c.inCh n).state = .opened then s else s.openIn m u n
  | 8 => s.setRate m u n w (c.inCh n).rate1
  | 9 => s.setRate m u n (c.inCh n).rate0 w
  | _ => s.onCell m u fun c => if out then c.onOut n fun x => x.put f w else c.onIn n fun x => x.put f w

/-! ### Commands -/

/-- A push or mcast issues (R287, R291): `outs` are its channels. -/
def State.issuePush (s : State) (m u k op : Nat) (outs : List Nat) (a b : Word) (t : Nat) (mcast : Bool) : State :=
  s.onCell m u fun c =>
    let st := c.strand k
    let info := pushInfo st (c.record st.entry) (b.getLsbD 30)
    let (c, seq, to') := c.takeSlots outs info.seq
    let len := b.toNat % 2 ^ 17
    let j : PushJob :=
      { op := op, k := k, recid := st.recid.toNat, t := t, off := a.toNat, len := len, seq := seq, eos := b.getLsbD 31
        poison := info.poison, etag := info.etag, to' := to', mcast := mcast, begun := false, data := []
        bad := false }
    let c := { c.awaits k op t with pushes := c.pushes ++ [j] }
    c.scbAdd op k (if len = 0 then [] else [(a.toNat, len)]) []

/-- spop claims a slot, and is a command in flight until its delivery (R197, R198, R288). -/
def Cell.issuePop (c : Cell) (k op n t : Nat) : Cell :=
  let st := c.strand k
  let r := c.record st.entry
  let q : Claim := ⟨(c.inCh n).popPtr, k, st.recid.toNat, op, t, r.desc.arrival && r.desc.trig == n⟩
  ((c.awaits k op t).scbAdd op k [] []).onIn n fun y =>
    { y with popPtr := (y.popPtr + 1) % y.slots, popped := y.popped + 1, claims := y.claims ++ [q] }

/-- Slots whose release has issued and not taken effect (log 33, DEDUCED). -/
def Cell.releasing (c : Cell) (n : Nat) : Nat := (c.rels.filter fun r => r.chan == n).foldl (fun a r => a + r.n) 0

/-- srel issues (R289). Its scoreboard entry belongs to no strand's writes (log 33, DEDUCED). -/
def Cell.issueRel (c : Cell) (k op n cnt : Nat) : Cell :=
  let x := c.inCh n
  ({ c with rels := c.rels ++ [⟨op, k, (c.strand k).recid.toNat, n, cnt⟩] } : Cell).scbAdd op 4 []
    (x.relSpan (x.relPtr + c.releasing n) cnt)

/-- The members of a multicast group (R291). -/
def Cell.groupOf (c : Cell) (g : Nat) : List Nat :=
  (c.outs.filter fun p => p.2.grouped && p.2.group == g).map fun p => p.1

/-- The effect of a channel command that issues; `op` is its number (log 33, DEDUCED). -/
def State.chanCmd (s : State) (m u k op : Nat) (x : Cmd) : State :=
  match x with
  | .spush n a b t => s.issuePush m u k op [n] a b t false
  | .mcast g a b t => s.issuePush m u k op ((s.cell m u).groupOf g) a b t true
  | .spop n t => s.onCell m u fun c => c.issuePop k op n t
  | .srel n a => s.onCell m u fun c => c.issueRel k op n (a.toNat % 128)
  | .sget out n a t =>
    s.onCell m u fun c =>
      c.answer s.cycle k op t (((if out then (c.outCh n).field (a.toNat % 256) else (c.inCh n).field (a.toNat % 256))).getD 0)
  | .sset out n a t =>
    let old := (if out then ((s.cell m u).outCh n).field (a.toNat % 256)
      else ((s.cell m u).inCh n).field (a.toNat % 256)).getD 0
    let w := (s.strand m u k).s.getD t 0
    (s.writeField m u out n (a.toNat % 256) w).onCell m u fun c => c.answer s.cycle k op t old
  | .rctl n a b => s.setRate m u n a b
  | _ => s

/-! ### mstat (R407) -/

/-- The numerical counters by their items (R400, R401). -/
def Counters.get (c : Counters) (n : Nat) : BitVec 16 :=
  match n with
  | 0 => c.accSat
  | 1 => c.cvtSat8
  | 2 => c.nanScale
  | 3 => c.nanOut
  | 4 => c.infOut
  | 5 => c.wldRange
  | 6 => c.sdcMismatch
  | _ => c.discRead

/-- The counters with one of them set. -/
def Counters.put (c : Counters) (n : Nat) (x : BitVec 16) : Counters :=
  match n with
  | 0 => { c with accSat := x }
  | 1 => { c with cvtSat8 := x }
  | 2 => { c with nanScale := x }
  | 3 => { c with nanOut := x }
  | 4 => { c with infOut := x }
  | 5 => { c with wldRange := x }
  | 6 => { c with sdcMismatch := x }
  | _ => { c with discRead := x }

/-- The word that `wait` delivers for a completion (R163): FIRED and the status. -/
def firedWord (fired : Bool) (status : Nat) : Word := BitVec.ofNat 32 (fired.toNat * 2 ^ 31 + status * 2 ^ 24)

/-- The number of a record's status (R334). -/
def RecStatus.code (x : RecStatus) : Nat :=
  match x with
  | .none => 0
  | .done => 1
  | .cancelled => 2
  | .killed => 3

/-- The valid entry of the unit table that holds a level and an id (R397) (log 34, DEDUCED). -/
def IoDie.unitOf (io : IoDie) (level id : Nat) : Option (Nat × UnitEntry) :=
  io.units.find? fun p => p.2.v && p.2.level == level && p.2.id == id

/-- The completion status of the unit that a word names, at level 0 a record of the cell, else an entry of the module's unit
table (R163, R407) (log 34, DEDUCED). -/
def completion (c : Cell) (io : IoDie) (w : Word) : Word :=
  let id := w.toNat % 2 ^ 16
  match w.toNat / 2 ^ 16 % 4 with
  | 0 =>
    match c.entryOf (BitVec.ofNat 16 id) with
    | some e => firedWord ((c.record e).state == .ended) (c.record e).status.code
    | none => firedWord true 0
  | level =>
    match io.unitOf level id with
    | some (_, x) => firedWord x.fired x.status
    | none => firedWord true 0

/-- BLK and a bin as this cycle found them, and whether the cycle counts into them. -/
def OutChan.blkWas (x : OutChan) (cycle : Nat) : Word × Bool :=
  match x.blkAt with
  | some (at', w) => if at' = cycle then (w, true) else (x.blk, false)
  | none => (x.blk, false)

def InChan.binWas (x : InChan) (bin : Nat) : Word × Bool :=
  match x.binAt with
  | some (b, w) => if b = bin then (w, true) else (x.hist.getD bin 0, false)
  | none => (x.hist.getD bin 0, false)

/-- Item `n` of mstat, without what the present cycle has added to it (R407) (log 34, DEDUCED). -/
def mstatItem (c : Cell) (io : IoDie) (cycle entry n : Nat) (b : Word) : Word :=
  let x := c.inCh (b.toNat % 16)
  let y := c.outCh (b.toNat % 16)
  if n < 8 then (c.cntsWas.get n).setWidth 32
  else if n = 8 then c.cmax
  else if n = 9 then c.cnan.setWidth 32
  else if n = 10 then completion c io b
  else if n = 11 then
    let r := c.record entry
    match b.toNat % 4 with
    | 0 => r.ilast
    | 1 => r.imin
    | 2 => r.imax
    | _ => r.icnt
  else if n = 12 then BitVec.ofNat 32 x.omin
  else if n = 13 then BitVec.ofNat 32 x.omax
  else if n = 14 then (y.blkWas cycle).1
  else (x.binWas (n - 16)).1

/-- The cell after mstat clears item `n`: what the present cycle has added stays (R407). -/
def Cell.mstatClear (c : Cell) (cycle entry n : Nat) (b : Word) : Cell :=
  let i := b.toNat % 16
  if n < 8 then { c with cnts := c.cnts.put n (c.cntsNew.get n) }
  else if n = 8 then { c with cmax := 0 }
  else if n = 9 then { c with cnan := 0 }
  else if n = 10 then c
  else if n = 11 then c.onRecord entry fun r => { r with ilast := 0, imin := 0xFFFFFFFF, imax := 0, icnt := 0 }
  else if n = 12 then c.onIn i fun x => { x with omin := x.occ }
  else if n = 13 then c.onIn i fun x => { x with omax := x.occ }
  else if n = 14 then c.onOut i fun x => { x with blk := BitVec.ofNat 32 (x.blkWas cycle).2.toNat }
  else c.onIn i fun x => { x with hist := x.hist.set (n - 16) (BitVec.ofNat 32 (x.binWas (n - 16)).2.toNat) }

/-- mstat when its bundle commits (log 34, DEDUCED). -/
def State.mstatCmd (s : State) (m u k op n : Nat) (a b : Word) (t : Nat) : State :=
  let io := (s.mod m).io
  s.onCell m u fun c =>
    let e := (c.strand k).entry
    let w := mstatItem c io s.cycle e n b
    (if a.getLsbD 0 then c.mstatClear s.cycle e n b else c).answer s.cycle k op t w

end Sys2Proof.Machine
end

