-- ==== Sys2Proof/Machine/Records.lean ====
section
/-! DEFINITION. Loop records: their descriptors, binding and unbinding, starting and ending, the context engine, cancelling
and killing (R163 to R165, R175, R176, R333 to R351, R396, R398, R405). -/

namespace Sys2Proof.Machine

/-! ### The descriptor (R336) -/

def bitsOf (w : Word) (lo n : Nat) : Nat := w.toNat / 2 ^ lo % 2 ^ n

/-- The class of a region word. -/
def regionClass (n : Nat) : RegionClass :=
  match n with
  | 1 => .priv
  | 2 => .shared
  | 3 => .inbox
  | _ => .weight

/-- The descriptor in a run of 256 bytes. -/
def descOf (raw : List Byte) : Desc :=
  let ws := wordsOf raw
  let w (off : Nat) : Word := ws.getD (off / 4) 0
  { pro := (w 0x00).setWidth 15
    ker := (w 0x04).setWidth 15
    epi := (w 0x08).setWidth 15
    arrival := (w 0x0C).getLsbD 31
    trig := bitsOf (w 0x0C) 0 4
    trips := w 0x10
    prio := bitsOf (w 0x14) 0 8
    ceil := bitsOf (w 0x14) 8 8
    weight := bitsOf (w 0x14) 16 9
    smax := bitsOf (w 0x18) 0 6
    vmax := bitsOf (w 0x18) 8 6
    qmax := bitsOf (w 0x18) 16 3
    hmax := bitsOf (w 0x18) 24 4
    wbase := bitsOf (w 0x1C) 0 23
    wsize := bitsOf (w 0x20) 0 23
    spill := bitsOf (w 0x24) 0 23
    spoff := bitsOf (w 0x28) 0 23
    hold := (w 0x2C).getLsbD 31
    strand := bitsOf (w 0x2C) 8 2
    tbars := bitsOf (w 0x2C) 0 6
    tvec := BitVec.ofNat 9 (bitsOf (w 0x30) 6 9)
    inmask := (w 0x34).setWidth 16
    outmask := BitVec.ofNat 16 (bitsOf (w 0x34) 16 16)
    need := (List.range 16).map fun n => (raw.getD (0x40 + n) 0).toNat
    launch := (List.range 8).map fun n => w (0x60 + 4 * n)
    regions := (List.range 16).filterMap fun i =>
      let a := w (0x80 + 8 * i)
      if a.toNat / 2 ^ 29 = 0 then none
      else some ⟨i, regionClass (a.toNat / 2 ^ 29), bitsOf a 0 23, (w (0x84 + 8 * i)).toNat⟩ }

/-- The bits of each word that the table of R336 names, by offset; the words from 0x40 on are checked otherwise. -/
def descMask (off : Nat) : Word :=
  match off with
  | 0x00 => 0x7FFF
  | 0x04 => 0x7FFF
  | 0x08 => 0x7FFF
  | 0x0C => 0x8000000F
  | 0x10 => 0xFFFFFFFF
  | 0x14 => 0x01FFFFFF
  | 0x18 => 0x0F073F3F
  | 0x1C => 0x7FFFFF
  | 0x20 => 0x7FFFFF
  | 0x24 => 0x7FFFFF
  | 0x28 => 0x7FFFFF
  | 0x2C => 0x8000033F
  | 0x30 => 0x7FC0
  | 0x34 => 0xFFFFFFFF
  | _ => 0

/-- The two words of region slot `i` lie outside their values (R181, R336, R338). -/
def regionBad (a size : Word) : Bool :=
  let cls := a.toNat / 2 ^ 29
  let off := bitsOf a 0 23
  let n := size.toNat
  let store := if cls = 4 then (0x200000, 0x400000) else (0, 0x200000)
  4 < cls || (a &&& 0x1F800000) != 0 || (cls == 0 && (a != 0 || size != 0)) ||
    (cls != 0 && (off % 128 != 0 || n % 128 != 0 || n < 128 || !inside off n store.1 store.2))

/-- The offsets of the fields whose values lie outside R336, that of a carve-out past the window's end among them
(log 25, DEDUCED). -/
def badFields (raw : List Byte) (spire : Bool) : List Nat :=
  let ws := wordsOf raw
  let w (off : Nat) : Word := ws.getD (off / 4) 0
  let d := descOf raw
  let if' (bad : Bool) (off : Nat) : List Nat := if bad then [off] else []
  ((List.range 16).map (fun i => 4 * i)).filter (fun off => (w off &&& ~~~(descMask off)) != 0) ++
    if' (!d.arrival && d.trig != 0) 0x0C ++ if' (d.arrival && d.trips != 0) 0x10 ++
    if' (decide (d.ceil < d.prio) || d.weight == 0 || decide (256 < d.weight)) 0x14 ++
    if' (d.wbase % 128 != 0 || decide (0x200000 ≤ d.wbase)) 0x1C ++ if' (d.wsize % 128 != 0) 0x20 ++
    if' (d.spill % 128 != 0) 0x24 ++ if' (d.spoff % 128 != 0 || decide (d.wsize < d.spoff + d.spill)) 0x28 ++
    if' (d.hold && !spire || decide (32 < d.tbars)) 0x2C ++
    ((List.range 16).map (fun n => 0x40 + n)).filter (fun off => 64 < (raw.getD off 0).toNat) ++
    ((List.range 4).map (fun i => 0x50 + 4 * i)).filter (fun off => w off != 0) ++
    ((List.range 16).map (fun i => 0x80 + 8 * i)).filter (fun off => regionBad (w off) (w (off + 4)))

/-- A span that a record claims: its detail in R338, its class or none for the carve-out, its offset and its size. -/
structure Span where
  detail : Nat
  cls : Option RegionClass
  off : Nat
  size : Nat
deriving DecidableEq, Repr

def Desc.spans (d : Desc) : List Span :=
  (d.regions.map fun r => ⟨r.index, some r.cls, r.off, r.size⟩) ++
    (if d.spill = 0 then [] else [⟨17, none, d.carve.1, d.carve.2⟩])

def Span.meets (a b : Span) : Bool := Machine.meets a.off a.size b.off b.size

/-- Two records may both declare the span (R183). -/
def Span.sharable (a b : Span) : Bool :=
  a.cls == b.cls && a.off == b.off && a.size == b.size &&
    (a.cls == some .shared || a.cls == some .inbox || a.cls == some .weight)

/-- The spans that break a rule beside the spans before them (log 25, DEDUCED). -/
def selfOverlaps : List Span → List Span → List Nat
  | _, [] => []
  | before, x :: r => (if before.any fun y => x.meets y then [x.detail] else []) ++ selfOverlaps (before ++ [x]) r

/-- The descriptors that are bound in the cell beside entry `e` (log 25, DEDUCED). -/
def Cell.otherDescs (c : Cell) (e : Nat) : List Desc :=
  (c.recs.filter fun p => p.1 != e && p.2.state != .free).map fun p => p.2.desc

/-- The details of OVERLAP (R181, R183, R337, R338) (log 25, DEDUCED). -/
def Cell.overlaps (c : Cell) (e : Nat) (d : Desc) : List Nat :=
  let spans := d.spans
  let others := (c.otherDescs e).flatMap fun x => x.spans
  (if d.wsize ≠ 0 ∧ 0x1C8000 < d.wbase + d.wsize then [16] else []) ++ selfOverlaps [] spans ++
    ((spans.filter fun x => x.cls != some .weight &&
      (!inside x.off x.size d.wbase d.wsize || decide (0x1C8000 < x.off + x.size))).map fun x => x.detail) ++
    ((spans.filter fun x => others.any fun y => x.meets y && !x.sharable y).map fun x => x.detail)

/-- The distinct SHARED regions of some descriptors. -/
def sharedOf (ds : List Desc) : List (Nat × Nat) :=
  ((ds.flatMap fun d => d.regions.filter fun r => r.cls == .shared).map fun r => (r.off, r.size)).eraseDups

/-- The SHARED regions that would be a ninth (R183). -/
def Cell.sharedLimit (c : Cell) (e : Nat) (d : Desc) : List Nat :=
  let have' := sharedOf (c.otherDescs e)
  let new := (d.regions.filter fun r => r.cls == .shared && !have'.contains (r.off, r.size)).map fun r => r.index
  new.drop (8 - have'.length)

/-- The channels of a mask. -/
def maskOf (m : BitVec 16) : List Nat := (List.range 16).filter fun n => m.getLsbD n

/-- The in-channel that is the peer of an out-channel, unless the host is (R273). -/
def State.peerIn (s : State) (m : Nat) (w : Word) : Option InChan :=
  if peerIsHost w then none
  else
    let a := peerAddr w
    let m' := if a.1.chip = s.chip m then m else (s.moduleOf a.1.chip).getD m
    some ((s.cell m' a.1.unit).inCh a.2)

/-- The least k with n ≤ 2^k. -/
def ceilLog2 (n : Nat) : Nat := if n ≤ 1 then 0 else Nat.log2 (n - 1) + 1

/-- The owned in-channels whose own controllers break a stability rule (R301, rules 1, 2, 3 and 5); rule 3 counts the enabled
channels at both ends of the record (log 25, DEDUCED). -/
def State.unstable (s : State) (m u : Nat) (d : Desc) : List Nat :=
  let c := s.cell m u
  let ins := (maskOf d.inmask).filter fun n => (c.inCh n).en
  let n := ins.length + (maskOf d.outmask).countP fun n => (s.peerIn m (c.outCh n).peer).any fun x => x.en
  ins.filter fun i =>
    let x := c.inCh i
    rateFault x.rate0 x.rate1 x.slots != 0 || decide (2 ^ x.per < 4 * x.rtt) || decide (x.gp < 1 + ceilLog2 n)

/-- A reserved bit of a rate word is set (R295, R338). -/
def rateReserved (r0 r1 : Word) : Bool := (r0 &&& 0x6000FFC0) != 0 || (r1 &&& 0xFE00FE00) != 0

/-- The first failure of a bind into entry `e`: its status and its lowest detail (R338) (log 25, DEDUCED). -/
def State.bindFault (s : State) (m u e : Nat) (raw : List Byte) (spire : Bool) : Option (Nat × Nat) :=
  let c := s.cell m u
  let d := descOf raw
  let busy (x : EndState) : Bool := x != .unconf && x != .closed
  let ins := maskOf d.inmask
  let all : List (Nat × List Nat) :=
    [(2, badFields raw spire), (3, c.overlaps e d), (4, c.sharedLimit e d),
      (5, (ins.filter fun n => busy (c.inCh n).state) ++
        ((maskOf d.outmask).filter fun n => busy (c.outCh n).state).map fun n => n + 16),
      (7, ins.filter fun n => !(c.inCh n).spanOk d),
      (8, ins.filter fun n =>
        let x := c.inCh n
        rateReserved x.rate0 x.rate1 || x.en && rateFault x.rate0 x.rate1 x.slots == 9),
      (6, s.unstable m u d)]
  (all.find? fun p => !p.2.isEmpty).map fun p => (p.1, p.2.foldl min 0xFFFF)

/-! ### Binding (R338, R339) -/

/-- The entry that a bind takes: the lowest FREE one, else the ENDED one that ended earliest (log 25, DEDUCED). -/
def Cell.bindEntry (c : Cell) : Option Nat :=
  match (List.range 16).find? fun e => (c.record e).state == .free with
  | some e => some e
  | none =>
    (List.range 16).foldl
      (fun best e =>
        if (c.record e).state == .ended then
          match best with
          | none => some e
          | some b => if (c.record e).endOrder < (c.record b).endOrder then some e else best
        else best) none

/-- The detectors of the SHARED regions that are declared now: a region declared before keeps its own (R202). -/
def Cell.setRaces (c : Cell) (before : List (Nat × Nat)) : Cell :=
  let now := sharedOf ((c.recs.filter fun p => p.2.state != .free).map fun p => p.2.desc)
  { c with races := now.map fun r =>
      match (if before.contains r then c.races.find? fun x => x.off == r.1 && x.size == r.2 else none) with
      | some x => x
      | none => ⟨r.1, r.2, none, none⟩ }

/-- The entry of a freshly bound record (R338, R344, R405); `units` are its placement, phase and job (R396). -/
def RecEntry.bound (old : RecEntry) (d : Desc) (cycle : Nat) (units : Nat × Nat × Nat) : RecEntry :=
  { RecEntry.free with
    gen := old.gen + 1
    state := .bound
    strand := d.strand
    hold := d.hold
    desc := d
    prioDecl := d.prio
    prioEff := d.prio
    ageFrom := cycle
    placement := units.1
    phase := units.2.1
    job := units.2.2
    imin := 0xFFFFFFFF }

/-- The word of a failed bind. -/
def bindError (status detail : Nat) : Word := BitVec.ofNat 32 (2 ^ 31 + status * 2 ^ 16 + detail)

/-- A bind of the descriptor `raw`, by a strand of the cell or by a Spire core: the result word (R338, R339). -/
def State.bindRecord (s : State) (m u : Nat) (raw : List Byte) (spire : Bool) (units : Nat × Nat × Nat) : State × Word :=
  let c := s.cell m u
  match c.bindEntry with
  | none => (s, bindError 1 0)
  | some e =>
    match s.bindFault m u e raw spire with
    | some (status, detail) => (s, bindError status detail)
    | none =>
      let d := descOf raw
      let before := sharedOf (c.otherDescs e)
      let r := (c.record e).bound d s.cycle units
      let rid := recordId r.gen e
      let s := s.setCell m u (({ c with recs := tput c.recs e r } : Cell).setRaces before)
      let s := (maskOf d.inmask).foldl
        (fun s n => (s.onCell m u fun c => c.onIn n fun x => { x with owner := rid }).openIn m u n) s
      let s := (maskOf d.outmask).foldl
        (fun s n => (s.onCell m u fun c => c.onOut n fun x => { x with owner := rid }).openOut m u n) s
      (s, rid.setWidth 32)

/-- The same by device code, which also sends a bind notice to the I/O die (R396, R398). -/
def State.bindLocal (s : State) (m u entry : Nat) (raw : List Byte) : State × Word :=
  let r := (s.cell m u).record entry
  let (s, w) := s.bindRecord m u raw false (r.placement, r.phase, r.job)
  if w.getLsbD 31 then (s, w)
  else (s.send m u 0 ⟨s.chip m, ioUnit⟩ 6 (.bindNote 1 r.placement), w)

/-- Each bind whose read has not begun begins it once no earlier command conflicts (R338, R198): 256 B at 128 B per cycle. -/
def Cell.startBinds (c : Cell) (cycle : Nat) : Cell :=
  { c with binds := c.binds.map fun j =>
      match j.endAt with
      | some _ => j
      | none => if c.scbClear j.op [(j.off, 256)] [] then { j with endAt := some (cycle + 2) } else j }

/-- A bind whose descriptor has been read takes effect, and delivers in the next cycle. -/
def State.endBind (s : State) (m u : Nat) (j : BindJob) : State :=
  let raw := memBytes (s.cell m u).mem j.off 256
  let s := s.found m u j.off 256 j.k (recordId ((s.cell m u).record j.entry).gen j.entry).toNat 1
  let s := s.onCell m u fun c => { c.scbDrop j.op with binds := c.binds.filter fun x => x.op != j.op }
  let (s, w) := s.bindLocal m u j.entry raw
  s.onCell m u fun c => c.deliverAt (s.cycle + 1) j.k j.op j.t w []

def BindJob.ends (j : BindJob) (cycle : Nat) : Bool :=
  match j.endAt with
  | some e => decide (e ≤ cycle)
  | none => false

/-! ### The start condition and eligibility (R280, R341, R344) -/

/-- The buffers that an out-channel has free: a group member has the group's free count (R280, R291). -/
def Cell.freeOf (c : Cell) (n : Nat) : Nat :=
  let x := c.outCh n
  if x.grouped then ((c.groupOf x.group).map fun k => (c.outCh k).fbc).foldl min x.fbc else x.fbc

/-- The out-channels of a record whose need is not met. -/
def Cell.shortOf (c : Cell) (d : Desc) : List Nat :=
  (maskOf d.outmask).filter fun n => c.freeOf n < d.need.getD n 0

/-- What the trigger of a record shows: fixed mode needs no packet. -/
inductive TrigHead where
  | packet | eos | empty | dead
deriving DecidableEq, Repr

def Cell.trigOf (c : Cell) (d : Desc) : TrigHead :=
  if !d.arrival then .packet
  else
    let x := c.inCh d.trig
    if x.state = .dead then .dead
    else
      match x.head with
      | some a => if a.eos then .eos else .packet
      | none => .empty

/-- The DEAD end that stops a record's `loop` (R281): its channel number, plus 16 for an out-channel. -/
def Cell.deadEnd (c : Cell) (d : Desc) : Option Nat :=
  if c.trigOf d = .dead then some d.trig
  else ((maskOf d.outmask).find? fun n => (c.outCh n).state == .dead).map fun n => n + 16

/-- A record may be started or restored (R341, R344): a BOUND one by case 5 of R342, to which a dead end does not come; a
PARKED one also where its `loop` would take case 2 or 3. -/
def Cell.eligible (c : Cell) (r : RecEntry) : Bool :=
  let t := c.trigOf r.desc
  let starts := (t == .packet || t == .eos) && (c.shortOf r.desc).isEmpty && (c.deadEnd r.desc).isNone
  match r.state with
  | .bound => !r.hold && r.ending.isNone && (r.desc.arrival || r.desc.trips != 0) && starts
  | .parked =>
    r.ending.isNone && (starts || t == .eos || (c.deadEnd r.desc).isSome ||
      (!r.desc.arrival && (match r.saved with
        | some st => st.lc == 0
        | none => false)))
  | _ => false

/-- A strand on which a record may be placed: it is idle, and no RUNNING record is bound to it (R344). -/
def Cell.strandFree (c : Cell) (k : Nat) : Bool :=
  (c.strand k).mode == .idle && c.recs.all fun p => !(p.2.state == .running && p.2.strand == k)

/-- The record that strand `k` takes next (R344). -/
def Cell.nextRecord (c : Cell) (k : Nat) : Option Nat :=
  ((c.recs.filter fun p => p.2.strand == k && c.eligible p.2).foldl
    (fun (best : Option (Nat × RecEntry)) p =>
      match best with
      | none => some p
      | some b =>
        let since (r : RecEntry) : Nat := r.eligible.getD 0
        if b.2.prioEff < p.2.prioEff ∨ b.2.prioEff = p.2.prioEff ∧ since p.2 < since b.2 then some p else best)
    none).map fun p => p.1

/-- Every record notes since when it has been eligible (R344, R348). -/
def Cell.noteEligible (c : Cell) (cycle : Nat) : Cell :=
  { c with recs := c.recs.map fun p =>
      (p.1,
        if c.eligible p.2 then
          (if p.2.eligible.isNone then { p.2 with eligible := some cycle, ageFrom := cycle } else p.2)
        else if p.2.eligible.isSome then { p.2 with eligible := none } else p.2) }

/-- The siblings that run under an entry. -/
def Cell.siblings (c : Cell) (e : Nat) : List Nat :=
  (List.range 4).filter fun k => (c.strand k).sibling && (c.strand k).entry == e && (c.strand k).mode != .idle

/-- STAT.PREQ of each strand that runs a bound record (R345). -/
def Cell.notePreq (c : Cell) : Cell :=
  (List.range 4).foldl
    (fun c k =>
      let st := c.strand k
      if st.mode = .running ∧ !st.sibling then
        let r := c.record st.entry
        let p := r.state == .running && (c.siblings st.entry).isEmpty && c.recs.any fun x =>
          x.2.strand == k && c.eligible x.2 && decide (r.prioEff < x.2.prioEff)
        c.setStrand k { st with preq := p }
      else c) c

/-! ### Starting (R92, R96, R99, R122, R341, R405) -/

/-- h0 of a record: its window (R99). -/
def windowHandle (d : Desc) : Handle := ⟨0xA7000000, BitVec.ofNat 32 d.wbase, BitVec.ofNat 32 d.wsize, 0⟩

/-- The scalar file at record start (R92). -/
def launchScalars (d : Desc) : Vector Word 64 :=
  Vector.ofFn fun i : Fin 64 =>
    if 1 ≤ i.val ∧ i.val ≤ 8 then d.launch.getD (i.val - 1) 0
    else if i.val = 62 then BitVec.ofNat 32 d.spoff
    else 0

/-- A strand at the start of a record (R341): the Reset values of R155 and R156 with the record's own, and
DEF 0 (log 7, DESIGN CHOICE) (log 8, DEDUCED). -/
def Strand.begin (d : Desc) (rid : BitVec 16) (e cycle : Nat) : Strand :=
  { Strand.reset with
    mode := .running
    entry := e
    recid := rid
    pc := d.pro
    s := launchScalars d
    h := Vector.ofFn fun i : Fin 16 => if i.val = 0 then windowHandle d else Handle.zero
    lc := d.trips
    spill := BitVec.ofNat 32 d.spill
    tvec := d.tvec
    lacq := cycle
    lastIssue := cycle }

/-- An iteration starts: the iteration monitor, PRIO.EFF and aging (R342, R348, R405) (log 23, DEDUCED). -/
def RecEntry.iterate (r : RecEntry) (cycle : Nat) : RecEntry :=
  let r := { r with prioEff := r.prioDecl, ageFrom := cycle }
  match r.iterAt with
  | none => { r with iterAt := some cycle }
  | some c0 =>
    let d : Word := BitVec.ofNat 32 (min 0xFFFFFFFF (cycle - c0))
    { r with
      iterAt := some cycle
      ilast := d
      imin := minUns r.imin d
      imax := maxUns r.imax d
      icnt := if r.icnt = 0xFFFFFFFF then r.icnt else r.icnt + 1 }

/-- Entry `e` starts on its strand (R341) (log 24, DEDUCED). -/
def Cell.startRecord (c : Cell) (cycle e : Nat) : Cell :=
  let r := c.record e
  let st := Strand.begin r.desc (recordId r.gen e) e cycle
  let eos := c.trigOf r.desc == .eos
  let st := if eos then { st with pc := r.desc.epi }
    else { st with iter := 1, lc := if r.desc.arrival then st.lc else st.lc - 1 }
  let c := c.setStrand r.strand st
  c.onRecord e fun r =>
    let r := { r with state := .running, eligible := none, ageFrom := cycle, prioEff := r.prioDecl }
    if eos then r else r.iterate cycle

/-- A fixed trip count of 0 ends the record when it would start (R341). -/
def RecEntry.trivial (r : RecEntry) : Bool :=
  r.state == .bound && !r.hold && !r.desc.arrival && r.desc.trips == 0

/-! ### The context engine (R345, R346) -/

/-- Replay entries of a context: those of its landing queue and of both trap levels. -/
def Strand.replayCount (st : Strand) : Nat := st.landing.length + st.bank1.replay.length + st.bank2.replay.length

/-- The strand parks at the `loop` bundle at `pc`: it waits for the context engine (R342, R345) (log 24, DEDUCED). -/
def Cell.park (c : Cell) (k : Nat) (pc : BitVec 15) : Cell :=
  let st := c.strand k
  { c.setStrand k { st with mode := .engine, pc := pc, waiting := .none } with ctxQueue := c.ctxQueue ++ [.save k st.entry] }

/-- The first request of the context engine begins: a save once the strand's pending registers have been delivered (R266,
R345) (log 24, DEDUCED). -/
def Cell.startCtx (c : Cell) (cycle : Nat) : Cell :=
  match c.ctxJob, c.ctxQueue with
  | none, .save k e :: r =>
    if (c.strand k).pend.isEmpty then
      { c with ctxJob := some (.save k e, cycle + 71 + (c.strand k).replayCount), ctxQueue := r }
    else c
  | none, .restore k e :: r =>
    let n := match (c.record e).saved with
      | some st => st.replayCount
      | none => 0
    { c with ctxJob := some (.restore k e, cycle + 70 + n), ctxQueue := r }
  | _, _ => c

/-- The bytes of a landing as a replay entry; R346 fixes only their number (log 24, DEDUCED). -/
def freeBytes (from' n : Nat) : List Byte := (List.range n).map fun i => Config.slotByte (from' + i)

/-- What the context engine writes into a slot (R346): the parts whose layout the rule gives, then bytes that it leaves
open (log 24, DEDUCED). -/
def Strand.slotBytes (st : Strand) : List Byte :=
  (st.v.toList.flatMap fun x => bytesOf x.lanes.toList) ++ bytesOf st.s.toList ++ (st.h.toList.flatMap Handle.bytes) ++
    bytesOf (0xFFFFFFFF :: st.q.toList.drop 1) ++ st.v.toList.map fun x => x.tag.setWidth 8

/-- The save of strand `k` ends (R345, R346): the record is PARKED and the strand free; a record cancelled meanwhile ends. -/
def State.endSave (s : State) (m u k e : Nat) : State :=
  let n := 128 + 136 * ((s.cell m u).strand k).replayCount
  let f := s.free
  { s with free := s.free + n }.onCell m u fun c =>
    let st := { c.strand k with mode := .running, preq := false }
    let mem := memWrite c.mem (slotAt e) st.slotBytes
    let mem := memWrite mem (slotAt e + 0x2280) (freeBytes f n)
    let c := { c with mem := mem, ctxJob := none }.onStrand k fun st => st.retire .idle
    c.onRecord e fun r =>
      if r.cancelled then { r with state := .parked, saved := none, ending := some .cancelled }
      else { r with state := .parked, saved := some st, ageFrom := s.cycle }

/-- A PARKED record takes its strand: the context engine restores it, and the record is RUNNING from now on (R344, R346)
(log 24, DEDUCED). -/
def Cell.beginRestore (c : Cell) (e : Nat) : Cell :=
  let r := c.record e
  let c := c.onStrand r.strand fun st => { st with mode := .engine, entry := e, recid := recordId r.gen e }
  { c.onRecord e (fun r => { r with state := .running, eligible := none }) with
    ctxQueue := c.ctxQueue ++ [.restore r.strand e] }

/-- The restore ends: the strand goes on at its saved `loop` bundle. -/
def Cell.endRestore (c : Cell) (cycle k e : Nat) : Cell :=
  match (c.record e).saved with
  | some st =>
    ({ c with ctxJob := none }.setStrand k { st with lastIssue := cycle }).onRecord e fun r =>
      { r with saved := none, ageFrom := cycle }
  | none => { c with ctxJob := none }

/-! ### Ending (R164, R335, R349) -/

/-- The strand of a record has operations in flight: engine, copy and remote commands (R164, R335). `k` none asks for every
strand of the record. -/
def Cell.busy (c : Cell) (rid : Nat) (k : Option Nat) : Bool :=
  let mine (k' rid' : Nat) : Bool := rid' == rid && (k == none || k == some k')
  (c.ops.any fun o => mine o.k o.recid) || (c.arr.wlds.any fun w => mine w.k w.recid) ||
    (c.arr.passes.any fun p => mine p.k p.recid) || (c.arr.drains.any fun d => mine d.k d.recid) ||
    (c.arr.armings.any fun g => mine g.k g.recid) || (c.pushes.any fun j => mine j.k j.recid) ||
    (c.rels.any fun j => mine j.k j.recid) || (c.tbjobs.any fun j => mine j.k j.recid) ||
    (c.binds.any fun j => mine j.k (recordId (c.record j.entry).gen j.entry).toNat) || (c.qwaits.any fun q => mine q.k q.recid)

/-- The strands of an entry become idle and lose everything (R164, R175, R349). -/
def Cell.clearStrands (c : Cell) (e : Nat) : Cell :=
  (List.range 4).foldl
    (fun c k =>
      if (c.strand k).mode ≠ .idle ∧ (c.strand k).entry = e then
        { (c.endWait (.strand k)).onStrand k (fun st => st.retire .idle) with
          ctxQueue := c.ctxQueue.filter fun j => j != .save k e && j != .restore k e
          ctxJob := match c.ctxJob with
            | some (.save k' e', t) => if k' = k ∧ e' = e then none else some (.save k' e', t)
            | some (.restore k' e', t) => if k' = k ∧ e' = e then none else some (.restore k' e', t)
            | none => none }
      else c) c

/-- The status with which a record ends, if it has stopped (R164, R175, R341, R349). -/
def Cell.endStatus (c : Cell) (e : Nat) : Option RecStatus :=
  let r := c.record e
  match r.ending with
  | some x => some x
  | none =>
    if r.trivial then some .done
    else if r.state = .running ∧ (c.strand r.strand).mode = .running ∧ (c.strand r.strand).halted ∧
        (c.strand r.strand).entry = e ∧ (c.siblings e).isEmpty then some .done
    else none

/-- The record may end now: its operations have completed (R335) (log 21, DEDUCED). -/
def Cell.mayEnd (c : Cell) (e : Nat) : Bool :=
  (c.endStatus e).isSome && !c.busy (recordId (c.record e).gen e).toNat none

/-- The completion of a record releases what its contexts wrote (R201, R202). -/
def Race.releaseBy (x : Race) (rid cycle : Nat) : Race :=
  match x.wr with
  | some w => if w.1 = rid ∧ x.wrel = none then { x with wrel := some cycle } else x
  | none => x

/-- The record ends (R335): its channel ends close, its contexts release, its completion fires with its status, and an end
notice goes to the I/O die (R398) (log 21, DEDUCED). -/
def State.endRecord (s : State) (m u e : Nat) : State :=
  let c := s.cell m u
  let r := c.record e
  let rid := recordId r.gen e
  let status := (c.endStatus e).getD .done
  let s := s.closeEnds m u rid
  let cycle := s.cycle
  let s := s.onCell m u fun c =>
    let c := c.clearStrands e
    let c := { c with ends := c.ends + 1, races := c.races.map fun (x : Race) => x.releaseBy rid.toNat cycle }
    c.onRecord e fun r =>
      { r with state := .ended, status := status, endOrder := c.ends, saved := none, ending := none, eligible := none }
  s.send m u 0 ⟨s.chip m, ioUnit⟩ 6 (.endNote 1 r.placement status.code r.phase r.job)

/-- A cancel of entry `e` (R349). -/
def Cell.cancelEntry (c : Cell) (e : Nat) : Cell :=
  let r := c.record e
  match r.state with
  | .bound => c.onRecord e fun r => { r with ending := some (r.ending.getD .cancelled) }
  | .parked => c.onRecord e fun r => { r with ending := some (r.ending.getD .cancelled), saved := none }
  | .running => c.onRecord e fun r => { r with cancelled := true }
  | _ => c

/-- The strand stops at a `loop` or `wait` of its cancelled record; the bound strand takes its siblings with it (R163,
R349). -/
def Cell.stopCancelled (c : Cell) (k : Nat) : Cell :=
  let st := c.strand k
  if st.sibling then (c.endWait (.strand k)).onStrand k fun st => st.retire .idle
  else (c.clearStrands st.entry).onRecord st.entry fun r => { r with ending := some .cancelled }

/-- unbind of an entry that may be freed (R340): a BOUND record is cancelled, then its entry is FREE. -/
def State.unbindEntry (s : State) (m u e : Nat) : State :=
  let r := (s.cell m u).record e
  let s := if r.state = .bound then (s.onCell m u fun c => c.cancelEntry e).endRecord m u e else s
  s.onCell m u fun c =>
    let before := sharedOf ((c.recs.filter fun p => p.2.state != .free).map fun p => p.2.desc)
    (c.onRecord e fun r => { RecEntry.free with gen := r.gen }).setRaces before

/-! ### Killing (R175, R176) -/

/-- The fault entry of a kill (R176). -/
def killWords (a : Addr) (k : Nat) (st : Strand) (cause : BitVec 8) (val : Word) (pc : BitVec 15) : List Word :=
  [BitVec.ofNat 32 (0x01000000 + cause.toNat * 2 ^ 16 + st.recid.toNat),
    BitVec.ofNat 32 (a.chip * 2 ^ 22 + a.unit * 2 ^ 12 + k * 2 ^ 10 + st.tl.toNat * 2 ^ 8),
    BitVec.ofNat 32 ((if st.tl = 2 then st.bank2.cause.toNat else 0) * 2 ^ 24 +
      (if st.tl = 0 then 0 else st.bank1.cause.toNat) * 2 ^ 16 + pc.toNat), val]

/-- A kill of the context that strand `k` runs. A Spire core stops, loses its bit in READY and raises its vector. -/
def State.killStrand (s : State) (m u k : Nat) (cause : BitVec 8) (val : Word) (pc : BitVec 15) : State :=
  let st := s.strand m u k
  if isSpire u then
    let s := s.onStrand m u k fun st => st.retire .stopped
    let n := u - 1024
    let s := s.setReady m 34 n false
    let vec := tget 0 (s.mod m).io.spvec n
    if vec.getLsbD 31 then s.signal m (vec.toNat % 64) else s
  else
    let e := st.entry
    let s := s.onCell m u fun c =>
      (c.postFault k (killWords (s.addr m u) k st cause val pc)).onRecord e fun r =>
        { r with status := .killed, ending := some .killed }
    let s := s.deadEnds m u st.recid
    s.onCell m u fun c => c.clearStrands e

/-! ### Spawn, prio and halt (R164, R343, R350) -/

/-- The lowest-numbered IDLE strand (R343) (log 8, DEDUCED). -/
def Cell.idleStrand (c : Cell) : Option Nat := (List.range 4).find? fun k => c.strandFree k

/-- A sibling of strand `k` starts at `target` with eight scalars from `first` on (R92, R177, R343) (log 24, DEDUCED)
(log 7, DESIGN CHOICE). -/
def Cell.spawn (c : Cell) (cycle k : Nat) (target : BitVec 15) (first : Nat) (args : List Word) : Cell :=
  match c.idleStrand with
  | none => c
  | some j =>
    let st := c.strand k
    let r := c.record st.entry
    let new := Strand.begin r.desc st.recid st.entry (cycle + 2)
    c.setStrand j { new with
      sibling := true
      pc := target
      fpc := st.fpc
      tvec := st.tvec
      s := Vector.ofFn fun i : Fin 64 =>
        if i.val ≠ 0 ∧ first ≤ i.val ∧ i.val < first + 8 then args.getD (i.val - first) 0 else new.s.getD i.val 0
      idleUntil := cycle + 2 }

/-- halt (R164): a sibling becomes idle; the record of a bound strand may end; a Spire core stops (log 21, DEDUCED). -/
def Cell.halt (c : Cell) (k : Nat) : Cell :=
  let st := c.strand k
  if c.spire then c.setStrand k { st with mode := .stopped }
  else if st.sibling then c.onStrand k fun st => st.retire .idle
  else c.setStrand k { st with halted := true }

/-- prio (R350). -/
def Cell.prio (c : Cell) (k cycle : Nat) (x : Word) : Cell :=
  c.onRecord (c.strand k).entry fun r =>
    let p := min (x.toNat % 256) r.desc.ceil
    { r with prioDecl := p, prioEff := p, ageFrom := cycle }

end Sys2Proof.Machine
end

