-- ==== Sys2Proof/Machine/Commands.lean ====
section
/-! DEFINITION. What the command of a committing bundle does, by the unit that takes it, and what a waiting bundle begins
(R70, R163, R172, R342 to R345, R377, R394, R399). -/

namespace Sys2Proof.Machine

/-! ### Control commands -/

/-- The latest due beat of what is in flight. -/
def Strand.rttBeats (st : Strand) : Nat := st.landing.foldl (fun n l => max n l.due) st.beat

/-- rtt (R172): every result in flight lands now, then the level below goes on with the registers as they then stand. -/
def Cell.rtt (c : Cell) (cycle k : Nat) : Cell :=
  let level := (c.strand k).tl.toNat
  let c := c.landUpTo k (c.strand k).rttBeats
  c.onStrand k fun st => st.leaveTrap cycle level

/-- A branch is taken: 2 idle cycles (R77, R161). -/
def Strand.jump (st : Strand) (cycle : Nat) (target : BitVec 15) : Strand :=
  { st with pc := target, idleUntil := cycle + 3 }

/-- `loop` starts an iteration: fetch goes to KER after 2 idle cycles (R342) (log 18, DEDUCED). -/
def Cell.loopStart (c : Cell) (cycle k : Nat) : Cell :=
  let st := c.strand k
  let d := (c.record st.entry).desc
  (c.setStrand k (st.jump cycle d.ker)).onRecord st.entry fun r => r.iterate cycle

/-- `loop` ends the kernel: fetch goes to EPI, with no idle cycle when EPI is the next address (R342) (log 18, DEDUCED). -/
def Cell.loopEnd (c : Cell) (cycle k : Nat) : Cell :=
  let st := c.strand k
  let d := (c.record st.entry).desc
  if st.pc = d.epi then c else c.setStrand k (st.jump cycle d.epi)

/-- unbind (R340): the entry that an id names is freed; a stale id has no effect. -/
def State.unbindId (s : State) (m u : Nat) (id : Word) : State :=
  match (s.cell m u).entryOf (id.setWidth 16) with
  | some e => s.unbindEntry m u e
  | none => s

/-- cancel (R349, R399): of a record of the cell, or a cancel of a unit on its way to the module's I/O die. -/
def State.cancelId (s : State) (m u level : Nat) (id : Word) : State :=
  if level = 0 then
    match (s.cell m u).entryOf (id.setWidth 16) with
    | some e => s.onCell m u fun c => c.cancelEntry e
    | none => s
  else s.send m u 0 ⟨s.chip m, ioUnit⟩ 6 (.cancelNote level (id.toNat % 65536) false)

/-- bind issues (R338): its descriptor is to be read. -/
def Cell.issueBind (c : Cell) (k op : Nat) (addr : Word) (d : Nat) : Cell :=
  let e := (c.strand k).entry
  let c := (c.onStrand k fun st => st.await d op).scbAdd op k [(addr.toNat, 256)] []
  { c with binds := c.binds ++ [⟨op, k, e, addr.toNat, d, none⟩] }

/-- The effect of a control command; `op` is its number. -/
def State.controlCmd (s : State) (m u k op : Nat) (x : Cmd) : State :=
  match x with
  | .bind addr d => s.onCell m u fun c => c.issueBind k op addr d
  | .unbind id => s.unbindId m u id
  | .cancel level id => s.cancelId m u level id
  | .prio x => s.onCell m u fun c => c.prio k s.cycle x
  | .spawn target first args => s.onCell m u fun c => c.spawn s.cycle k target first args
  | .loopStart => s.onCell m u fun c => c.loopStart s.cycle k
  | .loopEnd => s.onCell m u fun c => c.loopEnd s.cycle k
  | .jump target => s.onStrand m u k fun st => st.jump s.cycle target
  | .rtt => s.onCell m u fun c => c.rtt s.cycle k
  | .halt => s.onCell m u fun c => c.halt k
  | .yield => if isSpire u then s else s.onStrand m u k fun st => { st with deficit := 0, yielded := some s.cycle }
  | _ => s

/-! ### Every command -/

/-- The effect of a command of strand `k` whose bundle commits; its number is the count of operations issued. An mmul takes
two numbers, of which the second is its drain's. -/
def applyCmd (s : State) (m u k : Nat) (x : Cmd) : State :=
  let op := s.seq
  match x with
  | .mmul .. => { s with seq := s.seq + 1 }.onCell m u fun c => c.arrayCmd s.cycle k op x
  | .mset .. | .mget .. | .wld .. | .mswap .. | .macc .. | .mdrain .. | .mchain .. | .mchk .. =>
    s.onCell m u fun c => c.arrayCmd s.cycle k op x
  | .mstat n a b t => s.mstatCmd m u k op n a b t
  | .tbinit .. | .tbarr .. | .tbwait .. => s.onCell m u fun c => c.barrierCmd s.cycle k op x
  | .spush .. | .spop .. | .srel .. | .sget .. | .sset .. | .mcast .. | .rctl .. => s.chanCmd m u k op x
  | .qpush _ a b t => s.onCell m u fun c => c.issueQueue k op true a b t
  | .qpop _ a b t => s.onCell m u fun c => c.issueQueue k op false a b t
  | .cset .. | .cget .. | .copy .. | .remote .. | .localOp .. | .tchk .. | .twt .. | .tjoin .. => s.copyCmd m u k op x
  | .bind .. | .unbind .. | .cancel .. | .prio .. | .spawn .. | .loopStart | .loopEnd | .jump .. | .rtt | .halt | .yield =>
    s.controlCmd m u k op x
  | .mfence | .wait | .fence .. => s

/-- A waiting bundle begins the wait of its engine syllable, or that of its `wait`, unless it has (R163, R377, R399). A
timeout runs from the cycle in which the bundle first tried to issue (R394). -/
def beginWait (s : State) (m u k : Nat) (w : BeginWait) : State :=
  let x := (s.strand m u k).waiting
  let begun (limit : Option Nat) : State :=
    s.onStrand m u k fun st => { st with waiting := { st.waiting with engine := some ⟨s.cycle, limit, false, false⟩ } }
  match w with
  | .nothing => s
  | .token t => if x.engine.isSome then s else (begun none).startWatch m u (.strand k) t
  | .timeout n => if x.engine.isSome then s else begun (some (x.first.getD s.cycle + n))
  | .unit level id =>
    if x.unit.isSome then s
    else
      (s.onStrand m u k fun st => { st with waiting := { st.waiting with unit := some ⟨s.cycle, none, false, false⟩ } }).send
        m u k ⟨s.chip m, ioUnit⟩ 6 (.unitQuery level (id.toNat % 65536) k s.cycle)

/-- The strand parks at the `loop` bundle at `pc` (R345) (log 18, DEDUCED). -/
def parkStrand (s : State) (m u k : Nat) (pc : BitVec 15) : State := s.onCell m u fun c => c.park k pc

/-- The strand stops at a `loop` or `wait` of its cancelled record (R163, R349) (log 18, DEDUCED). -/
def stopCancelled (s : State) (m u k : Nat) : State := s.onCell m u fun c => c.stopCancelled k

/-- The context that strand `k` runs is killed (R175). -/
def killStrand (s : State) (m u k : Nat) (cause : BitVec 8) (val : Word) (pc : BitVec 15) : State :=
  s.killStrand m u k cause val pc

end Sys2Proof.Machine
end

