-- ==== Sys2Proof/Machine/Bundle.lean ====
section
/-! DEFINITION. Closing a bundle: its checks, its stalls and its commit, in the order of R434, and taking a trap (R65 to
R72, R83, R84, R168, R169). -/

namespace Sys2Proof.Machine

/-! ### Checks that need no register value (R434, item 1) -/

/-- How many syllables of a class come before a position, with the one at it. -/
def classCount (syls : List Syl) (c : Cls) : Nat := syls.countP fun x => x.cls == c

/-- A scalar, vector or predicate destination, to which R71 applies. -/
def Reg.exclusive : Reg → Bool
  | .s _ => true
  | .v _ => true
  | .q _ => true
  | _ => false

/-- The syllable `y` breaks a rule of R66, R67, R71 or R159 beside the syllables before it (log 16, DEDUCED). -/
def clashes (before : List Syl) (y : Syl) : Bool :=
  let limit := match y.cls with
    | .scalar => 2
    | .memory => 2
    | .vector => 2
    | .engine => 1
    | .control => 1
  classCount before y.cls + 1 > limit ||
    (y.cls == .vector && before.any fun x => x.cls == .vector && x.cluster == y.cluster) ||
    (y.dests.any fun d => d.1.exclusive && before.any fun x => x.dests.contains d) ||
    (y.specials.any fun r => before.any fun x => x.specials.contains r)

/-- The position of the first syllable at which the bundle breaks a rule. -/
def firstClash : List Syl → List Syl → Option Nat
  | _, [] => none
  | before, y :: r => if clashes before y then some before.length else firstClash (before ++ [y]) r

/-- The syllables with their positions. -/
def numbered (syls : List Syl) : List (Nat × Syl) := (List.range syls.length).zip syls

/-- The trap of lowest rank; of equal rank, the first (R72). -/
def pickTrap : List (Nat × TrapReq) → Option (Nat × TrapReq)
  | [] => none
  | t :: r =>
    match pickTrap r with
    | none => some t
    | some t' => if t'.2.rank < t.2.rank then some t' else some t

/-- The trap of the checks that need no register value (log 16, DEDUCED). -/
def staticTrap (syls : List Syl) : Option (Nat × TrapReq) :=
  match firstClash [] syls with
  | some p => some (p, trapReq causeIllegalBundle (BitVec.ofNat 32 p))
  | none => pickTrap ((numbered syls).flatMap fun x => x.2.static.map fun t => (x.1, t))

/-! ### Checks that need register values (R434, item 3) -/

/-- The error that a delivery left at a register, if the syllable reads it (R84), also where a result has landed in the
register since (log 60, DEDUCED). -/
def noteTraps (st : Strand) (y : Syl) : List TrapReq :=
  (st.delivered.filter fun d => y.reads.contains d.reg).flatMap fun d =>
    d.notes.filterMap fun n =>
      match n with
      | .trap op cause val => some (lateTrap op cause val)
      | .concerns ts =>
        match firstErr (st.errs.filter fun e => ts.contains e.token) with
        | some e => some (lateTrap e.op e.cause e.val)
        | none => none
      | _ => none

/-- The earliest issued of the late errors among some traps. -/
def earliestLate : List TrapReq → Option TrapReq
  | [] => none
  | t :: r =>
    match earliestLate r with
    | some x => if t.src = 0 ∨ x.src < t.src then some x else some t
    | none => if t.src = 0 then none else some t

/-- The traps of one syllable: of the late errors that it meets, only the earliest issued is raised (R234, R265). -/
def oneLate (ts : List TrapReq) : List TrapReq :=
  ts.filter fun t => t.src == 0 || earliestLate ts == some t

/-- The trap of the checks that need register values or engine state (log 16, DEDUCED). -/
def dynTrap (st : Strand) (syls : List Syl) : Option (Nat × TrapReq) :=
  pickTrap ((numbered syls).flatMap fun x => (oneLate (noteTraps st x.2 ++ x.2.dyn)).map fun t => (x.1, t))

/-- The memory of the bundle's cell as its stores leave it, M2's before M1's (R69, R70). -/
def storesOf (mem : List Host.Cell) (syls : List Syl) : List Host.Cell :=
  ((syls.filter fun y => y.cls == .memory).reverse.flatMap fun y => y.effects).foldl
    (fun mem e =>
      match e with
      | .store off bytes => memWrite mem off bytes
      | _ => mem) mem

/-- An mchain that has passed its other checks checks the descriptor image that the bundle's stores leave, once no engine
holds the image (R70, R199, R241). -/
def Syl.checkImage (s : State) (b : Bundle) (y : Syl) : Syl :=
  match y.image with
  | none => y
  | some off =>
    let v := View.of s b (.nop true)
    if y.dyn.isEmpty && !v.cell.held .load off 64 then
      { y with dyn := firstTrap (v.chainTraps (nodesOf (memBytes (storesOf v.cell.mem b.syls) off 64))) }
    else y

/-- The bundle reads or names a register that waits for a delivery (R71, R84). -/
def pendingStall (st : Strand) (syls : List Syl) : Bool :=
  syls.any fun y => st.pend.any fun p => y.reads.contains p.reg || y.names.contains p.reg

/-! ### Taking a trap (R168, R169) -/

/-- A late error that is raised now waits no more, at its register or among the strand's errors (R84, R234, R265). -/
def Strand.raiseNotes (st : Strand) (t : TrapReq) : Strand :=
  if t.src = 0 then st
  else
    { st with
      delivered := st.delivered.map fun d => { d with notes := d.notes.filter fun n =>
        match n with
        | .trap op .. => op + 1 != t.src
        | _ => true }
      errs := st.errs.filter fun e => e.op + 1 != t.src }

/-- The bundle at `pc` of a strand traps: it enters the next level, or kills the context at level 2 and on XLAT_MISS
(R168, R175) (log 19, DEDUCED). -/
def takeTrap (s : State) (b : Bundle) (slot : Nat) (t : TrapReq) : State :=
  let st := s.strand b.m b.u b.k
  let s := { s with cur := none, last := .trapped }
  if st.tl = 2 ∨ t.cause = causeXlatMiss then killStrand s b.m b.u b.k t.cause t.val b.pc
  else
    s.onCell b.m b.u fun c =>
      (c.endWait (.strand b.k)).onStrand b.k fun st =>
        (st.raiseNotes t).enterTrap s.cycle b.pc slot t.cause t.val

/-! ### Stalling and committing -/

/-- The cycle in which the strand's next bundle first tried to issue is noted (R394). -/
def Strand.firstTry (st : Strand) (cycle : Nat) : Strand :=
  { st with waiting := { st.waiting with first := some (st.waiting.first.getD cycle) } }

/-- The bundle does not issue in this cycle; it is fetched again when the strand is next chosen (R22, R84). -/
def stallBundle (s : State) (b : Bundle) : State :=
  { s with cur := none, last := .stalled }.onStrand b.m b.u b.k fun st => st.firstTry s.cycle

/-- The effect takes a landing-queue entry (log 15, DEDUCED). -/
def Effect.lands : Effect → Bool
  | .land _ => true
  | .link _ => true
  | _ => false

/-- The effect is a release or an acquire of a fence. -/
def Effect.syncs : Effect → Bool
  | .release => true
  | .acquire => true
  | _ => false

/-- The effect comes of a read, which is made of the state before the bundle (R68, R69). -/
def Effect.reads : Effect → Bool
  | .found .. => true
  | .discRead => true
  | .modRead _ => true
  | _ => false

/-- Every other effect. -/
def Effect.writes (e : Effect) : Bool := !e.lands && !e.syncs && !e.reads

/-- How many landing-queue entries the bundle needs (R83) (log 15, DEDUCED). -/
def landCount (syls : List Syl) : Nat := (syls.flatMap fun y => y.effects).countP Effect.lands

/-- An empty bundle takes the place of one whose results would not fit: a beat with no other effect (R83). -/
def emptyBundle (s : State) (b : Bundle) : State :=
  { s with cur := none, last := .empty }.onStrand b.m b.u b.k fun st =>
    { st.firstTry s.cycle with beat := st.beat + 1 }

/-- The effects of a bundle before those of its control syllable, in the order in which they are applied: landings; a fence
(R196); what the reads of memory bring about, which see it as it stands before the bundle; then the stores of M2 and of M1,
so that M1's bytes stay (R69); then the engine command (R70), also the store of a local operation of class E (R263)
(log 61, DEDUCED). -/
def dataEffects (syls : List Syl) : List Effect :=
  let of (c : Cls) := syls.filter fun y => y.cls == c
  (syls.flatMap fun y => y.effects.filter Effect.lands) ++
    ((of .memory).flatMap fun y => y.effects.filter Effect.syncs) ++
    ((of .memory ++ of .engine).flatMap fun y => y.effects.filter Effect.reads) ++
    ((of .memory).reverse.flatMap fun y => y.effects.filter Effect.writes) ++
    ((of .engine).flatMap fun y => y.effects.filter fun e => e.writes || e.syncs)

/-- The effects of its control syllable, which come after every other (R70). -/
def controlEffects (syls : List Syl) : List Effect :=
  (syls.filter fun y => y.cls == .control).flatMap fun y => y.effects.filter fun e => !e.lands

/-- All of them. -/
def orderedEffects (syls : List Syl) : List Effect := dataEffects syls ++ controlEffects syls

/-- One effect of a committing bundle; `next` is the address after it. -/
def applyEffect (m u k : Nat) (next : BitVec 15) (s : State) (e : Effect) : State :=
  match e with
  | .land l => s.onStrand m u k fun st => { st with landing := st.landing ++ [l] }
  | .link l =>
    s.onStrand m u k fun st => { st with landing := st.landing ++ [{ l with val := .word (next.setWidth 32) }] }
  | .store off bytes => s.onCell m u fun c => c.storeBytes off bytes
  | .raceWrite region =>
    s.onCell m u fun c =>
      let ctx := ((c.strand k).recid.toNat, k)
      { c with races := c.races.map fun r => if r.off = region then { r with wr := some ctx, wrel := none } else r }
  | .discRead => s.onCell m u fun c => c.count fun n => { n with discRead := countUp n.discRead }
  | .found off n => s.found m u off n k (s.strand m u k).recid.toNat 0
  | .modRead off => s.latchCyc m off
  | .modWrite off w => s.queueWrite m off w
  | .release => s.onCell m u fun c => c.release k s.cycle
  | .acquire => s.onCell m u fun c => c.acquire k s.cycle
  | .cmd x => applyCmd { s with seq := s.seq + 1 } m u k x

/-- A delivery put in its place among others, the earliest issued first. -/
def insertDelivered (d : Delivered) : List Delivered → List Delivered
  | [] => [d]
  | x :: r => if d.op < x.op then d :: x :: r else x :: insertDelivered d r

/-- What the deliveries of registers that the bundle reads have left, in the order in which their operations issued
(log 33, DEDUCED). -/
def Strand.notesOf (st : Strand) (reads : List Nat) : List Delivered :=
  (st.delivered.filter fun d => reads.contains d.reg).foldr insertDelivered []

/-- One note takes effect at the bundle of beat `beat` that reads its register: a taint (R430); or the packet of an spop,
whose SEQ the channel shows from then on (R288) and the strand's next packet takes where it came from the record's trigger
channel (R276) (log 33, DEDUCED). -/
def Cell.takeNote (k beat op : Nat) (c : Cell) (n : Note) : Cell :=
  match n with
  | .taint g => c.onStrand k fun st => { { st with beat := beat }.taintWith g op with beat := st.beat }
  | .popped chan seq own =>
    let c := { c with ins := tput c.ins chan { tget InChan.reset c.ins chan with seq := seq } }
    if own then c.onStrand k fun st => { st with lastSeq := some seq } else c
  | _ => c

/-- All of them do. -/
def Cell.takeNotes (c : Cell) (k beat : Nat) (ds : List Delivered) : Cell :=
  ds.foldl (fun c d => d.notes.foldl (Cell.takeNote k beat d.op) c) c

/-- The bundle issues: its beat is counted, its registers are read, and its effects take place (R68 to R70). What the
deliveries left at the registers read changes after the engine command, which sees the state before the bundle. -/
def commitBundle (s : State) (b : Bundle) : State :=
  let next := b.pc + BitVec.ofNat 15 b.syls.length
  let reads := b.syls.flatMap fun y => y.reads
  let st := s.strand b.m b.u b.k
  let notes := st.notesOf reads
  let s := { s with cur := none, last := .issued, seq := s.seq + 1 }
  let s := s.onCell b.m b.u fun c => c.endWait (.strand b.k)
  let s := s.onStrand b.m b.u b.k fun st =>
    { st with
      delivered := st.delivered.filter fun d => !reads.contains d.reg
      beat := st.beat + 1
      pc := next
      waiting := .none }
  let s := (dataEffects b.syls).foldl (applyEffect b.m b.u b.k next) s
  let s := if notes.isEmpty then s else s.onCell b.m b.u fun c => c.takeNotes b.k st.beat notes
  (controlEffects b.syls).foldl (applyEffect b.m b.u b.k next) s

/-- A wait on an out-channel's FBC or for a need sets PBLK, a wait of `loop` on an empty trigger PSTV of the record's
out-channels (R275); a push that waits counts in BLK (R404). A strand that waits for FBC or a need freezes its controllers,
but not while its `loop` waits on an empty trigger, too (R296) (log 33, DEDUCED). -/
def markWaits (s : State) (b : Bundle) : State :=
  let outs := b.syls.flatMap fun y => y.fbcWait
  let pushes := (b.syls.filter fun y => y.cls == .engine).flatMap fun y => y.fbcWait
  let starved := b.syls.any fun y => y.starved
  if outs.isEmpty && !starved then s
  else
    s.onCell b.m b.u fun c =>
      let rid := (c.strand b.k).recid
      let c := { c with outs := c.outs.map fun p => (p.1,
        { (if pushes.contains p.1 then p.2.countBlk s.cycle else p.2) with
          pblk := p.2.pblk || outs.contains p.1
          pstv := p.2.pstv || (starved && p.2.owner == rid) }) }
      if b.syls.any fun y => !y.fbcWait.isEmpty && !y.starved then
        c.onStrand b.k fun st => { st with fbcWait := some s.cycle }
      else c

/-- The bundle waits for a resource: its wait begins if it has not begun (R434, item 4). -/
def waitBundle (s : State) (b : Bundle) : State :=
  let s := markWaits s b
  let begins := (b.syls.filter fun y => y.begins != .nothing).map fun y => y.begins
  stallBundle (begins.foldl (fun s w => beginWait s b.m b.u b.k w) s) b

/-- The case of R342 of the bundle's `loop`, if it holds one (log 18, DEDUCED). -/
def loopCaseOf (syls : List Syl) : LoopCase :=
  match syls.find? fun y => y.loop != .none with
  | some y => y.loop
  | none => .none

/-- The bundle resolves: static traps, then pending registers, then the traps that need values, then its waits, then the
landing queue's room, then its effects (R434, R342, R83) (log 55, DESIGN CHOICE). -/
def closeBundle (s : State) (b : Bundle) : State :=
  let st := s.strand b.m b.u b.k
  match staticTrap b.syls with
  | some (p, t) => takeTrap s b p t
  | none =>
    if pendingStall st b.syls then stallBundle s b
    else if loopCaseOf b.syls = .stop then stopCancelled { s with cur := none, last := .stopped } b.m b.u b.k
    else
      match dynTrap st (b.syls.map fun y => y.checkImage s b) with
      | some (p, t) => takeTrap s b p t
      | none =>
        if loopCaseOf b.syls = .park then parkStrand { s with cur := none, last := .parked } b.m b.u b.k b.pc
        else if loopCaseOf b.syls = .wait ∨ b.syls.any (fun y => y.blocked) then waitBundle s b
        else if 32 < st.landing.length + landCount b.syls then emptyBundle s b
        else commitBundle s b

/-- A bundle with no last syllable among its first eight, or that would run past address 32,767 (R65). No syllable of it
traps, and TSTAT.SLOT is 0 (log 16, DEDUCED). -/
def frameFailure (s : State) (b : Bundle) : State := takeTrap s b 0 (trapReq causeIllegalBundle 8)

/-- A syllable joins the open bundle, and its E bit closes the bundle (log 55, DESIGN CHOICE). -/
def pushSyl (s : State) (b : Bundle) (e : Bool) (y : Syl) : State :=
  let b := { b with syls := b.syls ++ [y] }
  if e then closeBundle s b
  else if 8 ≤ b.syls.length ∨ 32768 ≤ b.pc.toNat + b.syls.length then frameFailure s b
  else { s with cur := some b }

/-- A syllable of the open bundle, evaluated by `f` on what its strand holds (log 54, DESIGN CHOICE). -/
def runSyl (s : State) (i : Instr) (e : Bool) (f : View → Syl) : Out :=
  match s.cur with
  | none => .refused .noOpenBundle
  | some b => .next (pushSyl s b e (f (View.of s b i)))

end Sys2Proof.Machine
end

