-- ==== Sys2Proof/Machine/Barriers.lean ====
section
/-! DEFINITION. The transaction barrier instructions: tbinit, tbarr and tbwait (R391 to R394). -/

namespace Sys2Proof.Machine

/-- DECL of a barrier that the record may not name (R391). -/
def View.declTb (v : View) (n : BitVec 5) : List TrapReq :=
  if v.rcd.desc.tbars ≤ n.toNat then [trapReq causeDecl (n.setWidth 32)] else []

/-- tbinit (R392): arming an ARMED barrier without reset is ENGINE_ERR. -/
def execTbinit (e : Bool) (a b : BitVec 6) (n : BitVec 5) (t : BitVec 6) (s : State) : Out :=
  runSyl s (.tbinit e a b n t) e fun v =>
    let y := engineSyl v false [a, b] t
    { y with
      static := y.static ++ v.declTb n
      dyn := if (v.rs a).getLsbD 31 = false ∧ (v.cell.tbar n.toNat).state = .armed then [engineErr 6 1 n.toNat] else []
      blocked := v.scbFull 1
      effects := [.cmd (.tbinit n.toNat (v.rs a) (v.rs b) (v.pt t))] }

/-- tbarr (R393): a release. -/
def execTbarr (e : Bool) (a : BitVec 6) (n : BitVec 5) (t : BitVec 6) (s : State) : Out :=
  runSyl s (.tbarr e a n t) e fun v =>
    let y := engineSyl v false [a] t
    { y with
      static := y.static ++ v.declTb n
      blocked := v.scbFull 1
      effects := [.release, .cmd (.tbarr n.toNat (v.rs a) (v.pt t))] }

/-- tbwait (R394): an acquire. -/
def execTbwait (e : Bool) (a b : BitVec 6) (n : BitVec 5) (t : BitVec 6) (s : State) : Out :=
  runSyl s (.tbwait e a b n t) e fun v =>
    let y := engineSyl v false [a, b] t
    let x := v.cell.tbar n.toNat
    let limit := (v.rs b).toNat % 2 ^ 16 * 256
    { y with
      static := y.static ++ v.declTb n
      blocked := !(tbReady x (v.rs a)) && !(v.st.waiting.engine.any fun w => w.failed) &&
        (limit = 0 || v.st.waiting.first.all fun c => decide (v.s.cycle < c + limit))
      begins := if limit = 0 then .nothing else .timeout limit
      effects := [.acquire, .cmd (.tbwait n.toNat (v.rs a) (v.rs b) (v.pt t))] }

/-- TBWAIT_TIMEOUT of strand `focus.j` (R394): the bundle waits no longer. -/
def execTbwaitTimeout (s : State) : Out :=
  let f := s.focus
  let due := (s.strand f.m f.u f.j).waiting.engine.any fun w => !w.failed && (match w.limit with
    | some n => decide (n ≤ s.cycle)
    | none => false)
  if due then
    .next (s.onStrand f.m f.u f.j fun st =>
      { st with waiting := { st.waiting with engine := st.waiting.engine.map fun w => { w with failed := true } } })
  else .refused (.eventNotDue "TBWAIT_TIMEOUT")

end Sys2Proof.Machine
end

