-- ==== Sys2Proof/Machine/Keccak.lean ====
section
/-! DEFINITION. SHAKE256 with a 64-byte output, which R416 to R423 name and do not define: the sponge of FIPS 202 over its
permutation of 1,600 bits, rate 136 bytes, suffix 0x1F (log 13, PRESUMED). The two tables of the permutation are computed as
the standard derives them. -/

namespace Sys2Proof.Machine

/-- Five lanes of one x, by y; a state is five sheets, by x. -/
abbrev Sheet := List (BitVec 64)

/-- A state from its lanes, and its lane at coordinates taken modulo 5. -/
def sheetsOf (f : Nat → Nat → BitVec 64) : List Sheet :=
  [0, 1, 2, 3, 4].map fun x => [0, 1, 2, 3, 4].map fun y => f x y

def laneOf (a : List Sheet) (x y : Nat) : BitVec 64 := (a.getD (x % 5) []).getD (y % 5) 0

/-- The first `n` output bits of the shift register with feedback 1 + x^4 + x^5 + x^6 + x^8, from contents `r`. -/
def registerBits : Nat → Nat → List Bool
  | 0, _ => []
  | n + 1, r => (r % 2 == 1) :: registerBits n (if r < 128 then 2 * r else 2 * r ^^^ 0x171)

/-- What each of the 24 rounds adds to lane (0, 0): bit 2^j - 1 is bit j of the round's seven register bits. -/
def roundWords : List (BitVec 64) :=
  let bits := registerBits 168 1
  (List.range 24).map fun i =>
    (List.range 7).foldl (fun w j => if bits.getD (7 * i + j) false then w ||| BitVec.ofNat 64 (2 ^ (2 ^ j - 1)) else w) 0

/-- The lanes in the order in which the standard turns them, from (x, y) on: (y, 2x + 3y) follows (x, y). -/
def turnOrder : Nat → Nat → Nat → List (Nat × Nat)
  | 0, _, _ => []
  | n + 1, x, y => (x, y) :: turnOrder n y ((2 * x + 3 * y) % 5)

/-- By how many bits each lane turns: the t-th of that order by a triangular number; lane (0, 0) by none. -/
def turns : List (List Nat) :=
  let order := turnOrder 24 1 0
  [0, 1, 2, 3, 4].map fun x => [0, 1, 2, 3, 4].map fun y =>
    let t := order.idxOf (x, y) + 1
    if x = 0 ∧ y = 0 then 0 else t * (t + 1) / 2 % 64

/-- The steps of a round: column parities, the turned and moved lanes, the nonlinear rows. -/
def mixColumns (a : List Sheet) : List Sheet :=
  let parity := a.map fun s => s.foldl BitVec.xor 0
  sheetsOf fun x y => laneOf a x y ^^^ parity.getD ((x + 4) % 5) 0 ^^^ (parity.getD ((x + 1) % 5) 0).rotateLeft 1

def moveLanes (a : List Sheet) : List Sheet :=
  sheetsOf fun x y =>
    let x' := (x + 3 * y) % 5
    (laneOf a x' x).rotateLeft ((turns.getD x' []).getD x 0)

def mixRows (a : List Sheet) : List Sheet :=
  sheetsOf fun x y => laneOf a x y ^^^ (laneOf a (x + 2) y &&& ~~~laneOf a (x + 1) y)

/-- The permutation. -/
def permute (a : List Sheet) : List Sheet :=
  roundWords.foldl
    (fun a w =>
      let b := mixRows (moveLanes (mixColumns a))
      sheetsOf fun x y => if x = 0 ∧ y = 0 then laneOf b 0 0 ^^^ w else laneOf b x y) a

/-- A state with a block of 136 bytes added to its first 17 lanes, and permuted. -/
def absorb (a : List Sheet) (block : List Byte) : List Sheet :=
  permute (sheetsOf fun x y => laneOf a x y ^^^ BitVec.ofNat 64 (leNat ((block.drop (8 * (x + 5 * y))).take 8)))

/-- The message with the suffix 0x1F and the last bit of the padding, in whole blocks. -/
def padded (bytes : List Byte) : List Byte :=
  let n := 136 - bytes.length % 136
  bytes ++ (if n = 1 then [0x9F] else [0x1F] ++ List.replicate (n - 2) 0 ++ [0x80])

/-- SHAKE256 of a message, 64 bytes (log 13, PRESUMED). -/
def shake256 (bytes : List Byte) : List Byte :=
  let p := padded bytes
  let a := (List.range (p.length / 136)).foldl (fun a i => absorb a ((p.drop (136 * i)).take 136)) (sheetsOf fun _ _ => 0)
  (List.range 8).flatMap fun i => leBytes 8 (laneOf a (i % 5) (i / 5)).toNat

end Sys2Proof.Machine
end

