-- ==== Sys2Proof/Machine/Coupling.lean ====
section
/-! DEFINITION. Placement images and their sections, and the stability rules that are checked over a whole placement (R301,
R339, R420). -/

namespace Sys2Proof.Machine

/-! ### The image (R420) -/

/-- A section: KIND, the chip and cell that it is for, its second word, its data, and its bytes with their header. -/
structure Section' where
  kind : Nat
  at' : Addr
  off : Nat
  data : List Byte
  raw : List Byte
deriving DecidableEq, Repr

/-- The sections of a run of bytes, at most `n`. -/
def sectionsOf : Nat → List Byte → List Section'
  | 0, _ => []
  | n + 1, bytes =>
    let ws := wordsOf (bytes.take 16)
    let w (i : Nat) : Nat := (ws.getD i 0).toNat
    let len := w 2
    ⟨w 0 / 2 ^ 24, ⟨w 0 / 2 ^ 14 % 1024, w 0 / 2 ^ 4 % 1024⟩, w 1 % 2 ^ 23, (bytes.drop 16).take len, bytes.take (16 + len)⟩ ::
      sectionsOf n (bytes.drop (16 + len))

/-- The header of an image. -/
def imageWord (image : List Byte) (i : Nat) : Nat := leNat ((image.drop (4 * i)).take 4)
def imagePlacement (image : List Byte) : Nat := imageWord image 1 % 2 ^ 16
def imageHome (image : List Byte) : Nat := imageWord image 2 / 2 ^ 22
def imageMods (image : List Byte) : Nat := imageWord image 2 % 2 ^ 10
def imageSections (image : List Byte) : List Section' := sectionsOf (min (imageWord image 3) image.length) (image.drop 128)

def isPlacementImage (image : List Byte) : Bool := imageWord image 0 == 0x47583750

/-- The digest of all sections does not match, or a KIND is reserved (log 49, DEDUCED). -/
def imageBad (image : List Byte) : Bool :=
  let ss := imageSections image
  (image.drop 0x40).take 64 != shake256 (ss.flatMap fun x => x.raw) || ss.any fun x => x.kind == 0 || decide (9 < x.kind)

/-! ### The stability rules over a whole image (R301, R339) -/

/-- The descriptors of a section, with its node (log 49, DEDUCED). -/
def Section'.descs (x : Section') : List (Addr × List Byte) :=
  if x.kind = 5 then (List.range (x.data.length / 256)).map fun i => (x.at', (x.data.drop (256 * i)).take 256) else []

/-- The last word that the image writes to a channel field: its offset is that of R272. -/
def imageField (ss : List Section') (a : Addr) (off : Nat) : Word :=
  match (ss.filter fun x => x.kind == 6 && x.at' == a && inside off 4 x.off x.data.length).getLast? with
  | some x => BitVec.ofNat 32 (leNat ((x.data.drop (off - x.off)).take 4))
  | none => 0

/-- A coupling: the producer's and the consumer's record by their place in the list, GP, and the in-channel with its node. The
host, or a record that is not in the list, is no producer here, and its channel counts among those of the consumer. -/
structure Coupling where
  src : Option Nat
  dst : Nat
  gp : Nat
  node : Nat
  chan : Nat
deriving DecidableEq, Repr

/-- 2^(15 - GP). -/
def Coupling.gain (e : Coupling) : Nat := 2 ^ (15 - e.gp)

/-- The enabled couplings of some records; `field` gives the word of an in-channel's field, by its offset from 0x70_0000
(log 25, DEDUCED). -/
def couplings (recs : List (Addr × Desc)) (field : Addr → Nat → Word) : List Coupling :=
  recs.zipIdx.flatMap fun r =>
    (maskOf r.1.2.inmask).flatMap fun n =>
      let rate := field r.1.1 (0x1000 + 128 * n + 32)
      let peer := field r.1.1 (0x1000 + 128 * n + 16)
      let srcs := if peerIsHost peer then []
        else recs.zipIdx.filter fun q => q.1.1 == (peerAddr peer).1 && q.1.2.outmask.getLsbD (peerAddr peer).2
      let edge (src : Option Nat) : Coupling := ⟨src, r.2, rate.toNat / 2 ^ 16 % 16, r.1.1.chip * 1024 + r.1.1.unit, n⟩
      if !rate.getLsbD 31 then [] else if srcs.isEmpty then [edge none] else srcs.map fun q => edge (some q.2)

/-- The couplings of every directed cycle through record `start` whose gains add up to more than 1/2 (rule 4). -/
def hotCycles (edges : List Coupling) : Nat → Nat → Nat → List Nat → List Coupling → List Coupling
  | 0, _, _, _, _ => []
  | fuel + 1, start, cur, seen, path =>
    (edges.filter fun e => e.src == some cur).flatMap fun e =>
      let path := e :: path
      if e.dst = start then (if 2 ^ 14 < path.foldl (fun n e => n + e.gain) 0 then path else [])
      else if seen.contains e.dst then []
      else hotCycles edges fuel start e.dst (e.dst :: seen) path

/-- The couplings whose gain is too great for the number of couplings of one of their two records (rule 3)
(log 25, DEDUCED). -/
def crowded (edges : List Coupling) : List Coupling :=
  edges.filter fun e => (e.dst :: e.src.toList).any fun r =>
    e.gp < 1 + ceilLog2 (edges.foldl (fun n x => n + (x.src == some r).toNat + (x.dst == r).toNat) 0)

/-- The detail of a violation of rule 3 or 4: the lowest in-channel on the lowest node of the couplings that break it
(log 25, DEDUCED). -/
def unstableChan (edges : List Coupling) : Option Nat :=
  let bad := crowded edges ++ edges.flatMap fun e => e.src.toList.flatMap fun r => hotCycles edges edges.length r r [r] []
  (bad.foldl (fun (best : Option Coupling) e =>
    match best with
    | none => some e
    | some b => if e.node < b.node ∨ e.node = b.node ∧ e.chan < b.chan then some e else some b) none).map fun e => e.chan

/-- The records of an image with their descriptors. -/
def imageRecords (ss : List Section') : List (Addr × Desc) :=
  (ss.flatMap fun x => x.descs).map fun p => (p.1, descOf p.2)

/-- The check of a placement image before its first bind (R339). -/
def imageUnstable (ss : List Section') : Option Nat :=
  unstableChan (couplings (imageRecords ss) fun a off => imageField ss a (0x700000 + off))

/-- The latest placement image that the module has received with a section for a cell. -/
def State.imageOf (s : State) (m u : Nat) : Option (List Section') :=
  ((s.mod m).io.images.map imageSections).find? fun ss => ss.any fun x => x.at' == s.addr m u

/-- The check of a descriptor that a Spire core binds later, together with the image of the placement (R339). It takes the
place of the image's records whose channels it names, and its in-channels have the fields that they hold now; the placement is
that of the latest image with a section for the cell (log 25, DEDUCED). -/
def State.lateUnstable (s : State) (m u : Nat) (d : Desc) : Option Nat :=
  match s.imageOf m u with
  | none => none
  | some ss =>
    let here := s.addr m u
    let others := (imageRecords ss).filter fun r =>
      r.1 != here || (r.2.inmask &&& d.inmask == 0 && r.2.outmask &&& d.outmask == 0)
    unstableChan (couplings (others ++ [(here, d)]) fun a off =>
      let n := off % 0x800 / 128
      if a = here ∧ d.inmask.getLsbD n = true then (((s.cell m u).inCh n).field (off % 128 / 4)).getD 0
      else imageField ss a (0x700000 + off))

end Sys2Proof.Machine
end

