-- ==== Sys2Proof/Machine/Special.lean ====
section
/-! DEFINITION. The special registers: mfs, mts, mfc, mtc (R153 to R159), the identity word (R160) and rdcyc (R403). -/

namespace Sys2Proof.Machine

/-- STAT as a word (R155). -/
def Strand.stat (st : Strand) (k : Nat) (spire : Bool) : Word :=
  BitVec.ofNat 32 (st.etag.toNat * 2 ^ 16 + k * 2 ^ 6 + spire.toNat * 2 ^ 5 + st.preq.toNat * 2 ^ 4 +
    st.sdctrap.toNat * 2 + st.taint.toNat)

/-- TSTATn as a word (R156). -/
def TrapBank.tstat (b : TrapBank) : Word :=
  BitVec.ofNat 32 (b.replay.length * 2 ^ 8 + b.adv.toNat * 2 ^ 7 + b.taint.toNat * 2 ^ 6 + b.slot.toNat * 2 ^ 3 +
    b.rrb.toNat)

/-- A banked register by its place in the bank (R154). -/
def TrapBank.read (b : TrapBank) (n : Nat) : Word :=
  match n with
  | 0 => b.cause.setWidth 32
  | 1 => b.pc.setWidth 32
  | 2 => b.val
  | 3 => b.tstat
  | _ => b.save

/-- A strand special register as it stands at issue, by its number of R153 (log 7, DESIGN CHOICE). -/
def View.readSp (v : View) (n : Nat) : Word :=
  match n with
  | 0 => v.st.lc
  | 1 => v.st.rrb.setWidth 32
  | 2 => v.st.fpc.setWidth 32
  | 3 => v.st.fpf.setWidth 32
  | 4 => v.st.ltok
  | 5 => v.st.iter
  | 6 => v.st.recid.setWidth 32
  | 7 => if v.spire then 0 else
      BitVec.ofNat 32 (v.rcd.desc.ceil * 2 ^ 16 + v.rcd.prioDecl * 2 ^ 8 + v.rcd.prioEff)
  | 8 => if v.spire then 0 else
      BitVec.ofNat 32 (v.rcd.desc.weight * 2 ^ 16 + v.s.weightEff v.b.m v.b.u v.b.k)
  | 9 => v.st.tl.setWidth 32
  | 10 => v.st.stat v.b.k v.spire
  | _ => v.st.spill

/-- A privileged special register as it stands at issue, by its number of R154; XDATA through the strand's XIDX. -/
def View.readPr (v : View) (n : Nat) : Word :=
  if n = 0 then BitVec.ofNat 32 (v.st.tvec.toNat * 64)
  else if n ≤ 5 then v.st.bank1.read (n - 1)
  else if n ≤ 10 then v.st.bank2.read (n - 6)
  else if n = 11 then BitVec.ofNat 32 (v.st.xword.toNat * 256 + v.st.xidx.toNat)
  else if n = 12 then (v.cell.xentry v.st.xidx.toNat).word v.st.xword.toNat
  else v.cell.tokexp

/-- The bits of a strand special register that are not reserved (R155). -/
def spMask (n : Nat) : Word :=
  match n with
  | 1 => 0x7
  | 2 => 0xF
  | 3 => 0x1F
  | 10 => 0x00FF00F3
  | _ => 0xFFFFFFFF

/-- The same of a privileged register (R156). -/
def prMask (n : Nat) : Word :=
  match n with
  | 0 => 0x7FC0
  | 1 => 0xFF
  | 2 => 0x7FFF
  | 4 => 0x3FFF
  | 6 => 0xFF
  | 7 => 0x7FFF
  | 9 => 0x3FFF
  | 11 => 0x3FF
  | _ => 0xFFFFFFFF

/-- The aperture of a frame for a unit (R355): 0 its own cell, 1 its die, 2 its module, 3 another chip
(log 58, DESIGN CHOICE). -/
def frameAperture (chip u : Nat) (frame : Word) : Nat :=
  let fchip := frame.toNat / 2 ^ 22
  let fcell := frame.toNat / 2 ^ 12 % 2 ^ 10
  if fchip ≠ chip then 3
  else if isSpire u then 2
  else if fcell = u then 0
  else if fcell / 256 = u / 256 then 1
  else 2

/-- The bits of a translation-entry word that are not reserved (R354). -/
def xMask (w : Nat) : Word := if w = 0 then 0xDFE00000 else if w = 1 then 0xFFFFFFFF else 0xFFFFF07F

/-- A write of a translation-set word is refused (R355); `strand` is whether it comes from a cell strand. -/
def XEntry.refuses (x : XEntry) (chip u w : Nat) (val : Word) (strand : Bool) : Bool :=
  let y := x.write w val
  (val &&& ~~~(xMask w)) != 0 ||
    (y.valid && (y.flags.toNat / 2 ^ 27 % 4) != frameAperture chip u y.frame) ||
    (strand && y.flags.getLsbD 30 != x.flags.getLsbD 30)

/-- mfs (R157). -/
def execMfs (e : Bool) (d : BitVec 6) (n : BitVec 11) (s : State) : Out :=
  runSyl s (.mfs e d n) e fun v =>
    let p := v.ps d
    { v.syl .scalar true with
      dests := [(.s p, 2)]
      names := [p]
      static := v.illegal true ++ v.declS [d]
      effects := [.land (v.landing (.s p) (.word (v.readSp n.toNat)) 2)] }

/-- mts (R157, R158): a nonzero reserved bit raises ILLEGAL_OP. A number that names no register writes none (R159). -/
def execMts (e : Bool) (a : BitVec 6) (n : BitVec 11) (s : State) : Out :=
  runSyl s (.mts e a n) e fun v =>
    { v.syl .scalar true with
      dests := [(.sp n.toNat, 1)]
      specials := specialOf n.toNat
      reads := [v.ps a]
      static := v.illegal true ++ v.declS [a]
      dyn := v.illegalIf ((v.rs a &&& ~~~(spMask n.toNat)) != 0)
      effects := [.land (v.landing (.sp n.toNat) (.word (v.rs a)) 1)] }

/-- mfc (R157, R158). -/
def execMfc (e : Bool) (d : BitVec 6) (n : BitVec 11) (s : State) : Out :=
  runSyl s (.mfc e d n) e fun v =>
    let p := v.ps d
    { v.syl .control true with
      dests := [(.s p, 2)]
      names := [p]
      static := v.illegal true ++ v.privileged ++ v.declS [d]
      effects := [.land (v.landing (.s p) (.word (v.readPr n.toNat)) 2)] }

/-- mtc (R157, R158, R355): reserved bits, XIDX.WORD 3, TOKEXP below 0x0001_0000 and a refused XDATA write raise
ILLEGAL_OP. -/
def execMtc (e : Bool) (a : BitVec 6) (n : BitVec 11) (s : State) : Out :=
  runSyl s (.mtc e a n) e fun v =>
    let x := v.rs a
    let k := n.toNat
    let i := v.st.xidx.toNat
    let w := v.st.xword.toNat
    let reg : Reg := if k = 12 then .xd i w else .pr k
    let bad := (x &&& ~~~(prMask k)) != 0 || (k == 11 && x.toNat / 256 % 4 == 3) ||
      (k == 13 && x.toNat < 0x10000) ||
      (k == 12 && (v.cell.xentry i).refuses (v.s.chip v.b.m) v.b.u w x (!v.spire))
    { v.syl .control true with
      dests := [(reg, 1)]
      specials := [reg]
      reads := [v.ps a]
      static := v.illegal true ++ v.privileged ++ v.declS [a]
      dyn := v.illegalIf bad
      effects := [.land (v.landing reg (.word x) 1)] }

/-- The identity word that `n` selects (R160). -/
def identity (chip u k n : Nat) : Word :=
  let spire := isSpire u
  match n with
  | 0 =>
    if spire then BitVec.ofNat 32 (chip * 2 ^ 22 + (0x80 + (u - 1024)) * 2 ^ 12)
    else BitVec.ofNat 32 (chip * 2 ^ 22 + u * 2 ^ 12 + k * 2 ^ 10)
  | 1 => BitVec.ofNat 32 chip
  | 2 => if spire then 4 else BitVec.ofNat 32 (dieOf u)
  | 3 => if spire then BitVec.ofNat 32 (u - 1024) else BitVec.ofNat 32 (cellOf u)
  | 4 => BitVec.ofNat 32 k
  | _ => 0x00010000

/-- rdid (R160). -/
def execRdid (e : Bool) (d : BitVec 6) (n : BitVec 11) (s : State) : Out :=
  runSyl s (.rdid e d n) e fun v =>
    let p := v.ps d
    { v.syl .scalar true with
      dests := [(.s p, 1)]
      names := [p]
      static := v.illegal true ++ v.declS [d]
      effects := [.land (v.landing (.s p) (.word (identity (v.s.chip v.b.m) v.b.u v.b.k n.toNat)) 1)] }

/-- rdcyc: CYC[31:0] of the module (R403). -/
def execRdcyc (e : Bool) (d : BitVec 6) (s : State) : Out :=
  runSyl s (.rdcyc e d) e fun v =>
    let p := v.ps d
    { v.syl .scalar true with
      dests := [(.s p, 1)]
      names := [p]
      static := v.illegal true ++ v.declS [d]
      effects := [.land (v.landing (.s p) (.word ((v.s.cyc v.b.m).setWidth 32)) 1)] }

end Sys2Proof.Machine
end

