-- ==== Sys2Proof/Machine/CellRegs.lean ====
section
/-! DEFINITION. The cell control registers at cell offsets from 0x70_0000 on, which Spire cores reach through their copy
engines: what each word reads and what a write of it does (R248, R272, R331, R334, R339, R348, R353 to R356, R361, R369,
R382, R383, R388, R396, R400, R426). -/

namespace Sys2Proof.Machine

/-! ### What the words read -/

def RecState.code (x : RecState) : Nat :=
  match x with
  | .free => 0
  | .bound => 1
  | .running => 2
  | .parked => 3
  | .ended => 4

/-- A word of a record cache entry (R334, R396). -/
def RecEntry.word (r : RecEntry) (w : Nat) : Word :=
  match w with
  | 0 => BitVec.ofNat 32 (r.gen.toNat * 2 ^ 20 + r.state.code * 2 ^ 13 + r.strand * 2 ^ 11 + r.status.code * 2 ^ 8)
  | 1 => BitVec.ofNat 32 r.placement
  | 2 => BitVec.ofNat 32 (r.job * 2 ^ 16 + r.phase)
  | _ => 0

def TokState.code (x : TokState) : Nat :=
  match x with
  | .free => 0
  | .pending => 1
  | .landed => 2
  | .landedErr => 3
  | .join => 4

/-- A watcher slot as a word (R361). -/
def slotWord (x : Option Slot) : Word :=
  match x with
  | some w => BitVec.ofNat 32 (nodeBits (nodeAddr w.node) * 2 ^ 12 + (if w.watching then 2 else 1))
  | none => 0

/-- A word of a token-table entry (R361). -/
def TokEntry.word (e : TokEntry) (w : Nat) : Word :=
  match w with
  | 0 => BitVec.ofNat 32 (e.state.code * 2 ^ 29 + e.gen.toNat * 2 ^ 24 + e.recid)
  | 1 => BitVec.ofNat 32 e.count
  | 2 => e.err
  | 3 => e.ina
  | 4 => e.inb
  | 9 => e.carry
  | w => if 5 ≤ w ∧ w ≤ 8 then slotWord (e.slots.getD (w - 5) none) else 0

/-- A word of a hold-queue entry in a given cycle (R369). -/
def HoldEntry.word (e : HoldEntry) (cycle w : Nat) : Word :=
  match w with
  | 0 => BitVec.ofNat 32 ((if e.ready.isSome then 2 else 1) * 2 ^ 30 + e.req.ordered.toNat * 2 ^ 29 + nodeBits e.src)
  | 1 => e.req.carry
  | 2 => BitVec.ofNat 32 (min 0xFFFFFFFF (cycle - e.since))
  | 3 => BitVec.ofNat 32 e.req.off
  | 4 => e.req.token
  | _ => 0

def Cell.holdWord (c : Cell) (cycle j w : Nat) : Word :=
  match c.hold.find? fun p => p.1 == j with
  | some p => p.2.word cycle w
  | none => 0

def TbState.code (x : TbState) : Nat :=
  match x with
  | .idle => 0
  | .armed => 1
  | .done => 2

/-- A word of a transaction barrier (R388). -/
def Tbar.reg (x : Tbar) (w : Nat) : Word :=
  match w with
  | 0 => BitVec.ofNat 32 (x.exparr * 2 ^ 16 + x.arr)
  | 1 => BitVec.ofNat 32 (x.phase.toNat * 2 ^ 24 + x.expsec)
  | 2 => BitVec.ofNat 32 (x.state.code * 2 ^ 30 + x.sec)
  | _ => x.donecyc

/-- A barrier with one of its words written; a STATE of 3, which does not occur, leaves it as it is
(log 40, DESIGN CHOICE). -/
def Tbar.putReg (x : Tbar) (w : Nat) (v : Word) : Tbar :=
  match w with
  | 0 => { x with exparr := v.toNat / 2 ^ 16, arr := v.toNat % 2 ^ 16 }
  | 1 => { x with phase := BitVec.ofNat 8 (v.toNat / 2 ^ 24), expsec := v.toNat % 2 ^ 24 }
  | 2 =>
    match v.toNat / 2 ^ 30 with
    | 0 => { x with state := .idle, sec := v.toNat % 2 ^ 24 }
    | 1 => { x with state := .armed, sec := v.toNat % 2 ^ 24 }
    | 2 => { x with state := .done, sec := v.toNat % 2 ^ 24 }
    | _ => x
  | _ => { x with donecyc := v }

/-- Spares of a bank in use: their number (R426). -/
def Cell.spares (c : Cell) (store bank : Nat) (col : Bool) : Nat :=
  c.remaps.countP fun x => x.store == store && x.bank == bank && x.col == col

/-- The fields of REPCMD (R426): store, bank, and the row or column. -/
def repairStore (cmd : Word) : Nat := if cmd.getLsbD 29 then 1 else 0
def repairBank (cmd : Word) : Nat := cmd.toNat / 2 ^ 17 % 64
def repairLine (cmd : Word) : Nat := if cmd.getLsbD 30 then cmd.toNat % 16 else cmd.toNat / 2 ^ 8 % 512

/-- REPSTAT (log 41, DEDUCED). -/
def Cell.repstat (c : Cell) : Word :=
  let used (col : Bool) : Nat := 2 ^ c.spares (repairStore c.repaired) (repairBank c.repaired) col - 1
  BitVec.ofNat 32 (c.repairAt.isSome.toNat * 2 ^ 31 + c.nospare.toNat * 2 ^ 30 + used false * 4 + used true)

/-- An item of R400 and R401 as a Spire core reads it. -/
def Cell.item (c : Cell) (n : Nat) : Word :=
  if n < 8 then (c.cnts.get n).setWidth 32 else if n = 8 then c.cmax else c.cnan.setWidth 32

/-- The word at offset `o` of the cell control registers (log 40, DESIGN CHOICE). -/
def Cell.regWord (c : Cell) (cycle o : Nat) : Word :=
  let none' : Word := Config.unnamedRegister (0x700000 + o)
  if o = 0x04 then c.rbres
  else if o = 0x08 then c.agelim
  else if o = 0x0C then c.tokexp
  else if o = 0x10 then c.faultq
  else if 0x400 ≤ o ∧ o < 0x500 then tget 0 c.staging ((o - 0x400) / 4)
  else if 0x800 ≤ o ∧ o < 0x900 then (c.record ((o - 0x800) / 16)).word (o % 16 / 4)
  else if 0x1000 ≤ o ∧ o < 0x1800 then ((c.inCh ((o - 0x1000) / 128)).field (o % 128 / 4)).getD none'
  else if 0x1800 ≤ o ∧ o < 0x2000 then ((c.outCh ((o - 0x1800) / 128)).field (o % 128 / 4)).getD none'
  else if 0x2000 ≤ o ∧ o < 0x3000 then (if o % 16 = 12 then 0 else (c.xentry ((o - 0x2000) / 16)).word (o % 16 / 4))
  else if 0x4000 ≤ o ∧ o < 0x8000 then (c.token ((o - 0x4000) / 64)).word (o % 64 / 4)
  else if 0x8000 ≤ o ∧ o < 0x8400 then c.holdWord cycle ((o - 0x8000) / 32) (o % 32 / 4)
  else if 0x9000 ≤ o ∧ o < 0x9180 then
    match (c.log ((o - 0x9000) / 128)).entries[o % 128 / 16]? with
    | some e => e.word (o % 16 / 4)
    | none => 0
  else if 0x9180 ≤ o ∧ o < 0x918C then
    BitVec.ofNat 32 ((c.log ((o - 0x9180) / 4)).overflow.toNat * 2 ^ 16 + (c.log ((o - 0x9180) / 4)).index)
  else if 0x9200 ≤ o ∧ o < 0x9218 then
    (if o % 8 = 0 then (tget (0, 0) c.inject ((o - 0x9200) / 8)).1 else (tget (0, 0) c.inject ((o - 0x9200) / 8)).2)
  else if o = 0x9300 then c.repcmd &&& 0x7FFFFFFF
  else if o = 0x9304 then c.repstat
  else if 0xA000 ≤ o ∧ o < 0xA200 then (c.tbar ((o - 0xA000) / 16)).reg (o % 16 / 4)
  else if 0xA400 ≤ o ∧ o < 0xA428 then c.item ((o - 0xA400) / 4)
  else none'

/-- Bytes of the control registers from cell offset `off` on. -/
def Cell.regBytes (c : Cell) (cycle off n : Nat) : List Byte :=
  bytesOf ((List.range (n / 4)).map fun i => c.regWord cycle (off - 0x700000 + 4 * i))

/-! ### What a write does -/

/-- Which step a write of a word is (log 40, DESIGN CHOICE). -/
def regEvent (o : Nat) (w : Word) : Instr :=
  if o = 0 then .rbind
  else if 0x9180 ≤ o ∧ o < 0x918C then .errorLogClear
  else if 0x9200 ≤ o ∧ o < 0x9218 ∧ o % 8 = 0 ∧ w.getLsbD 31 = true then .errorInject
  else if o = 0x9300 ∧ w.getLsbD 31 = true then (if w.getLsbD 30 then .repairColumn else .repairRow)
  else if 0xA400 ≤ o ∧ o < 0xA428 then .counterClear
  else .registerWrite

/-- Spire firmware's check of stability rules 3 and 4 at a bind that no other check of R338 fails (R301, R339)
(log 25, DEDUCED). -/
def State.rbindUnstable (s : State) (m u : Nat) (raw : List Byte) : Option Nat :=
  match (s.cell m u).bindEntry with
  | none => none
  | some e => if (s.bindFault m u e raw true).isNone then s.lateUnstable m u (descOf raw) else none

/-- RBIND (R339): the descriptor in the staging area is bound, and its result goes to RBRES with bit 30 set
(log 25, DEDUCED) (log 40, DESIGN CHOICE). -/
def State.rbind (s : State) (m u : Nat) : State :=
  let raw := bytesOf ((List.range 64).map fun i => tget 0 (s.cell m u).staging i)
  let (s, w) :=
    match s.rbindUnstable m u raw with
    | some n => (s, bindError 6 n)
    | none => s.bindRecord m u raw true (0, 0, 0)
  s.onCell m u fun c => { c with rbres := w ||| 0x40000000 }

/-- An injection (R383). -/
def Cell.injectNow (c : Cell) (store : Nat) (w : Word) : Cell :=
  let target := (tget (0, 0) c.inject store).2
  match injects store w target with
  | some bits => { c.plant store target.toNat bits with inject := tput c.inject store (w &&& 0x40003FFF, target) }
  | none => c

/-- Offsets of a row or a column of a bank (R384): whether the word at `off` lies in the line that a command names. -/
def inLine (cmd : Word) (off : Nat) : Bool :=
  let base := repairBase cmd
  decide (base ≤ off) && decide (off < base + 65536) &&
    (if cmd.getLsbD 30 then off / 8 % 16 == repairLine cmd else (off - base) / 128 == repairLine cmd)

/-- REPCMD is written with GO, and a repair starts (R426): with a free spare the line is copied, its single errors corrected;
else NOSPARE. A command that comes while a repair is in progress is not taken (log 41, DEDUCED). -/
def Cell.startRepair (c : Cell) (cycle : Nat) (cmd : Word) : Cell :=
  let c := { c with repcmd := cmd &&& 0x607FFF0F }
  if c.repairAt.isSome then c
  else
    let col := cmd.getLsbD 30
    let c := { c with repaired := cmd &&& 0x607FFF0F }
    if c.spares (repairStore cmd) (repairBank cmd) col < (if col then 2 else 4) then
      { c with
        nospare := false
        repairAt := some (cycle + if col then 512 else 1)
        remaps := c.remaps ++ [⟨repairStore cmd, repairBank cmd, col, repairLine cmd⟩]
        flips := c.flips.filter fun x => !(x.store != 2 && x.bits.length == 1 && inLine cmd x.span.1) }
    else { c with nospare := true }

/-- A write to the remaining words, by a copy also of words that an rst could not write (R2). A channel field takes what
sset could write there; the words that the tables mark read-only, and the words without a rule, keep their contents (log 40,
DESIGN CHOICE). -/
def State.putReg (s : State) (m u o : Nat) (w : Word) : State :=
  let on (f : Cell → Cell) : State := s.onCell m u f
  if o = 0x08 then on fun c => { c with agelim := w }
  else if o = 0x0C then (if w.toNat < 0x10000 then s else on fun c => { c with tokexp := w })
  else if o = 0x10 then on fun c => { c with faultq := w &&& 0x800001FF }
  else if 0x400 ≤ o ∧ o < 0x500 then on fun c => { c with staging := tput c.staging ((o - 0x400) / 4) w }
  else if 0x800 ≤ o ∧ o < 0x900 then
    on fun c => c.onRecord ((o - 0x800) / 16) fun r =>
      if o % 16 = 4 then { r with placement := w.toNat % 65536 }
      else if o % 16 = 8 then { r with job := w.toNat / 65536, phase := w.toNat % 65536 }
      else r
  else if 0x1000 ≤ o ∧ o < 0x2000 then
    let out := decide (0x1800 ≤ o)
    let n := o % 0x800 / 128
    let f := o % 128 / 4
    if (s.cell m u).writeFault out n f w = 0 then s.writeField m u out n f w else s
  else if 0x2000 ≤ o ∧ o < 0x3000 then
    let i := (o - 0x2000) / 16
    let k := o % 16 / 4
    if k < 3 ∧ ((s.cell m u).xentry i).refuses (s.chip m) u k w false = false then on fun c => c.writeX i k w else s
  else if 0x9200 ≤ o ∧ o < 0x9218 then
    on fun c =>
      let k := (o - 0x9200) / 8
      let old := tget (0, 0) c.inject k
      { c with inject := tput c.inject k (if o % 8 = 0 then (w &&& 0x40003FFF, old.2) else (old.1, w)) }
  else if o = 0x9300 then on fun c => { c with repcmd := w &&& 0x607FFF0F }
  else if 0xA000 ≤ o ∧ o < 0xA200 then on fun c => c.onTbar ((o - 0xA000) / 16) fun x => x.putReg (o % 16 / 4) w
  else s

/-- The words of a write that the translation set refuses (R355), in the order of their offsets. -/
def xRefused (c : Cell) (chip u : Nat) : List (Nat × Word) → List Nat
  | [] => []
  | (off, w) :: r =>
    let o := off - 0x700000
    if 0x2000 ≤ o ∧ o < 0x3000 ∧ o % 16 < 12 then
      let i := (o - 0x2000) / 16
      let k := o % 16 / 4
      if (c.xentry i).refuses chip u k w false then off :: xRefused c chip u r
      else xRefused { c with xset := tput c.xset i ((c.xentry i).write k w) } chip u r
    else xRefused c chip u r

/-! ### The steps -/

/-- The first write of a control register of a unit that has not taken effect, and the machine without it, when it is the
step `i`. -/
def State.nextRegWrite (s : State) (i : Instr) : Option (Nat × Word × State) :=
  let f := s.focus
  match (s.cell f.m f.u).regWrites with
  | (off, w) :: r =>
    if regEvent (off - 0x700000) w = i then
      some (off - 0x700000, w, s.onCell f.m f.u fun c => { c with regWrites := r })
    else none
  | [] => none

/-- RBIND (R339). -/
def execRbind (s : State) : Out :=
  match s.nextRegWrite .rbind with
  | some (_, _, t) => .next (t.rbind s.focus.m s.focus.u)
  | none => .refused (.eventNotDue "RBIND")

/-- ERROR_INJECT (R383). -/
def execErrorInject (s : State) : Out :=
  match s.nextRegWrite .errorInject with
  | some (o, w, t) => .next (t.onCell s.focus.m s.focus.u fun c => c.injectNow ((o - 0x9200) / 8) w)
  | none => .refused (.eventNotDue "ERROR_INJECT")

/-- ERROR_LOG_CLEAR (R382). -/
def execErrorLogClear (s : State) : Out :=
  match s.nextRegWrite .errorLogClear with
  | some (o, _, t) =>
    .next (t.onCell s.focus.m s.focus.u fun c =>
      { c with logs := tput c.logs ((o - 0x9180) / 4) (c.log ((o - 0x9180) / 4)).clear })
  | none => .refused (.eventNotDue "ERROR_LOG_CLEAR")

/-- A counter or chain statistic set to 0, with what the cycle has added to it (R400). -/
def Cell.zeroCounter (c : Cell) (n : Nat) : Cell :=
  if n < 8 then { c with cnts := c.cnts.put n 0 } else if n = 8 then { c with cmax := 0 } else { c with cnan := 0 }

/-- COUNTER_CLEAR (R400). -/
def execCounterClear (s : State) : Out :=
  match s.nextRegWrite .counterClear with
  | some (o, _, t) => .next (t.onCell s.focus.m s.focus.u fun c => c.zeroCounter ((o - 0xA400) / 4))
  | none => .refused (.eventNotDue "COUNTER_CLEAR")

/-- REPAIR_ROW (R426). -/
def execRepairRow (s : State) : Out :=
  match s.nextRegWrite .repairRow with
  | some (_, w, t) => .next (t.onCell s.focus.m s.focus.u fun c => c.startRepair s.cycle w)
  | none => .refused (.eventNotDue "REPAIR_ROW")

/-- REPAIR_COLUMN (R426). -/
def execRepairColumn (s : State) : Out :=
  match s.nextRegWrite .repairColumn with
  | some (_, w, t) => .next (t.onCell s.focus.m s.focus.u fun c => c.startRepair s.cycle w)
  | none => .refused (.eventNotDue "REPAIR_COLUMN")

/-- The repair is over, and firmware will write V ← 0 in the classifier entry (R426). -/
def State.endRepair (s : State) (m u : Nat) : State :=
  let fix : Fix := ⟨u, (s.cell m u).repaired, s.cycle + 1 + Config.firmwareDelay s.free⟩
  ({ s with free := s.free + 1 }.onCell m u fun c => { c with repairAt := none }).onMod m fun x =>
    { x with io := { x.io with fixes := x.io.fixes ++ [fix] } }

/-- REPAIR_DONE: accesses to the bank go on, on the spare (R426). -/
def execRepairDone (s : State) : Out :=
  let f := s.focus
  if (s.cell f.m f.u).repairAt.any fun t => decide (t ≤ s.cycle) then .next (s.endRepair f.m f.u)
  else .refused (.eventNotDue "REPAIR_DONE")

end Sys2Proof.Machine
end

