-- ==== Sys2Proof/Machine/LinkSteps.lean ====
section
/-! DEFINITION. The steps of links and of the routing table that are not syllables (R309 to R317, R381, R402, R406). -/

namespace Sys2Proof.Machine

/-! ### Flits that arrive -/

/-- LINK_PACKET_RECEIVE of flit `focus.j` (R310). -/
def execLinkPacketReceive (s : State) : Out :=
  match s.flitAt s.focus.j with
  | some f =>
    match f.body with
    | .packet lseq msg vc flits last => .next (s.receivePacket f lseq msg vc flits last)
    | _ => .refused (.eventNotDue "LINK_PACKET_RECEIVE")
  | none => .refused (.eventNotDue "LINK_PACKET_RECEIVE")

/-- What a control flit does at an end that carries flits; elsewhere it is lost. -/
def State.takeFlit (s : State) (f : Flit) (g : State → State) : State :=
  if (s.link f.to'.m f.to'.link).state = .up then s.hearFlit f g else s.dropFlit f.id

/-- LINK_ACK (R309, R310). -/
def execLinkAck (s : State) : Out :=
  match s.flitAt s.focus.j with
  | some f =>
    match f.body with
    | .ack lseq credits => .next (s.takeFlit f fun t => t.onLink f.to'.m f.to'.link fun k => k.takeAck s.cycle lseq credits)
    | _ => .refused (.eventNotDue "LINK_ACK")
  | none => .refused (.eventNotDue "LINK_ACK")

/-- LINK_NAK (R310). -/
def execLinkNak (s : State) : Out :=
  match s.flitAt s.focus.j with
  | some f =>
    match f.body with
    | .nak lseq => .next (s.takeFlit f fun t => t.onLink f.to'.m f.to'.link fun k => k.takeNak lseq)
    | _ => .refused (.eventNotDue "LINK_NAK")
  | none => .refused (.eventNotDue "LINK_NAK")

/-- TIME_FLIT (R402). -/
def execTimeFlit (s : State) : Out :=
  match s.flitAt s.focus.j with
  | some f =>
    match f.body with
    | .time hops cyc head =>
      let p := f.to'
      .next (s.takeFlit f fun t => t.onMod p.m fun x => { x with io := x.io.steerTo p.link hops head cyc })
    | _ => .refused (.eventNotDue "TIME_FLIT")
  | none => .refused (.eventNotDue "TIME_FLIT")

/-- ISOLATE_FLIT (R313). -/
def execIsolateFlit (s : State) : Out :=
  match s.flitAt s.focus.j with
  | some f =>
    match f.body with
    | .isolate => .next (s.takeFlit f fun t => t.isolate f.to'.m f.to'.link)
    | _ => .refused (.eventNotDue "ISOLATE_FLIT")
  | none => .refused (.eventNotDue "ISOLATE_FLIT")

/-! ### Timers of link `focus.j` of module `focus.m` -/

/-- ACK_TIMER (R310). -/
def execAckTimer (s : State) : Out :=
  let f := s.focus
  if (s.link f.m f.j).ackDue s.cycle then .next (s.sendAck f.m f.j) else .refused (.eventNotDue "ACK_TIMER")

/-- TIME_FLIT_TIMER (R402): a module that names a head sends it, with CYC as it stands when the flit departs (R309): the link
begins no packet before that (log 5, DESIGN CHOICE). -/
def execTimeFlitTimer (s : State) : Out :=
  let f := s.focus
  let k := s.link f.m f.j
  if k.state = .up ∧ k.timeAt ≤ s.cycle ∧ k.txFree < 7 * (s.cycle + 1) then
    let io := (s.mod f.m).io
    let (head, hops) := io.head
    let t := s.onLink f.m f.j fun k => { k with timeAt := s.cycle + 65536 }
    .next (if head = 1023 then t else t.sendFlits ⟨f.m, f.j⟩ 1 (.time hops io.cyc head))
  else .refused (.eventNotDue "TIME_FLIT_TIMER")

/-- LINK_SILENCE_TIMEOUT (R313). -/
def execLinkSilenceTimeout (s : State) : Out :=
  let f := s.focus
  let k := s.link f.m f.j
  if k.state = .up ∧ k.lastRx + 65536 ≤ s.cycle then .next (s.isolate f.m f.j)
  else .refused (.eventNotDue "LINK_SILENCE_TIMEOUT")

/-- RETRAIN_TIMEOUT (R313). -/
def execRetrainTimeout (s : State) : Out :=
  let f := s.focus
  let k := s.link f.m f.j
  if k.state = .retrain ∧ k.since + 4000 < s.cycle then .next (s.isolate f.m f.j)
  else .refused (.eventNotDue "RETRAIN_TIMEOUT")

/-! ### Training (R313 to R315) -/

/-- The lanes named by a list, as a mask. -/
def laneMask (lanes : List Nat) : BitVec 16 := lanes.foldl (fun m l => m ||| BitVec.ofNat 16 (2 ^ l)) 0

/-- TRAINING_DONE on the cable of link `focus.j`, in a cycle that the outside supplies; `focus.data` lists the lanes that
fail. Both ends have received the other's TRAIN flit. Where no group of lanes is left, the attempt cannot end so. -/
def execTrainingDone (s : State) : Out :=
  let p : Plug := ⟨s.focus.m, s.focus.j⟩
  match s.farEnd p with
  | none => .refused (.eventNotDue "TRAINING_DONE")
  | some q =>
    let failed := laneMask s.focus.data
    match s.agreed p q failed with
    | none => .refused (.eventNotDue "TRAINING_DONE")
    | some g =>
      if s.trains p && s.trains q && (s.link p.m p.link).ident.isSome && (s.link q.m q.link).ident.isSome then
        let full (x : Plug) : Nat := ((s.mod x.m).io.lanes x.link).2
        let done (s : State) (x y : Plug) : State :=
          let s := s.onLink x.m x.link fun k => k.trained s.cycle failed g (full x) (s.link y.m y.link)
          s.onMod x.m fun z => { z with io := z.io.nameNeighbour x.link (s.mod y.m).io.midValid }
        .next (done (done (s.clearWire p) p q) q p)
      else .refused (.eventNotDue "TRAINING_DONE")

/-- A failed attempt at one end: the third in a row isolates it. -/
def State.failTraining (s : State) (p : Plug) : State :=
  let k := s.link p.m p.link
  if k.state ≠ .train then s
  else if k.attempts + 1 = 3 then s.isolate p.m p.link
  else s.onLink p.m p.link fun k => { k with attempts := k.attempts + 1 }

/-- TRAINING_FAIL (R313). -/
def execTrainingFail (s : State) : Out :=
  let p : Plug := ⟨s.focus.m, s.focus.j⟩
  if (s.link p.m p.link).state = .train then
    .next (match s.farEnd p with
      | some q => (s.failTraining p).failTraining q
      | none => s.failTraining p)
  else .refused (.eventNotDue "TRAINING_FAIL")

/-- A lane fails at one end: an UP link that uses it retrains (R315). -/
def State.loseLane (s : State) (p : Plug) (lane : Nat) (retrain : Bool) : State :=
  s.onLink p.m p.link fun k =>
    let k := { k with failed := k.failed ||| BitVec.ofNat 16 (2 ^ lane) }
    if retrain then { k with state := .retrain, since := s.cycle } else k

/-- LANE_FAILURE of lane `focus.v` (R314, R315). -/
def execLaneFailure (s : State) : Out :=
  let p : Plug := ⟨s.focus.m, s.focus.j⟩
  let lane := s.focus.v
  let k := s.link p.m p.link
  let l := (s.mod p.m).io.lanes p.link
  if l.1 ≤ lane ∧ lane < l.1 + l.2 then
    let used := k.state == .up && decide (k.first ≤ lane) && decide (lane < k.first + k.width)
    let t := s.loseLane p lane used
    .next (match s.farEnd p with
      | some q =>
        let t := t.loseLane q lane (used && (s.link q.m q.link).state == .up)
        if used then t.clearWire p else t
      | none => t)
  else .refused (.eventNotDue "LANE_FAILURE")

/-- RETRAIN_DONE: both ends run on the widest healthy group, or on none (R313, R314). -/
def execRetrainDone (s : State) : Out :=
  let p : Plug := ⟨s.focus.m, s.focus.j⟩
  match s.farEnd p with
  | none => .refused (.eventNotDue "RETRAIN_DONE")
  | some q =>
    let a := s.link p.m p.link
    let b := s.link q.m q.link
    if a.state = .retrain ∧ b.state = .retrain ∧ s.cycle ≤ a.since + 4000 then
      match s.agreed p q (a.failed ||| b.failed) with
      | some g =>
        .next ((s.onLink p.m p.link fun k => k.retrained s.cycle g b).onLink q.m q.link fun k =>
          k.retrained s.cycle g a)
      | none => .next ((s.isolate p.m p.link).isolate q.m q.link)
    else .refused (.eventNotDue "RETRAIN_DONE")

/-! ### Writes of port registers -/

/-- The link of a port-register offset. -/
def linkOf (off : Nat) : Nat := (off - 0x410000) / 64

/-- A link state that carries no lanes in use: SPLIT may then be written (R319). -/
def LinkState.idle (x : LinkState) : Bool := x == .down || x == .isolated

/-- SPLIT of a port is written, through link 0, while every link of the port is DOWN or ISOLATED; 3 is reserved. -/
def State.writeSplit (s : State) (m l : Nat) (w : Word) : State :=
  let io := (s.mod m).io
  let v := w.toNat % 4
  if l % 4 = 0 ∧ v < 3 ∧ [0, 1, 2, 3].all (fun k => (io.link (l + k)).state.idle) then
    s.onMod m fun x => { x with io := { x.io with splits := tput x.io.splits (l / 4) v } }
  else s

/-- The link is isolated by its register: an UP link sends ISOLATE first (R313) (log 42, DEDUCED). -/
def State.commandIsolate (s : State) (m l : Nat) : State :=
  match (s.link m l).state with
  | .up => (s.sendFlits ⟨m, l⟩ 1 .isolate).isolate m l
  | .isolated => s
  | _ => s.isolate m l

/-- The link trains at full width by its register: a link that is UP takes its far end with it (R313, R314)
(log 42, DEDUCED). -/
def State.commandTrain (s : State) (m l : Nat) : State :=
  let runs (p : Plug) : Bool := (s.link p.m p.link).state == .up || (s.link p.m p.link).state == .retrain
  if runs ⟨m, l⟩ then
    match (s.farEnd ⟨m, l⟩).filter runs with
    | some q => (((s.clearWire ⟨m, l⟩).startTraining m l false).startTraining q.m q.link false)
    | none => (s.isolate m l).startTraining m l true
  else s.startTraining m l ((s.link m l).state != .train)

/-- A training by its register is none of boot, at either end (R379). -/
def State.endBooting (s : State) (m l : Nat) : State :=
  let s := s.onLink m l fun k => { k with booting := false }
  match s.farEnd ⟨m, l⟩ with
  | some q => s.onLink q.m q.link fun k => { k with booting := false }
  | none => s

/-- A write of PCTL of a link that exists; RETRAIN is a Spire core's (R314, R319) (log 42, DEDUCED). -/
def State.writePctl (s : State) (m l : Nat) (w : Word) (spire : Bool) : State :=
  let s := s.writeSplit m l w
  if (s.mod m).io.linkExists l then
    let s := if w.getLsbD 3 then s.commandIsolate m l else s
    if w.getLsbD 2 && spire then (s.endBooting m l).commandTrain m l else s
  else s

/-- LINK_ISOLATE (R317, R319). -/
def execLinkIsolate (s : State) : Out :=
  match s.write .linkIsolate with
  | some (m, off, w, spire) => .next (s.writePctl m (linkOf off) w spire)
  | none => .refused (.eventNotDue "LINK_ISOLATE")

/-- LINK_RETRAIN (R314, R319). -/
def execLinkRetrain (s : State) : Out :=
  match s.write .linkRetrain with
  | some (m, off, w, spire) => .next (s.writePctl m (linkOf off) w spire)
  | none => .refused (.eventNotDue "LINK_RETRAIN")

/-- PLAT_MAX_CLEAR (R406). -/
def execPlatMaxClear (s : State) : Out :=
  match s.write .platMaxClear with
  | some (m, off, _, _) => .next (s.onLink m (linkOf off) fun k => { k with platMax := 0 })
  | none => .refused (.eventNotDue "PLAT_MAX_CLEAR")

/-! ### The routing table (R379, R381) -/

/-- An entry with one of its words written; a new FIRST link leaves the former one to drain (log 36, DEDUCED). -/
def Route.put (r : Route) (k : Nat) (w : Word) : Route :=
  match k with
  | 0 =>
    let first := w.toNat % 64
    { r with
      v := w.getLsbD 31, here := w.getLsbD 30, first := first
      old := if first = r.first then r.old else r.first :: r.old.filter fun l => l != first }
  | 1 => { r with mask := BitVec.ofNat 64 (r.mask.toNat / 2 ^ 32 * 2 ^ 32 + w.toNat) }
  | 2 => { r with mask := BitVec.ofNat 64 (r.mask.toNat % 2 ^ 32 + w.toNat * 2 ^ 32) }
  | _ => r

/-- A write of word `k` of entry `c`; entry 0x3FF is reserved (log 36, DEDUCED). The ends whose peer chip it makes
unreachable become DEAD (R285, R318). -/
def State.writeRoute (s : State) (m c k : Nat) (w : Word) : State :=
  if c = 1023 then s
  else
    (s.onMod m fun x => { x with io := { x.io with routes := tput x.io.routes c ((x.io.route c).put k w) } }).cut m []

/-- ROUTING_WRITE (R381). -/
def execRoutingWrite (s : State) : Out :=
  match s.write .routingWrite with
  | some (m, off, w, _) => .next (s.writeRoute m ((off - 0x430000) / 16) (off % 16 / 4) w)
  | none => .refused (.eventNotDue "ROUTING_WRITE")

end Sys2Proof.Machine
end

