-- ==== Sys2Proof/Machine/HostSteps.lean ====
section
/-! DEFINITION. The steps of the host's endpoints and queues, and the writes of registers that have no step of their own
(R324, R325, R327, R330, R414, R432). -/

namespace Sys2Proof.Machine

def State.onIngress (s : State) (m e : Nat) (f : Ingress → Ingress) : State :=
  s.onMod m fun x => { x with io := { x.io with ingress := tput x.io.ingress e (f (x.io.ingressAt e)) } }

def State.onEgress (s : State) (m e : Nat) (f : Egress → Egress) : State :=
  s.onMod m fun x => { x with io := { x.io with egress := tput x.io.egress e (f (x.io.egressAt e)) } }

def State.onQueue (s : State) (m q : Nat) (f : Queue → Queue) : State :=
  s.onMod m fun x => { x with io := x.io.onQueue q f }

/-- The ingress endpoint, or the egress endpoint, of a host offset. -/
def ingressOf (off : Nat) : Nat := (off - streamBase) / 0x40000
def egressOf (off : Nat) : Nat := (off - streamBase - 0x2000000) / 0x100

/-- A bit field of a word. -/
def field (w : Word) (lo n : Nat) : Nat := w.toNat / 2 ^ lo % 2 ^ n

/-! ### Ingress endpoints (R324) -/

/-- A doorbell of a free stage of an enabled endpoint (log 43, DEDUCED). -/
def Ingress.doorbell (x : Ingress) (k : Nat) : Ingress :=
  if x.en && decide (k < 2) && x.stageFree k then { x with doorbells := x.doorbells ++ [k] } else x

/-- INGRESS_DOORBELL. -/
def execIngressDoorbell (s : State) : Out :=
  match s.write .ingressDoorbell with
  | some (m, off, w, _) => .next (s.onIngress m (ingressOf off) fun x => x.doorbell w.toNat)
  | none => .refused (.eventNotDue "INGRESS_DOORBELL")

/-- The fields of ICTL beside EN and PST (log 43, DEDUCED). -/
def Ingress.putCtl (x : Ingress) (w : Word) : Ingress :=
  { x with nven := w.getLsbD 27, nvec := field w 16 6, slots := field w 0 7 }

/-- VALID and PST are cleared (R432). -/
def Ingress.forget (x : Ingress) : Ingress := { x with valid := false, pst := 0, peer := x.peer &&& 0xFFFFF7FF }

/-- EN ← 1: IFBC takes the slot count (log 43, DEDUCED). -/
def Ingress.enable (x : Ingress) (w : Word) : Ingress :=
  let y := x.putCtl w
  if x.en then y
  else
    let y := if x.wasOff then y.forget else y
    { y with en := true, wasOff := false, fbc := y.slots, wptr := 0 }

/-- EN ← 0: the doorbells of stages not yet forwarded are discarded, and both stages are free (log 43, DEDUCED). -/
def Ingress.disable (x : Ingress) (w : Word) : Ingress :=
  { x.putCtl w with en := false, wasOff := x.wasOff || x.en, doorbells := [], busy := none }

/-- INGRESS_ENABLE. -/
def execIngressEnable (s : State) : Out :=
  match s.write .ingressEnable with
  | some (m, off, w, _) => .next (s.onIngress m (ingressOf off) fun x => x.enable w)
  | none => .refused (.eventNotDue "INGRESS_ENABLE")

/-- INGRESS_DISABLE. -/
def execIngressDisable (s : State) : Out :=
  match s.write .ingressDisable with
  | some (m, off, w, _) => .next (s.onIngress m (ingressOf off) fun x => x.disable w)
  | none => .refused (.eventNotDue "INGRESS_DISABLE")

/-- The stage that an endpoint forwards next. -/
def Ingress.nextStage (x : Ingress) : Option Nat :=
  if x.en && x.valid && x.pst == 1 && decide (1 ≤ x.fbc) && x.busy.isNone then x.doorbells.head? else none

/-- The packet in a stage: SEQ, LEN and EOS are the host's; the I/O die writes the rest (R275, R324). -/
def Ingress.packet (x : Ingress) (chip e k : Nat) : Packet :=
  let mem := x.stage k
  let w1 := memWord mem 4
  let len := min 65536 (w1.toNat % 2 ^ 17)
  { slot := x.wptr, srcrec := 0, origin := BitVec.ofNat 32 (chip * 2 ^ 22 + e * 2 ^ 12 + 2 ^ 9), seq := memWord mem 0
    len := len, eos := w1.getLsbD 30, pblk := false, pstv := false, poison := false, etag := 0
    payload := memBytes mem 16 len }

/-- A message that leaves some cycles later than the others of this cycle. -/
def State.sendAfter (s : State) (m u strand : Nat) (dst : Addr) (vc : Nat) (body : Body) (extra : Nat) : State :=
  let t := s.send m u strand dst vc body
  let later (x : Msg) : Msg :=
    match x.place with
    | .inside due final => { x with place := .inside (due + extra) final }
    | _ => x
  { t with net := t.net.map fun (x : Msg) => if x.id = s.nextId then later x else x }

/-- A stage is forwarded at 64 B per cycle to the in-channel that IPEER names (log 43, DEDUCED). -/
def State.forwardStage (s : State) (m e k : Nat) : State :=
  let x := (s.mod m).io.ingressAt e
  let p := x.packet (s.chip m) e k
  let n := (16 + p.len + 63) / 64
  let a := peerAddr x.peer
  let s := s.onIngress m e fun x =>
    { x with
      fbc := x.fbc - 1, wptr := (x.wptr + 1) % max 1 x.slots, doorbells := x.doorbells.drop 1
      busy := some (k, s.cycle + n - 1) }
  s.sendAfter m ioUnit 0 a.1 0 (.packet a.2 p) (n - 1)

/-- INGRESS_STAGE_FORWARD of endpoint `focus.j` (R324). -/
def execIngressStageForward (s : State) : Out :=
  let f := s.focus
  match ((s.mod f.m).io.ingressAt f.j).nextStage with
  | some k => .next (s.forwardStage f.m f.j k)
  | none => .refused (.eventNotDue "INGRESS_STAGE_FORWARD")

/-! ### Egress endpoints (R325) -/

/-- The fields of ECTL beside EN: written only while EN is 0 (log 43, DEDUCED). -/
def Egress.putCtl (x : Egress) (w : Word) : Egress :=
  if x.en then x else { x with slots := field w 22 7, vec := field w 16 6, size := field w 0 16 }

def Egress.forget (x : Egress) : Egress := { x with valid := false, pst := 0, peer := x.peer &&& 0xFFFFF7FF }

/-- EN ← 1: WPTR is 0. -/
def Egress.enable (x : Egress) (w : Word) : Egress :=
  if x.en then x
  else
    let y := if x.wasOff then x.forget else x
    { y.putCtl w with en := true, wasOff := false, wptr := 0 }

def Egress.disable (x : Egress) (w : Word) : Egress := { x.putCtl w with en := false, wasOff := x.wasOff || x.en }

/-- EGRESS_ENABLE. -/
def execEgressEnable (s : State) : Out :=
  match s.write .egressEnable with
  | some (m, off, w, _) => .next (s.onEgress m (egressOf off) fun x => x.enable w)
  | none => .refused (.eventNotDue "EGRESS_ENABLE")

/-- EGRESS_DISABLE. -/
def execEgressDisable (s : State) : Out :=
  match s.write .egressDisable with
  | some (m, off, w, _) => .next (s.onEgress m (egressOf off) fun x => x.disable w)
  | none => .refused (.eventNotDue "EGRESS_DISABLE")

/-- Credits go back to the out-channel that EPEER names, if it names one. -/
def State.releaseEgress (s : State) (m e n : Nat) : State :=
  let x := (s.mod m).io.egressAt e
  let a := peerAddr x.peer
  if x.valid then s.send m ioUnit 0 a.1 6 (.credit a.2 n e) else s

/-- EGRESS_RELEASE. -/
def execEgressRelease (s : State) : Out :=
  match s.write .egressRelease with
  | some (m, off, w, _) => .next (s.releaseEgress m (egressOf off) (w.toNat % 128))
  | none => .refused (.eventNotDue "EGRESS_RELEASE")

/-- Payload capacity of a host slot. -/
def Egress.capacity (x : Egress) : Nat := if x.size = 0 then 65536 else x.size

/-- The host address of slot `k`. -/
def Egress.slotAt (x : Egress) (k : Nat) : Nat :=
  x.hi.toNat * 2 ^ 32 + x.lo.toNat + k * slotStride x.capacity

/-- A packet is written to the next host slot, and the vector signalled; at a disabled endpoint it is discarded and its
producer told. -/
def State.egressWrite (s : State) (m e : Nat) (x : Msg) (p : Packet) : State :=
  let y := (s.mod m).io.egressAt e
  if y.en then
    let s := s.onMod m fun z =>
      { z with io := { z.io with hostMem := memWrite z.io.hostMem (y.slotAt y.wptr) (p.header ++ p.payload) } }
    (s.onEgress m e fun y => { y with wptr := (y.wptr + 1) % max 1 y.slots }).signal m y.vec
  else (s.deadTo m (producerEnd x p)).setPst m e true 3

/-- EGRESS_PACKET_WRITE of message `focus.j` (R325). -/
def execEgressPacketWrite (s : State) : Out :=
  match s.arrival s.focus.j with
  | some x =>
    match x.body with
    | .packet e p =>
      if x.dst.unit = ioUnit then .next ((s.dropMsg x.id).egressWrite x.mod e x p)
      else .refused (.eventNotDue "EGRESS_PACKET_WRITE")
    | _ => .refused (.eventNotDue "EGRESS_PACKET_WRITE")
  | none => .refused (.eventNotDue "EGRESS_PACKET_WRITE")

/-- OPEN_NOTICE (R432). -/
def execOpenNotice (s : State) : Out :=
  match s.arrival s.focus.j with
  | some x =>
    match x.body with
    | .openNote e egress peer =>
      let t := s.dropMsg x.id
      .next (if egress then t.onEgress x.mod e fun y => { y with peer := peer, valid := true, pst := 1 }
        else t.onIngress x.mod e fun y => { y with peer := peer, valid := true, pst := 1 })
    | _ => .refused (.eventNotDue "OPEN_NOTICE")
  | none => .refused (.eventNotDue "OPEN_NOTICE")

/-! ### Queues (R327) -/

/-- A rejected NOTIFY or HEAD write counts (log 44, DEDUCED). -/
def Queue.reject (q : Queue) : Queue := { q with ovf := min 0xFFFF (q.ovf + 1) }

/-- A NOTIFY of `n` entries (log 44, DEDUCED). -/
def State.notifyQueue (s : State) (m q n : Nat) : State :=
  let x := (s.mod m).io.queue q
  if x.en ∧ n ≤ x.room then
    (s.onQueue m q fun x => { x with tail := (x.tail + n) % x.depth }).signalQueue m q
  else s.onQueue m q Queue.reject

/-- QUEUE_NOTIFY. -/
def execQueueNotify (s : State) : Out :=
  match s.write .queueNotify with
  | some (m, off, w, _) => .next (s.notifyQueue m (off / 64) (w.toNat % 2 ^ 13))
  | none => .refused (.eventNotDue "QUEUE_NOTIFY")

/-- A HEAD write, which may not pass QTAIL (log 44, DEDUCED). -/
def Queue.putHead (q : Queue) (h : Nat) : Queue :=
  if h < q.depth ∧ (h + q.depth - q.head) % q.depth ≤ q.count then { q with head := h } else q.reject

/-- QUEUE_HEAD_WRITE. -/
def execQueueHeadWrite (s : State) : Out :=
  match s.write .queueHeadWrite with
  | some (m, off, w, _) => .next (s.onQueue m (off / 64) fun q => q.putHead (w.toNat % 2 ^ 12))
  | none => .refused (.eventNotDue "QUEUE_HEAD_WRITE")

/-! ### Registers without a step of their own (R414) -/

/-- QCTL, QBASE, QDEPTH and QOVF (log 44, DEDUCED). -/
def Queue.put (q : Queue) (r : Nat) (w : Word) : Queue :=
  match r with
  | 0x00 => { q with en := w.getLsbD 31, kind := field w 24 2, target := field w 8 6 }
  | 0x04 => if q.en then q else { q with base := field w 0 17 }
  | 0x08 => if q.en = false ∧ 6 ≤ field w 0 4 ∧ field w 0 4 ≤ 12 then { q with log := field w 0 4 } else q
  | 0x18 => { q with ovf := field w 0 16 }
  | _ => q

/-- A classifier entry with one of its words written. -/
def ClassEntry.put (e : ClassEntry) (k : Nat) (w : Word) : ClassEntry :=
  match k with
  | 0 =>
    { e with
      v := w.getLsbD 31, cls := field w 28 2, store := field w 27 1, req := w.getLsbD 26, celln := field w 16 8
      bank := field w 8 6 }
  | 1 => { e with row := field w 16 9, col := field w 0 4 }
  | 2 => { e with count := field w 0 16 }
  | _ => { e with last := w }

/-- A unit-table entry with one of its words written; a new entry has not fired (log 26, DEDUCED). -/
def UnitEntry.put (x : UnitEntry) (k : Nat) (w : Word) : UnitEntry :=
  match k with
  | 0 =>
    let y := if x.v then x else { x with fired := false, status := 0, kills := 0, combined := 0, reported := false, parent := none }
    { y with v := w.getLsbD 31, level := field w 28 2, id := field w 0 16 }
  | 1 => { x with closed := w.getLsbD 31, live := field w 0 16 }
  | 2 => { x with home := field w 22 10, nmod := field w 0 10 }
  | 3 => x
  | k =>
    if 32 ≤ k ∧ k < 64 then
      let sh := 32 * (k - 32)
      { x with cells := (x.cells &&& ~~~(BitVec.ofNat 1024 (0xFFFFFFFF * 2 ^ sh))) ||| BitVec.ofNat 1024 (w.toNat * 2 ^ sh) }
    else x

/-- A word of a table of registers, with the bits that it keeps (log 45, DEDUCED). -/
def IoDie.putMod (io : IoDie) (o : Nat) (w : Word) (spire : Bool) : IoDie :=
  if o = 0x00 then (if spire then { io with chip := field w 22 10, midValid := w.getLsbD 21 } else io)
  else if o = 0x0C then
    (if 1 ≤ field w 0 9 ∧ field w 0 9 ≤ 256 then
      { io with pceil := if 1050 ≤ io.temp then min 16 (field w 0 9) else field w 0 9 }
    else io)
  else if o = 0x1C then { io with pcap := field w 0 16 }
  else if o = 0x24 then { io with ckDir := w.getLsbD 30 }
  else if o = 0x28 then { io with ckLo := w &&& 0xFFFFF000 }
  else if o = 0x2C then { io with ckHi := w }
  else if o = 0x34 then { io with sfaultq := w &&& 0x800001FF }
  else if 0x40 ≤ o ∧ o < 0x60 then
    (if io.attBusy.isSome then { io with nonceNext := tput io.nonceNext ((o - 0x40) / 4) w }
    else { io with nonce := tput io.nonce ((o - 0x40) / 4) w })
  else if 0x100 ≤ o ∧ o < 0x140 then { io with pvec := tput io.pvec ((o - 0x100) / 4) (w &&& 0x8000003F) }
  else if 0x200 ≤ o ∧ o < 0x300 then { io with uvec := tput io.uvec ((o - 0x200) / 4) (w &&& 0x8000003F) }
  else if o = 0x300 then { io with rdyvec := w &&& 0x8000003F }
  else if 0x320 ≤ o ∧ o < 0x340 then { io with spvec := tput io.spvec ((o - 0x320) / 4) (w &&& 0x8000003F) }
  else if 0x8000 ≤ o ∧ o < 0xF8000 then { io with stage := memWrite io.stage (o - 0x8000) (leBytes 4 w.toNat) }
  else io

/-- A write to the management window by the host or by a Spire core; unmapped and read-only words ignore it
(log 44, DEDUCED) (log 47, DESIGN CHOICE). -/
def State.mgmtPut (s : State) (m off : Nat) (w : Word) (spire : Bool) : State :=
  let on (f : IoDie → IoDie) : State := s.onMod m fun x => { x with io := f x.io }
  if off < 0x8000 then on fun io => io.onQueue (off / 64) fun q => q.put (off % 64) w
  else if 0x200000 ≤ off ∧ off < 0x400000 then
    on fun io => { io with qsram := memWrite io.qsram (off - 0x200000) (leBytes 4 w.toNat) }
  else if 0x410000 ≤ off ∧ off < 0x411000 then (if off % 64 = 0 then s.writePctl m (linkOf off) w spire else s)
  else if 0x420000 ≤ off ∧ off < 0x420400 then
    on fun io => { io with msixTable := tput io.msixTable ((off - 0x420000) / 4) w }
  else if 0x440000 ≤ off ∧ off < 0x441000 then
    let i := (off - 0x440000) / 16
    on fun io => { io with classifier := tput io.classifier i ((tget ClassEntry.reset io.classifier i).put (off % 16 / 4) w) }
  else if off = 0x441000 then on fun io => { io with cethr := field w 0 16 }
  else if 0x450000 ≤ off ∧ off < 0x454000 then
    let i := (off - 0x450000) / 256
    on fun io => { io with units := tput io.units i ((io.unit i).put (off % 256 / 4) w) }
  else if 0x500000 ≤ off ∧ off < 0x600000 then on fun io => io.putMod (off - 0x500000) w spire
  else s

/-- A word of a stage is written while the stage is free. -/
def Ingress.putStage (x : Ingress) (o : Nat) (w : Word) : Ingress :=
  if 0x1000 ≤ o ∧ o < 0x1000 + 65552 then { x with stage0 := memWrite x.stage0 (o - 0x1000) (leBytes 4 w.toNat) }
  else if 0x12000 ≤ o ∧ o < 0x12000 + 65552 then { x with stage1 := memWrite x.stage1 (o - 0x12000) (leBytes 4 w.toNat) }
  else x

/-- EBASE, written only while EN is 0. -/
def Egress.putBase (x : Egress) (o : Nat) (w : Word) : Egress :=
  if x.en then x else if o = 0 then { x with lo := w &&& 0xFFFFFF80 } else if o = 4 then { x with hi := w } else x

/-- A write of the host to either window (log 47, DESIGN CHOICE). -/
def State.hostPut (s : State) (m off : Nat) (w : Word) : State :=
  let o := off - streamBase
  if off < streamBase then s.mgmtPut m off w false
  else if o < 0x2000000 then s.onIngress m (ingressOf off) fun x => x.putStage (o % 0x40000) w
  else if o < 0x2000000 + 0x8000 then s.onEgress m (egressOf off) fun x => x.putBase (o % 0x100) w
  else s

/-- REGISTER_WRITE: of a cell's control register (R353), or of the management or stream window (R414). -/
def execRegisterWrite (s : State) : Out :=
  let f := s.focus
  if f.u < 1024 then
    match s.nextRegWrite .registerWrite with
    | some (o, w, t) => .next (t.putReg f.m f.u o w)
    | none => .refused (.eventNotDue "REGISTER_WRITE")
  else
    match s.write .registerWrite with
    | some (m, off, w, spire) => .next (if spire then s.mgmtPut m off w true else s.hostPut m off w)
    | none => .refused (.eventNotDue "REGISTER_WRITE")

end Sys2Proof.Machine
end

