-- ==== Sys2Proof/Machine/UnitSteps.lean ====
section
/-! DEFINITION. Completion counters of placements, phases and jobs: the notices and reports that travel between cells, I/O
dies and HOME (R163, R349, R396 to R399). -/

namespace Sys2Proof.Machine

def State.onUnit (s : State) (m i : Nat) (f : UnitEntry → UnitEntry) : State :=
  s.onMod m fun x => { x with io := { x.io with units := tput x.io.units i (f (x.io.unit i)) } }

/-- The entry's unit is complete on its module and has not been reported (R398). -/
def UnitEntry.complete (x : UnitEntry) : Bool :=
  x.v && !x.fired && !x.reported && x.live == 0 && (x.level == 1 || x.closed)

/-- A complete unit's report goes to HOME. -/
def State.reportUnit (s : State) (m i : Nat) : State :=
  let x := (s.mod m).io.unit i
  if x.complete then
    (s.onUnit m i fun x => { x with reported := true }).send m ioUnit 0 ⟨x.home, ioUnit⟩ 6
      (.unitReport x.level x.id x.status 0)
  else s

/-- The modules that hold an entry of the unit (R398, R399) (log 26, DEDUCED). -/
def State.unitModules (s : State) (level id : Nat) : List Nat :=
  (s.mods.filter fun p => (p.2.io.unitOf level id).isSome).map fun p => p.1

/-- A notice to every module of a unit, from module `m`. -/
def State.tellUnit (s : State) (m level id : Nat) (body : Body) : State :=
  (s.unitModules level id).foldl (fun s k => s.send m ioUnit 0 ⟨s.chip k, ioUnit⟩ 6 body) s

/-- A change of the entry of a unit, if the module has one. -/
def State.withUnit (s : State) (m level id : Nat) (f : Nat → UnitEntry → State) : State :=
  match (s.mod m).io.unitOf level id with
  | some (i, x) => f i x
  | none => s

/-- The unit above a unit is known from a record that has ended in it (R396) (log 26, DEDUCED). -/
def State.noteParent (s : State) (m level id parent : Nat) : State :=
  s.withUnit m level id fun i _ => s.onUnit m i fun x => { x with parent := some parent }

/-- A record of the placement ends (R398) (log 26, DEDUCED). -/
def State.endNotice (s : State) (m level id status phase job : Nat) : State :=
  let s := (s.noteParent m 2 phase job).noteParent m level id phase
  s.withUnit m level id fun i x =>
    (s.onUnit m i fun _ =>
      { x with
        live := x.live - 1
        status := max x.status status
        kills := if status = 3 then min 0xFFFF (x.kills + 1) else x.kills }).reportUnit m i

/-- FIRED and STATUS are set, the unit above has one live unit less, and the vector of the entry is raised (R398). -/
def State.fireUnit (s : State) (m level id status : Nat) : State :=
  s.withUnit m level id fun i x =>
    if x.fired then s
    else
      let s := s.onUnit m i fun x => { x with fired := true, status := status }
      let s :=
        match x.parent with
        | some p =>
          s.withUnit m (level + 1) p fun j y =>
            (s.onUnit m j fun _ => { y with live := y.live - 1, status := max y.status status }).reportUnit m j
        | none => s
      let vec := tget 0 (s.mod m).io.uvec i
      if vec.getLsbD 31 then s.signal m (vec.toNat % 64) else s

/-- A report at HOME: NMOD falls, and at 0 the counter fires on every module of the unit (R398). -/
def State.unitReport (s : State) (m level id status : Nat) : State :=
  s.withUnit m level id fun i x =>
    let y := { x with nmod := x.nmod - 1, combined := max x.combined status }
    let s := s.onUnit m i fun _ => y
    if x.nmod ≤ 1 then s.tellUnit m level id (.fire level id y.combined) else s

/-- The record belongs to the unit. -/
def RecEntry.inUnit (r : RecEntry) (level id : Nat) : Bool :=
  match level with
  | 1 => r.placement == id
  | 2 => r.phase == id
  | _ => r.job == id

/-- A cell cancels its records of a unit (R399). -/
def Cell.cancelUnit (c : Cell) (level id : Nat) : Cell :=
  c.recs.foldl (fun c p => if p.2.state != .free && p.2.inUnit level id then c.cancelEntry p.1 else c) c

/-- The cells of a bitmap. -/
def cellsOf (b : BitVec 1024) : List Nat := (List.range 1024).filter fun u => b.getLsbD u

/-- The cells of a module that hold a record of a placement. -/
def State.placedCells (s : State) (m id : Nat) : List Nat :=
  ((s.mod m).cells.filter fun p => p.2.recs.any fun r => r.2.state != .free && r.2.placement == id).map fun p => p.1

/-- The cells that a cancel from HOME reaches: those of CELLS, and for a placement also those that hold its records where no
entry names them (R399, R422) (log 26, DEDUCED). -/
def State.cancelCells (s : State) (m level id : Nat) : List Nat :=
  let named :=
    match (s.mod m).io.unitOf level id with
    | some (_, x) => cellsOf x.cells
    | none => []
  (named ++ if level = 1 then s.placedCells m id else []).eraseDups

/-- HOME notes a cancel in its entry of the unit, so that the counter fires with CANCELLED, or with KILLED (R399). -/
def State.noteCancel (s : State) (m level id : Nat) : State :=
  s.withUnit m level id fun i x => if x.fired then s else s.onUnit m i fun _ => { x with combined := max x.combined 2 }

/-- A cancel of a unit at an I/O die: on its way to HOME, at HOME, or from HOME to the cells (R399). -/
def State.cancelNotice (s : State) (m level id : Nat) (forwarded : Bool) : State :=
  if forwarded then
    (s.cancelCells m level id).foldl (fun s u => s.send m ioUnit 0 ⟨s.chip m, u⟩ 6 (.cancelNote level id true)) s
  else s.withUnit m level id fun _ x =>
    if x.home = s.chip m then (s.noteCancel m level id).tellUnit m level id (.cancelNote level id true)
    else s.send m ioUnit 0 ⟨x.home, ioUnit⟩ 6 (.cancelNote level id false)

/-! ### The steps -/

/-- BIND_NOTICE (R398). -/
def execBindNotice (s : State) : Out :=
  match s.arrival s.focus.j with
  | some x =>
    match x.body with
    | .bindNote level id =>
      let t := s.dropMsg x.id
      .next (t.withUnit x.mod level id fun i y => t.onUnit x.mod i fun _ => { y with live := y.live + 1 })
    | _ => .refused (.eventNotDue "BIND_NOTICE")
  | none => .refused (.eventNotDue "BIND_NOTICE")

/-- END_NOTICE (R398). -/
def execEndNotice (s : State) : Out :=
  match s.arrival s.focus.j with
  | some x =>
    match x.body with
    | .endNote level id status phase job => .next ((s.dropMsg x.id).endNotice x.mod level id status phase job)
    | _ => .refused (.eventNotDue "END_NOTICE")
  | none => .refused (.eventNotDue "END_NOTICE")

/-- UNIT_REPORT (R398). -/
def execUnitReport (s : State) : Out :=
  match s.arrival s.focus.j with
  | some x =>
    match x.body with
    | .unitReport level id status _ => .next ((s.dropMsg x.id).unitReport x.mod level id status)
    | _ => .refused (.eventNotDue "UNIT_REPORT")
  | none => .refused (.eventNotDue "UNIT_REPORT")

/-- FIRE_NOTICE (R398). -/
def execFireNotice (s : State) : Out :=
  match s.arrival s.focus.j with
  | some x =>
    match x.body with
    | .fire level id status => .next ((s.dropMsg x.id).fireUnit x.mod level id status)
    | _ => .refused (.eventNotDue "FIRE_NOTICE")
  | none => .refused (.eventNotDue "FIRE_NOTICE")

/-- CANCEL_NOTICE, at an I/O die or at a cell (R399). -/
def execCancelNotice (s : State) : Out :=
  match s.arrival s.focus.j with
  | some x =>
    match x.body with
    | .cancelNote level id forwarded =>
      let t := s.dropMsg x.id
      .next (if x.dst.unit = ioUnit then t.cancelNotice x.mod level id forwarded
        else t.onCell x.mod x.dst.unit fun c => c.cancelUnit level id)
    | _ => .refused (.eventNotDue "CANCEL_NOTICE")
  | none => .refused (.eventNotDue "CANCEL_NOTICE")

/-- UNIT_CLOSE (R398). -/
def execUnitClose (s : State) : Out :=
  match s.write .unitClose with
  | some (m, off, w, _) =>
    let i := (off - 0x450000) / 256
    .next ((s.onUnit m i fun x => x.put 1 w).reportUnit m i)
  | none => .refused (.eventNotDue "UNIT_CLOSE")

/-- A wait for a unit ends: it has fired, or no valid entry holds it (R399). -/
def IoDie.unitReady (io : IoDie) (w : UnitWait) : Bool :=
  match io.unitOf w.level w.id with
  | some (_, x) => x.fired
  | none => true

/-- The first query of an I/O die that can be answered. -/
def IoDie.readyWait (io : IoDie) : Option UnitWait := io.unitWaits.find? fun w => io.unitReady w

/-- The answer to a query leaves. -/
def State.answerWait (s : State) (m : Nat) (w : UnitWait) : State :=
  (s.onMod m fun x => { x with io := { x.io with unitWaits := x.io.unitWaits.filter fun y => y != w } }).send m ioUnit 0
    ⟨s.chip m, w.unit⟩ 6 (.unitAnswer w.strand w.since)

/-- The answer reaches the strand whose wait it belongs to. -/
def Strand.answered (st : Strand) (since : Nat) : Strand :=
  { st with waiting := { st.waiting with
      unit := st.waiting.unit.map fun w => if w.since = since then { w with answered := true } else w } }

/-- UNIT_WAIT_ANSWER (R163, R399): of message `focus.j`, a query that reaches the I/O die or the answer that reaches the
waiting unit; with `focus.u` the I/O die, of a query that waits there. -/
def execUnitWaitAnswer (s : State) : Out :=
  let f := s.focus
  if f.u = ioUnit then
    match (s.mod f.m).io.readyWait with
    | some w => .next (s.answerWait f.m w)
    | none => .refused (.eventNotDue "UNIT_WAIT_ANSWER")
  else
    match s.arrival f.j with
    | some x =>
      match x.body with
      | .unitQuery level id k since =>
        .next ((s.dropMsg x.id).onMod x.mod fun y =>
          { y with io := { y.io with unitWaits := y.io.unitWaits ++ [⟨x.src.unit, k, level, id, since⟩] } })
      | .unitAnswer k since => .next ((s.dropMsg x.id).onStrand x.mod x.dst.unit k fun st => st.answered since)
      | _ => .refused (.eventNotDue "UNIT_WAIT_ANSWER")
    | none => .refused (.eventNotDue "UNIT_WAIT_ANSWER")

end Sys2Proof.Machine
end

