-- ==== Sys2Proof/Machine/Boot.lean ====
section
/-! DEFINITION. Module reset, boot and the ready bitmap (R34, R379, R415 to R419, R427, R428). -/

namespace Sys2Proof.Machine

/-! ### Reset and power (R34, R415, R427, R428) -/

/-- The module returns to its Reset values; what the host holds is not the module's. What was inside it, or on its way to it,
is lost (log 3, DEDUCED) (log 52, DEDUCED). -/
def State.resetModule (s : State) (m : Nat) (powered : Bool) : State :=
  let io := (s.mod m).io
  { s with
    mods := tput s.mods m { Module.reset with io := { IoDie.reset with
      powered := powered, bootAt := s.cycle, hostMem := io.hostMem, msix := io.msix } }
    net := s.net.filter fun x => x.mod != m
    flits := s.flits.filter fun f => f.to'.m != m
    cur := s.cur.filter fun b => b.m != m }

def State.hasModule (s : State) (m : Nat) : Bool := s.mods.any fun p => p.1 == m

/-- MODULE_RESET of module `focus.m`: its reset pin (R415, R428). -/
def execModuleReset (s : State) : Out :=
  if s.hasModule s.focus.m then .next (s.resetModule s.focus.m true) else .refused (.eventNotDue "MODULE_RESET")

/-- POWER_LOSS: every item of the module's state is lost (R34). -/
def execPowerLoss (s : State) : Out :=
  if s.hasModule s.focus.m then .next (s.resetModule s.focus.m false) else .refused (.eventNotDue "POWER_LOSS")

/-- TEMP takes a new value (log 45, DEDUCED). -/
def State.setTemp (s : State) (m v : Nat) : State := s.onMod m fun x => { x with io := { x.io with temp := v } }

/-- THERMAL_THROTTLE: TEMP takes the value `focus.v`; from 1,050 on CEIL is at most 16 (R427). -/
def execThermalThrottle (s : State) : Out :=
  let f := s.focus
  if f.v < 1150 then
    .next ((s.setTemp f.m f.v).onMod f.m fun x =>
      { x with io := { x.io with pceil := if 1050 ≤ f.v then min 16 x.io.pceil else x.io.pceil } })
  else .refused (.eventNotDue "THERMAL_THROTTLE")

/-- THERMAL_SHUTDOWN: from 1,150 on the dies lose power (R34, R427). -/
def execThermalShutdown (s : State) : Out :=
  let f := s.focus
  if 1150 ≤ f.v then .next ((s.setTemp f.m f.v).resetModule f.m false) else .refused (.eventNotDue "THERMAL_SHUTDOWN")

/-! ### Self-test and the boot image (R415 to R418) -/

/-- The I/O die has finished its self-test, at the latest 65,536 cycles after reset; one that fails it stays in RESET
(R415) (log 2, DESIGN CHOICE). -/
def IoDie.tested (io : IoDie) (m cycle : Nat) : Bool :=
  io.powered && io.boot == .reset && (Config.selfTest m io.bootAt).any fun d => decide (io.bootAt + min d 65536 ≤ cycle)

/-- What a receive buffer held while its module was in RESET leaves it (R415). -/
def Link.releaseHeld (k : Link) : Link := { k.drain 7 k.heldFlits false with heldFlits := 0 }

/-- SELF_TEST_DONE (R415). -/
def execSelfTestDone (s : State) : Out :=
  let m := s.focus.m
  if (s.mod m).io.tested m s.cycle then
    .next ((s.onMod m fun x =>
      { x with io := { x.io with
        boot := .wait, stage := [], qsram := [], units := []
        links := x.io.links.map fun (p : Nat × Link) => (p.1, p.2.releaseHeld) } }).setReady m 35 0 true)
  else .refused (.eventNotDue "SELF_TEST_DONE")

/-- Verification of the staged image begins; how long firmware takes is open. -/
def State.startVerify (s : State) (m : Nat) : State :=
  { s with free := s.free + 1 }.onMod m fun x =>
    { x with io := { x.io with boot := .verify, bootAt := s.cycle + 1 + Config.firmwareDelay s.free } }

/-- BOOT_GO: ignored outside WAIT (R414, R417). -/
def execBootGo (s : State) : Out :=
  match s.write .bootGo with
  | some (m, _, _, _) => .next (if (s.mod m).io.boot = .wait then s.startVerify m else s)
  | none => .refused (.eventNotDue "BOOT_GO")

/-- BOOT_IMAGE_ARRIVAL of message `focus.j`: the first image is staged in WAIT, held in RESET, and every later copy is
discarded (R415, R418). -/
def execBootImageArrival (s : State) : Out :=
  match s.arrival s.focus.j with
  | some x =>
    match x.body with
    | .image true data =>
      match (s.mod x.mod).io.boot with
      | .reset => .refused (.eventNotDue "BOOT_IMAGE_ARRIVAL")
      | .wait =>
        .next (((s.dropMsg x.id).onMod x.mod fun y =>
          { y with io := { y.io with stage := memRun 0 data, imageLink := some x.strand } }).startVerify x.mod)
      | _ => .next (s.dropMsg x.id)
    | _ => .refused (.eventNotDue "BOOT_IMAGE_ARRIVAL")
  | none => .refused (.eventNotDue "BOOT_IMAGE_ARRIVAL")

/-! ### Verification (R416, R417) -/

/-- Body length, body and digest of a staged image. -/
def IoDie.bodyLength (io : IoDie) : Nat := (memWord io.stage 8).toNat
def IoDie.body (io : IoDie) : List Byte := memBytes io.stage 0xC40 io.bodyLength
def IoDie.bootDigest (io : IoDie) : List Byte := shake256 (memBytes io.stage 0 16 ++ io.body)

/-- The 64 bytes of the fused root-key hash (log 9, DESIGN CHOICE). -/
def rootKeyHash : List Byte := (List.range 64).map Config.rootKeyHash

/-- ERR of R414: magic and length first, then the key's hash, then the signature; 0 where all pass
(log 9, DESIGN CHOICE) (log 48, DEDUCED). -/
def IoDie.verifyError (io : IoDie) : Nat :=
  if memWord io.stage 0 ≠ 0x47583742 then 1
  else if 960 * 1024 < 0xC40 + io.bodyLength then 4
  else if shake256 (memBytes io.stage 0x10 1793) ≠ rootKeyHash then 2
  else if !Config.falconVerify (memBytes io.stage 0x10 1793) (memBytes io.stage 0x740 1280) io.bootDigest then 3
  else 0

/-- The functions that report after RUN (R419): the cells, the die meshes and the Spire cores, by their bits
(log 48, DEDUCED). -/
def reporters : List Nat := List.range 1024 ++ (List.range 4).map (fun i => 33 * 32 + i) ++ (List.range 8).map fun i => 34 * 32 + i

/-- When each of them that passes its self-test reports, at the latest 25,088 cycles after RUN (log 48, DEDUCED). -/
def reportTimes (m cycle : Nat) : List (Nat × Nat) :=
  reporters.filterMap fun f => (Config.functionTest m cycle f).map fun d => (f, cycle + min d 25088)

/-- What the I/O die holds once its image is verified (log 48, DEDUCED). -/
def IoDie.run (io : IoDie) (m cycle : Nat) : IoDie :=
  let body := io.body
  let id := Config.chipIdOf body (Config.serial m)
  let chip := match id with
    | some c => c.toNat
    | none => 0
  let own : Tab Route := if id.isSome && decide (chip < 1023) then [(chip, { Route.reset with v := true, here := true })] else []
  { io with
    boot := .run, bootErr := 0, cyc := 0, steer := 0, chip := chip, midValid := id.isSome
    image := memBytes io.stage 0 (0xC40 + io.bodyLength), imageDigest := io.bootDigest
    splits := (List.range 16).map fun p => (p, (Config.portSplit body p).val)
    routes := own, unready := reportTimes m cycle
    sfaultq := Config.firmwareRegister m ioUnit 0x34 &&& 0x800001FF
    pvec := (List.range 16).map fun p => (p, Config.firmwareRegister m ioUnit (0x100 + 4 * p) &&& 0x8000003F)
    spvec := (List.range 8).map fun k => (k, Config.firmwareRegister m ioUnit (0x320 + 4 * k) &&& 0x8000003F) }

/-- A link whose neighbour has trained it before, at SPLIT 0, stays as it is where the image's SPLIT of its port is 0
(R418). -/
def IoDie.keepsLink (io : IoDie) (l : Nat) : Bool :=
  io.split (l / 4) == 0 && ((io.link l).state == .up || (io.link l).state == .train || (io.link l).state == .retrain)

/-- The links train at full width; one that is UP takes its far end along (R417, R418) (log 48, DEDUCED). -/
def State.trainAll (s : State) (m : Nat) : State :=
  ((List.range 64).filter fun l => (s.mod m).io.linkExists l).foldl
    (fun s l =>
      let s := if (s.mod m).io.keepsLink l then s else s.commandTrain m l
      s.onLink m l fun k => { k with booting := true }) s

/-- The module has its chip id: the neighbours of its UP links see it in PNBR, and the firmware at either end writes the
other's routing entry (R379) (log 48, DEDUCED). -/
def State.nameLinks (s : State) (m : Nat) : State :=
  ((List.range 64).filter fun l => (s.link m l).state == .up).foldl
    (fun s l =>
      match s.farEnd ⟨m, l⟩ with
      | none => s
      | some q =>
        let s := s.onMod m fun z => { z with io := z.io.nameNeighbour l (s.mod q.m).io.midValid }
        (s.onLink q.m q.link fun k => { k with nbrChip := s.chip m }).onMod q.m fun z =>
          { z with io := z.io.nameNeighbour q.link (s.mod m).io.midValid }) s

/-- A Spire core loaded with the firmware (log 48, DEDUCED). -/
def State.loadFirmware (s : State) (m : Nat) (fw : List Byte) : State :=
  (List.range 8).foldl (fun s k => s.onCell m (1024 + k) fun c => { c with mem := memRun 0 fw }) s

/-- BOOT_VERIFY_DONE (R417). -/
def execBootVerifyDone (s : State) : Out :=
  let m := s.focus.m
  let io := (s.mod m).io
  if io.boot = .verify ∧ io.bootAt ≤ s.cycle then
    .next (if io.verifyError = 0 then
        let t := s.onMod m fun x => { x with io := x.io.run m s.cycle }
        ((t.loadFirmware m (Config.firmware io.body)).trainAll m).nameLinks m
      else s.onMod m fun x => { x with io := { x.io with boot := .fail, bootErr := io.verifyError } })
  else .refused (.eventNotDue "BOOT_VERIFY_DONE")

/-- A Spire core whose firmware is code of this instruction set starts it (log 11, PRESUMED). -/
def State.startSpire (s : State) (m u : Nat) : State :=
  match Config.spireEntry (s.mod m).io.body with
  | some pc => s.onStrand m u 0 fun _ => { Strand.resetSpire with mode := .running, pc := pc, lastIssue := s.cycle }
  | none => s

/-- FUNCTION_READY of the function with bit `focus.j` of the ready bitmap (R419). -/
def execFunctionReady (s : State) : Out :=
  let f := s.focus
  if (s.mod f.m).io.unready.any fun p => p.1 == f.j && decide (p.2 ≤ s.cycle) then
    let t := (s.onMod f.m fun x =>
      { x with io := { x.io with unready := x.io.unready.filter fun p => p.1 != f.j } }).setReady f.m (f.j / 32) (f.j % 32) true
    .next (if 34 * 32 ≤ f.j then t.startSpire f.m (1024 + f.j % 32) else t)
  else .refused (.eventNotDue "FUNCTION_READY")

/-! ### The image's way to the neighbours (R418) -/

/-- A message on VC 7 over one link. -/
def State.sendOver (s : State) (m l : Nat) (body : Body) : State :=
  { s with
    net := s.net ++ [⟨s.nextId, m, .link l 0, ⟨s.chip m, ioUnit⟩, 0, ⟨s.chip m, ioUnit⟩, 7, body, []⟩]
    nextId := s.nextId + 1 }

/-- A module in RUN sends its verified image over each UP link over which it has not, but for the one on which it came. -/
def State.forwardImages (s : State) (m : Nat) : State :=
  let io := (s.mod m).io
  if io.boot = .run then
    ((List.range 64).filter fun l => (io.link l).state == .up && !(io.link l).imaged && io.imageLink != some l).foldl
      (fun s l => (s.onLink m l fun k => { k with imaged := true }).sendOver m l (.image true io.image)) s
  else s

end Sys2Proof.Machine
end

