-- ==== Sys2Proof/Machine/Copy.lean ====
section
/-! DEFINITION. The copy and remote instructions: cset, cget, cpy, cpyb, rst, rstc, rld, rfadd, radd, rmax and rswp (R249 to
R265). -/

namespace Sys2Proof.Machine

/-- The first error that waits for a command of the copy engine (R265) (log 30, DEDUCED). -/
def View.copyLate (v : View) : List TrapReq := v.lateErr fun e => !e.array && e.cause != causeChanDead

def View.cset (v : View) (n : BitVec 5) : CopySet := v.cell.cd n.toNat
def View.here (v : View) : Addr := v.s.addr v.b.m v.b.u
def View.chip (v : View) : Nat := v.s.chip v.b.m

/-- cset (R252). -/
def execCset (e : Bool) (a : BitVec 6) (f n : BitVec 5) (s : State) : Out :=
  runSyl s (.cset e a f n) e fun v =>
    { engineSyl v true [a] 0 with
      dyn := v.illegalIf (!copyValue f.toNat (v.rs a)) ++ v.copyLate
      effects := [.cmd (.cset n.toNat f.toNat (v.rs a))] }

/-- cget (R252): a scoreboarded result. -/
def execCget (e : Bool) (d : BitVec 6) (f n : BitVec 5) (s : State) : Out :=
  runSyl s (.cget e d f n) e fun v =>
    { v.syl .engine true with
      names := [v.ps d]
      static := v.illegal true ++ v.declS [d]
      dyn := v.copyLate
      effects := [.cmd (.cget n.toNat f.toNat (v.ps d))] }

/-! ### The checks of a handle (R249, R250, R256) -/

/-- How far an access may reach from a handle's base: its page or window, or for a big copy the pages that follow (R247,
R256). -/
def Handle.reach (h : Handle) (big : Bool) : Nat :=
  if h.win then h.w2.toNat else if big then 0x800000 - h.w3.toNat % 128 * 65536 else 65536

/-- The first checks of every instruction that names a handle (R100) (log 17, DEDUCED). -/
def View.handleValid (v : View) (hn : Nat) : List TrapReq :=
  if (v.rh hn).valid then []
  else [trapReq (if (v.rh hn).rev then causeHandleRevoked else causeHandleInvalid) (BitVec.ofNat 32 hn)]

/-- The checks of R249 on `n` bytes at an offset of handle `hn`, in its order, with the region check of a local side in its
BOUNDS step and the page and detector checks of one at its end, where EA of R89 makes them (R184, R263) (log 17, DEDUCED).
-/
def View.handleSteps (v : View) (hn : Nat) (off : Word) (n align : Nat) (big read write remoteAtomic : Bool)
    (region page : List TrapReq) : List TrapReq :=
  let h := v.rh hn
  let num : Word := BitVec.ofNat 32 hn
  let if' (bad : Bool) (cause : BitVec 8) (val : Word) : List TrapReq := if bad then [trapReq cause val] else []
  v.handleValid hn ++
    if' (decide (h.reach big < off.toNat + n) || read && !h.permR) causeBounds off ++ region ++
    if' (off.toNat % align != 0) causeMisalign off ++ if' (write && !h.permW) causePermitW off ++
    if' (remoteAtomic && h.aper == 3 && !h.permRa) causePermitRa num ++ page

/-- The checks of the handle of an operation on another cell (R249): the first that fails is raised (log 17, DEDUCED). -/
def View.handleChecks (v : View) (hn : Nat) (off : Word) (n align : Nat) (big read write remoteAtomic : Bool) :
    List TrapReq :=
  firstTrap (v.handleSteps hn off n align big read write remoteAtomic [] [])

/-- The checks of one side of a copy or block read: those of its handle, in whose page or window `room` bytes must lie, and
for a local side the region of its `n` bytes, its page and its detector, in the order of EA (R184, R186, R202, R257, R263)
(log 17, DEDUCED). -/
def View.sideChecks (v : View) (hn : Nat) (off : Word) (room n align : Nat) (big write : Bool) : List TrapReq :=
  let h := v.rh hn
  let at' := (h.target v.here off.toNat).2
  let local' (ts : List TrapReq) : List TrapReq := if h.aper = 0 then ts else []
  firstTrap (v.handleSteps hn off room align big (!write) write false (local' (v.engineRegionAt at' n write false off))
    (local' ((if write && h.disc then [trapReq causeDiscardWrite off] else []) ++ v.engineRaceAt at' n off)))

/-- A migrating page holds the command back: a write always, a read only where it is remote (R250, R186). -/
def Handle.migrates (h : Handle) (write : Bool) : Bool := h.mig && !h.disc && (write || h.aper != 0)

/-- The copy engine or the scoreboard has no room (R255, R198). -/
def View.copyFull (v : View) : Bool := decide (32 ≤ v.cell.ops.length) || v.scbFull 1

/-- A write-type command to another cell has no token entry, or its carried token no slot (R255, R365). -/
def View.tokenFull (v : View) (carry : Word) (disc : Bool) : Bool :=
  (!v.spire && v.cell.freeToken.isNone) || (!disc && v.cell.slotsFull v.chip v.b.u carry)

/-- LTOK takes a token with L = 1 (R82, R257, R260). -/
def View.landTok (v : View) (tok : Word) : Effect := .land (v.landing (.sp 4) (.word tok) 1)

/-- The plain access that a local one-sided operation is (R263). -/
def RemoteKind.access (r : RemoteKind) : Access :=
  match r with
  | .rld => .load
  | .rst => .store
  | .rstc => .store
  | _ => .atomic

/-- LTOK of a local operation is 0; one performed as a local atomic on an uncorrectable word taints the strand as it lands
(R263, R430). -/
def View.landLocal (v : View) (kind : RemoteKind) (c : Nat) : Effect :=
  .land { v.landing (.sp 4) (.word 0) 1 with taint := if kind.access = .atomic then loadTaint v c 4 false else none }

/-- A Spire core writes, by rst or rstc, a word of a cell's control registers that uses what the register's table reserves
(R2). -/
def View.writesReserved (v : View) (kind : RemoteKind) (h : Handle) (off x : Word) : Bool :=
  let to' := h.target v.here off.toNat
  v.spire && (kind == .rst || kind == .rstc) && !(isSpire to'.1.unit) && decide (0x700000 ≤ to'.2) &&
    cellReserved (to'.2 - 0x700000) x

/-- cpy and cpyb (R256 to R259): a handle that is not valid or revoked comes before every other check (R100); then the checks
of the source's side, those of the destination's, and those of the lengths (log 17, DEDUCED). -/
def sylCopy (v : View) (a b : BitVec 6) (n : BitVec 5) (t : BitVec 6) (big : Bool) : Syl :=
  let x := v.cset n
  let sh := x.sh.toNat
  let dh := x.dh.toNat
  let len := x.len.toNat
  let align := if big then 256 else 4
  let src := v.rh sh
  let dst := v.rh dh
  let dstAt := dst.target v.here (v.rs b).toNat
  let far := dst.aper != 0
  let y := engineSyl v true [a, b] t
  { y with
    dests := [(.sp 4, 1)]
    specials := [.sp 4]
    static := y.static ++ v.declH [sh, dh]
    dyn := firstTrap (v.handleValid sh ++ v.handleValid dh ++ v.sideChecks sh (v.rs a) len len align big false ++
        v.sideChecks dh (v.rs b) len len align big true) ++
      (if len % align != 0 || !big && decide (65536 < len) then [engineErr 2 errLENGTH n.toNat] else []) ++
      (if x.andThen.getLsbD 31 && far then [engineErr 2 errTHENREMOTE n.toNat] else []) ++ v.copyLate
    blocked := src.migrates false || dst.migrates true || v.copyFull || (far && v.tokenFull x.carry dst.disc)
    effects := v.landTok (if far then v.cell.nextToken v.chip v.b.u else 0) ::
      (if src.disc then [.discRead] else []) ++ (if far then [] else v.engineRace dstAt.2 len) ++
      [.cmd (.copy n.toNat src dst (v.rs a) (v.rs b) (v.pt t))] }

def execCpy (e : Bool) (a b : BitVec 6) (n : BitVec 5) (t : BitVec 6) (s : State) : Out :=
  runSyl s (.cpy e a b n t) e fun v => sylCopy v a b n t false

def execCpyb (e : Bool) (a b : BitVec 6) (n : BitVec 5) (t : BitVec 6) (s : State) : Out :=
  runSyl s (.cpyb e a b n t) e fun v => sylCopy v a b n t true

/-! ### One-sided operations (R260 to R263) -/

/-- How the wait of a strand for a carried or awaited token stands: whether it goes on, and whether it failed (R263,
R377). -/
def View.tokenWait (v : View) (t : Word) : Bool × Bool :=
  if t = 0 then (false, false)
  else if tokenLocal v.chip v.b.u t then (v.cell.tokenPending t, false)
  else
    match v.cell.waitOf (.strand v.b.k) with
    | some w =>
      match w.state with
      | .landed => (false, false)
      | .failed _ => (false, true)
      | _ => (true, false)
    | none => (true, false)

/-- The wait for a foreign token begins with a WATCH (R377). -/
def View.beginsToken (v : View) (t : Word) : BeginWait :=
  if t ≠ 0 ∧ !(tokenLocal v.chip v.b.u t) then .token t else .nothing

/-- A one-sided operation with its handle in sel; `carried` is the token that rstc reads from st. -/
def sylOneSided (v : View) (kind : RemoteKind) (a b : BitVec 6) (r : BitVec 1) (h : BitVec 4) (t : BitVec 6)
    (carried : Word) : Syl :=
  let hn := h.toNat
  let hh := v.rh hn
  let off := v.rs a
  let reads := if kind = .rld then [a] else [a, b]
  let base := engineSyl v true reads t
  let y : Syl :=
    { base with
      reads := if kind = .rstc then base.reads ++ [v.ps t] else base.reads
      static := base.static ++ v.declH [hn] }
  let y : Syl := if kind = .rld then y else { y with dests := [(.sp 4, 1)], specials := [.sp 4] }
  if hh.valid ∧ hh.aper = 0 then
    match v.ea hn off.toInt 4 kind.access with
    | .trap tr => { y with dyn := tr :: v.copyLate }
    | .ok c disc mig =>
      if v.spire ∧ 2 ^ 20 ≤ c then { y with dyn := [trapReq causeBounds off] } else
      let (waits, failed) := v.tokenWait carried
      { y with
        dyn := v.copyLate ++ (if failed then [trapReq causeTokenExpired carried] else [])
        blocked := waits || mig || v.cell.held kind.access c 4
        begins := v.beginsToken carried
        effects := (if kind = .rld then [] else [v.landLocal kind c]) ++ (if disc then [.discRead] else []) ++
          (if kind.access = .store then v.engineRace c 4 else if disc then [] else v.finds [(c, 4)]) ++
          [.cmd (.localOp kind c (if disc then 0 else memWord v.cell.mem c) (kind == .rld && !disc && v.cell.corrupt c 4) (v.rs b) (v.pt t))] }
  else
    let isRead := kind = .rld
    let isWrite := kind = .rst ∨ kind = .rstc
    { y with
      dyn := firstTrap (v.handleChecks hn off 4 4 false (!isWrite) (!isRead) (!isWrite && !isRead) ++
          v.illegalIf (v.writesReserved kind hh off (v.rs b))) ++ v.copyLate
      blocked := hh.migrates true || v.copyFull || (!isRead && v.tokenFull carried hh.disc)
      effects := (if isRead then (if hh.disc then [.discRead] else [])
          else [v.landTok (v.cell.nextToken v.chip v.b.u)]) ++
        [.cmd (.remote kind (r == 1) hh off (v.rs b) carried (v.pt t))] }

def execRst (e : Bool) (a b : BitVec 6) (r : BitVec 1) (h : BitVec 4) (t : BitVec 6) (s : State) : Out :=
  runSyl s (.rst e a b r h t) e fun v => sylOneSided v .rst a b r h t 0

def execRstc (e : Bool) (a b : BitVec 6) (r : BitVec 1) (h : BitVec 4) (t : BitVec 6) (s : State) : Out :=
  runSyl s (.rstc e a b r h t) e fun v => sylOneSided v .rstc a b r h t (v.rs t)

def execRld (e : Bool) (a : BitVec 6) (r : BitVec 1) (h : BitVec 4) (t : BitVec 6) (s : State) : Out :=
  runSyl s (.rld e a r h t) e fun v => sylOneSided v .rld a 0 r h t 0

def execRfadd (e : Bool) (a b : BitVec 6) (r : BitVec 1) (h : BitVec 4) (t : BitVec 6) (s : State) : Out :=
  runSyl s (.rfadd e a b r h t) e fun v => sylOneSided v .rfadd a b r h t 0

def execRadd (e : Bool) (a b : BitVec 6) (r : BitVec 1) (h : BitVec 4) (t : BitVec 6) (s : State) : Out :=
  runSyl s (.radd e a b r h t) e fun v => sylOneSided v .radd a b r h t 0

def execRmax (e : Bool) (a b : BitVec 6) (r : BitVec 1) (h : BitVec 4) (t : BitVec 6) (s : State) : Out :=
  runSyl s (.rmax e a b r h t) e fun v => sylOneSided v .rmax a b r h t 0

def execRswp (e : Bool) (a b : BitVec 6) (r : BitVec 1) (h : BitVec 4) (t : BitVec 6) (s : State) : Out :=
  runSyl s (.rswp e a b r h t) e fun v => sylOneSided v .rswp a b r h t 0

/-- rld with a second register: 128 bytes at sa are written at the local offset sb; sa is bounded as a one-sided offset before
its alignment is checked (R247, R261). -/
def execRldBlock (e : Bool) (a b : BitVec 6) (r : BitVec 1) (h : BitVec 4) (t : BitVec 6) (s : State) : Out :=
  runSyl s (.rldBlock e a b r h t) e fun v =>
    let hn := h.toNat
    let hh := v.rh hn
    let at' := v.rs b
    let y := engineSyl v true [a, b] t
    { y with
      static := y.static ++ v.declH [hn]
      dyn := firstTrap (v.sideChecks hn (v.rs a) 4 128 128 false false ++ v.engineAligned at'.toNat 128 128 true false) ++
        v.copyLate
      blocked := hh.migrates false || v.copyFull
      effects := (if hh.disc then [.discRead] else []) ++ v.engineRace at'.toNat 128 ++
        [.cmd (.remote .rldBlock (r == 1) hh (v.rs a) at' 0 (v.pt t))] }

end Sys2Proof.Machine
end

