-- ==== Sys2Proof/Machine/Control.lean ====
section
/-! DEFINITION. Control flow, the record instructions and `fence` (R161 to R172, R196, R338 to R350). -/

namespace Sys2Proof.Machine

/-! ### Branches (R161, R162) -/

/-- The target of a branch: the bundle's first address plus off17, modulo 32,768 (R77). -/
def View.target (v : View) (o : BitVec 17) : BitVec 15 := v.b.pc + o.setWidth 15

/-- The effect of a branch with its condition. -/
def jumpIf (taken : Bool) (target : BitVec 15) : List Effect := if taken then [.cmd (.jump target)] else []

/-- A branch on a scalar register. -/
def sylBranchS (v : View) (c : BitVec 6) (o : BitVec 17) (taken : Word → Bool) : Syl :=
  { v.syl .control true with
    reads := [v.ps c]
    static := v.illegal true ++ v.declS [c]
    effects := jumpIf (taken (v.rs c)) (v.target o) }

/-- A branch on a predicate register. -/
def sylBranchQ (v : View) (c : BitVec 6) (o : BitVec 17) (taken : Word → Bool) : Syl :=
  { v.syl .control true with
    static := v.illegal true ++ v.declQ [c.toNat]
    effects := jumpIf (taken (v.rq c.toNat)) (v.target o) }

def execBr (e : Bool) (o : BitVec 17) (s : State) : Out :=
  runSyl s (.br e o) e fun v => { v.syl .control true with effects := jumpIf true (v.target o) }

def execBz (e : Bool) (c : BitVec 6) (o : BitVec 17) (s : State) : Out :=
  runSyl s (.bz e c o) e fun v => sylBranchS v c o fun x => x == 0

def execBnz (e : Bool) (c : BitVec 6) (o : BitVec 17) (s : State) : Out :=
  runSyl s (.bnz e c o) e fun v => sylBranchS v c o fun x => x != 0

def execBqa (e : Bool) (c : BitVec 6) (o : BitVec 17) (s : State) : Out :=
  runSyl s (.bqa e c o) e fun v => sylBranchQ v c o fun x => x == 0xFFFFFFFF

def execBqn (e : Bool) (c : BitVec 6) (o : BitVec 17) (s : State) : Out :=
  runSyl s (.bqn e c o) e fun v => sylBranchQ v c o fun x => x == 0

/-- call: s63 takes the address after the bundle (R162). -/
def execCall (e : Bool) (o : BitVec 17) (s : State) : Out :=
  runSyl s (.call e o) e fun v =>
    { v.syl .control true with
      dests := [(.s 63, 1)]
      names := [63]
      static := v.illegal true ++ v.declS [63]
      effects := .link (v.landing (.s 63) (.word 0) 1) :: jumpIf true (v.target o) }

/-- jr (R162). -/
def execJr (e : Bool) (a : BitVec 6) (s : State) : Out :=
  runSyl s (.jr e a) e fun v =>
    { v.syl .control true with
      reads := [v.ps a]
      static := v.illegal true ++ v.declS [a]
      effects := jumpIf true ((v.rs a).setWidth 15) }

/-! ### Traps and return (R167, R172) -/

/-- trap n and ebrk n (R167). -/
def sylTrap (v : View) (cause : BitVec 8) (n : BitVec 23) : Syl :=
  { v.syl .control true with dyn := [trapReq cause (n.setWidth 32)] }

def execTrap (e : Bool) (n : BitVec 23) (s : State) : Out :=
  runSyl s (.trap e n) e fun v => sylTrap v causeSwTrap n

def execEbrk (e : Bool) (n : BitVec 23) (s : State) : Out :=
  runSyl s (.ebrk e n) e fun v => sylTrap v causeEbrk n

/-- rtt (R172). -/
def execRtt (e : Bool) (s : State) : Out :=
  runSyl s (.rtt e) e fun v =>
    { v.syl .control true with
      static := v.illegal true ++ v.privileged
      effects := [.cmd .rtt] }

/-- halt (R164): it waits for the strand's deliveries and operations, and on a bound strand for its siblings (R351); in a
handler of a cell strand it is ILLEGAL_OP (log 21, DEDUCED). -/
def execHalt (e : Bool) (s : State) : Out :=
  runSyl s (.halt e) e fun v =>
    { v.syl .control true with
      static := v.illegal true ++ v.illegalIf (!v.spire && v.st.tl != 0)
      blocked := !v.st.pend.isEmpty || v.cell.busy v.st.recid.toNat (some v.b.k) ||
        (!v.spire && !v.st.sibling && !(v.cell.siblings v.st.entry).isEmpty)
      effects := [.cmd .halt] }

/-- yield (R165). -/
def execYield (e : Bool) (s : State) : Out :=
  runSyl s (.yield e) e fun v => { v.syl .control true with effects := [.cmd .yield] }

/-! ### Waiting for a unit, and `loop` (R163, R342) -/

/-- wait (R163): it stops when the strand's record is cancelled; at level 0 it reads the record cache, at levels 1 to 3 it
asks the I/O die (R399). -/
def execWait (e : Bool) (a : BitVec 6) (s : State) : Out :=
  runSyl s (.wait e a) e fun v =>
    let x := v.rs a
    let level := x.toNat / 2 ^ 16 % 4
    { v.syl .control true with
      reads := [v.ps a]
      static := v.illegal true ++ v.declS [a]
      blocked :=
        if level = 0 then !(completion v.cell (v.s.mod v.b.m).io x).getLsbD 31
        else !(v.st.waiting.unit.any fun w => w.answered)
      begins := if level = 0 then .nothing else .unit level x
      loop := if !v.spire && v.rcd.cancelled then .stop else .none
      effects := [.acquire, .cmd .wait] }

/-- The record that the strand runs ends its kernel at this `loop` (R342, case 3) (log 18, DEDUCED). -/
def View.loopEnds (v : View) : Bool :=
  if v.rcd.desc.arrival then v.cell.trigOf v.rcd.desc == .eos else v.st.lc == 0

/-- Another record bound to the strand is eligible (R342, case 6). -/
def View.otherEligible (v : View) : Bool :=
  v.cell.recs.any fun p => p.1 != v.st.entry && p.2.strand == v.b.k && v.cell.eligible p.2

/-- loop (R342): the first case of the rule that holds. -/
def execLoop (e : Bool) (s : State) : Out :=
  runSyl s (.loop e) e fun v =>
    let d := v.rcd.desc
    let short := v.cell.shortOf d
    let empty := v.cell.trigOf d == .empty
    let y := { v.syl .control false with
      specials := loopSpecials
      static := v.illegal false ++ v.illegalIf (!v.spire && (v.st.tl != 0 || v.st.sibling)) }
    let step (start : Bool) : Effect := .land (v.landing .iter (.loopStep start (start && !d.arrival)) 1)
    if v.rcd.cancelled then { y with loop := .stop }
    else
      match v.cell.deadEnd d with
      | some n => { y with dyn := [trapReq causeChanDead (BitVec.ofNat 32 n)] }
      | none =>
        if v.loopEnds then { y with loop := .fin, effects := [step false, .cmd .loopEnd] }
        else if v.st.preq then { y with loop := .park }
        else if !empty && short.isEmpty then { y with loop := .start, effects := [step true, .cmd .loopStart] }
        else if v.otherEligible then { y with loop := .park }
        else { y with loop := .wait, fbcWait := short, starved := empty }

/-! ### Records (R338, R340, R343, R349, R350) -/

/-- spawn (R343): SPAWN_BUSY without an IDLE strand. -/
def execSpawn (e : Bool) (c : BitVec 6) (o : BitVec 17) (s : State) : Out :=
  runSyl s (.spawn e c o) e fun v =>
    let regs := (List.range 8).map fun i => c + BitVec.ofNat 6 i
    let t := v.target o
    { v.syl .control false with
      reads := regs.map v.ps
      static := v.illegal false ++ v.declS regs
      dyn := if v.cell.idleStrand.isNone then [trapReq causeSpawnBusy (t.setWidth 32)] else []
      effects := [.cmd (.spawn t c.toNat (regs.map v.rs))] }

/-- bind (R338): a release; its descriptor is checked as an engine read. -/
def execBind (e : Bool) (d a : BitVec 6) (s : State) : Out :=
  runSyl s (.bind e d a) e fun v =>
    let x := v.rs a
    { v.syl .control false with
      reads := [v.ps a]
      names := [v.ps d]
      static := v.illegal false ++ v.declS [d, a]
      dyn := firstTrap ((if x.toNat % 256 = 0 then [] else [trapReq causeMisalign x]) ++
        v.engineRange x.toNat 256 false false)
      blocked := v.scbFull 1
      effects := [.release, .cmd (.bind x (v.ps d))] }

/-- unbind (R340): a RUNNING or PARKED record raises ENGINE_ERR. -/
def execUnbind (e : Bool) (a : BitVec 6) (s : State) : Out :=
  runSyl s (.unbind e a) e fun v =>
    let live : Option Nat :=
      match v.cell.entryOf ((v.rs a).setWidth 16) with
      | some j =>
        match (v.cell.record j).state with
        | .running => some j
        | .parked => some j
        | _ => none
      | none => none
    { v.syl .control false with
      reads := [v.ps a]
      static := v.illegal false ++ v.declS [a]
      dyn := match live with
        | some j => [engineErr 5 1 j]
        | none => []
      effects := [.cmd (.unbind (v.rs a))] }

/-- cancel (R349). -/
def execCancel (e : Bool) (a : BitVec 6) (l : BitVec 11) (s : State) : Out :=
  runSyl s (.cancel e a l) e fun v =>
    { v.syl .control true with
      reads := [v.ps a]
      static := v.illegal true ++ v.declS [a]
      effects := [.cmd (.cancel l.toNat (v.rs a))] }

/-- prio (R350); a Spire core runs under no record. -/
def execPrio (e : Bool) (a : BitVec 6) (s : State) : Out :=
  runSyl s (.prio e a) e fun v =>
    { v.syl .control true with
      reads := [v.ps a]
      static := v.illegal true ++ v.declS [a]
      effects := if v.spire then [] else [.cmd (.prio (v.rs a))] }

/-! ### fence (R196) -/

/-- The node `a` lies within a scope of the issuing strand. The units of the I/O die beside the cells count as one die
(log 20, DEDUCED). -/
def View.inScope (v : View) (scope : Nat) (a : Addr) : Bool :=
  match scope with
  | 0 => a == v.here
  | 1 => a == v.here
  | 2 => a.chip == v.chip && min 4 (dieOf a.unit) == min 4 (dieOf v.b.u)
  | 3 => a.chip == v.chip
  | _ => true

/-- The operation belongs to the issuing strand (log 20, DEDUCED). -/
def View.mine (v : View) (k recid : Nat) : Bool := k == v.b.k && recid == v.st.recid.toNat

/-- A command that still reads bytes elsewhere than from its request. -/
def EngOp.reading (o : EngOp) : Bool :=
  o.err == 0 && !o.zeros &&
    (match o.kind with
      | .copy => decide (o.next < o.sectors) || o.out.any fun q => q.req.isRead
      | .readWord => true
      | .readBlock => true
      | _ => false)

/-- The node that performs the operation whose delivery a register waits for (R196). -/
def View.pendTarget (v : View) (op : Nat) : Addr :=
  match v.cell.engOp op with
  | some o => o.target.getD v.here
  | none =>
    match v.cell.waits.find? fun w => match w.what with
        | .query _ _ n => n == op
        | _ => false with
    | some w => tokenOrigin w.token
    | none => if v.cell.qwaits.any fun q => q.op == op then ⟨v.chip, ioUnit⟩ else v.here

/-- Engine commands of the strand that have yet to read the cell's stores: wlds, passes with rows to feed, drains with a tile,
chain parameters, pushes and binds. -/
def View.localReads (v : View) : Bool :=
  let c := v.cell
  (c.arr.wlds.any fun w => v.mine w.k w.recid) || (c.arr.passes.any fun p => v.mine p.k p.recid && !p.swap && decide (p.next < p.m.rows)) ||
    (c.arr.drains.any fun d => v.mine d.k d.recid && !(d.tileReads d.next).isEmpty) || (c.arr.armings.any fun g => v.mine g.k g.recid) ||
    (c.pushes.any fun j => v.mine j.k j.recid) || (c.binds.any fun j => j.k == v.b.k && j.entry == v.st.entry)

/-- Drains of the strand that leave to its cell's D-store. -/
def View.localWrites (v : View) : Bool :=
  v.cell.arr.drains.any fun d => v.mine d.k d.recid && !(d.writes d.next).isEmpty

/-- The strand has a qpush whose entry is not read, or a qpop whose entry is not written; both are performed by the module's
I/O die (R196, R329). -/
def View.queueOpen (v : View) (push : Bool) (scope : Nat) : Bool :=
  v.inScope scope ⟨v.chip, ioUnit⟩ && v.cell.qwaits.any fun q => v.mine q.k q.recid && q.push == push && !(push && q.sent)

/-- A read-type operation within the scope has not been performed (log 20, DEDUCED). -/
def View.readsOpen (v : View) (scope : Nat) : Bool :=
  v.localReads || v.queueOpen true scope ||
    (v.cell.ops.any fun o => v.mine o.k o.recid && o.reading && v.inScope scope (o.src.getD v.here)) ||
    v.st.pend.any fun p => v.inScope scope (v.pendTarget p.op)

/-- A write-type operation within the scope has not been performed; the local write of a block rld is one in every scope
(log 20, DEDUCED). -/
def View.writesOpen (v : View) (scope : Nat) : Bool :=
  v.localWrites || v.queueOpen false scope || v.cell.ops.any fun o =>
    v.mine o.k o.recid && (o.writes || o.kind == EngKind.readBlock) && v.inScope scope (o.dst.getD v.here)

/-- A token that the strand has issued has not landed (log 20, DEDUCED). -/
def View.tokensOpen (v : View) : Bool :=
  v.cell.tokens.any fun p => v.mine p.2.k p.2.recid && (p.2.state == .pending || p.2.state == .join)

/-- fence (R196, R201, R265). -/
def execFence (e : Bool) (k : BitVec 2) (w : BitVec 3) (s : State) : Out :=
  runSyl s (.fence e k w) e fun v =>
    let scope := w.toNat
    let acq := k == 0 || k == 2
    let rel := k == 1 || k == 2
    { v.syl .memory true with
      dyn := if rel then v.lateErr fun x => !x.array && v.inScope scope ⟨x.chip, x.unit⟩ else []
      blocked := (acq && v.readsOpen scope) || (rel && v.writesOpen scope) || (scope == 4 && v.tokensOpen)
      effects := (if rel && scope != 0 then [.release] else []) ++ (if acq && scope != 0 then [.acquire] else []) ++
        [.cmd (.fence k.toNat scope)] }

end Sys2Proof.Machine
end

