-- ==== Sys2Proof/Machine/Handles.lean ====
section
/-! DEFINITION. xlat, hinv and hchk (R114 to R116). -/

namespace Sys2Proof.Machine

/-- The lowest-indexed valid entry whose tag is `page` (R114, R355). -/
def Cell.lookup (c : Cell) (page : Nat) : Option (Nat × XEntry) :=
  c.xset.find? fun p => p.2.valid && p.2.tag.toNat == page

/-- A syllable of class M that names a handle as destination (R114, R115). -/
def sylToH (v : View) (d : BitVec 6) (srcs : List (BitVec 6)) (val : Handle) (lat : Nat) : Syl :=
  { v.syl .memory true with
    dests := [(.h d.toNat, lat)]
    reads := srcs.map v.ps
    static := v.illegal true ++ v.declH [d.toNat] ++ v.declS srcs
    effects := [.land (v.landing (.h d.toNat) (.handle val) lat)] }

/-- The handle record that xlat makes of entry `i` (R114). -/
def pageHandle (i : Nat) (e : XEntry) (hi lo : Word) : Handle where
  w0 := 0x80000000 ||| (e.flags &&& 0x1FE00000) ||| BitVec.ofNat 32 i
  w1 := hi &&& 0xFFFF
  w2 := lo &&& 0xFFFF0000
  w3 := e.frame

/-- xlat: a page handle, or XLAT_MISS, which kills the context (R114). -/
def execXlat (e : Bool) (d a b : BitVec 6) (s : State) : Out :=
  runSyl s (.xlat e d a b) e fun v =>
    let page := (v.rs a).toNat % 2 ^ 16 * 2 ^ 16 + (v.rs b).toNat / 2 ^ 16
    match v.cell.lookup page with
    | some (i, x) => sylToH v d [a, b] (pageHandle i x (v.rs a) (v.rs b)) 6
    | none => { sylToH v d [a, b] Handle.zero 6 with dyn := [trapReq causeXlatMiss (v.rs b)] }

/-- hinv: V and REV cleared (R115). -/
def execHinv (e : Bool) (d : BitVec 6) (s : State) : Out :=
  runSyl s (.hinv e d) e fun v => sylToH v d [] (v.rh d.toNat).clear 1

/-- hchk: word 0 of the handle as it stands (R116). -/
def execHchk (e : Bool) (d a : BitVec 6) (s : State) : Out :=
  runSyl s (.hchk e d a) e fun v =>
    let p := v.ps d
    { v.syl .memory true with
      dests := [(.s p, 1)]
      names := [p]
      static := v.illegal true ++ v.declS [d] ++ v.declH [a.toNat]
      effects := [.land (v.landing (.s p) (.word (v.rh a.toNat).w0) 1)] }

end Sys2Proof.Machine
end

