-- ==== Sys2Proof/Machine/Matrix.lean ====
section
/-! DEFINITION. The array instructions: mset, mget, wld, mswap, mmul, macc, mdrain, mchain, mchk and mfence (R231 to R244). -/

namespace Sys2Proof.Machine

/-- The first error that waits for an array command (R234) (log 30, DEDUCED). -/
def View.arrayLate (v : View) : List TrapReq := v.lateErr fun e => e.array

def View.mset (v : View) (s : BitVec 5) : MatrixSet := v.cell.arr.setAt s.toNat

/-- mset (R236). -/
def execMset (e : Bool) (a : BitVec 6) (f n : BitVec 5) (s : State) : Out :=
  runSyl s (.mset e a f n) e fun v =>
    { engineSyl v false [a] 0 with
      dyn := v.illegalIf (!matrixValue f.toNat (v.rs a).toNat)
      effects := [.cmd (.mset n.toNat f.toNat (v.rs a))] }

/-- mget (R236): a scoreboarded result. -/
def execMget (e : Bool) (d : BitVec 6) (f n : BitVec 5) (s : State) : Out :=
  runSyl s (.mget e d f n) e fun v =>
    { v.syl .engine false with
      names := [v.ps d]
      static := v.illegal false ++ v.declS [d]
      effects := [.cmd (.mget n.toNat f.toNat (v.ps d))] }

/-- wld (R237): both ranges are checked at issue, that of the data before that of the scales (R235) (log 32, DEDUCED). -/
def execWld (e : Bool) (a b : BitVec 6) (n : BitVec 5) (t : BitVec 6) (s : State) : Out :=
  runSyl s (.wld e a b n t) e fun v =>
    let m := v.mset n
    let data : Word := BitVec.ofNat 32 m.wsrc + v.rs a
    let scl : Word := BitVec.ofNat 32 m.wscl + v.rs b
    { engineSyl v false [a, b] t with
      dyn := firstTrap (v.arrayLate ++ v.engineAligned data.toNat (tileBytes m.wfmt) 128 false true ++
        v.engineAligned scl.toNat 256 128 false true)
      blocked := v.arrayFull 1 1
      effects := [.cmd (.wld n.toNat data scl (v.pt t))] }

/-- mswap (R238). -/
def execMswap (e : Bool) (t : BitVec 6) (s : State) : Out :=
  runSyl s (.mswap e t) e fun v =>
    { engineSyl v false [] t with
      dyn := v.arrayLate
      blocked := v.arrayFull 1 1
      effects := [.cmd (.mswap (v.pt t))] }

/-- macc (R239). -/
def execMacc (e : Bool) (a : BitVec 6) (n : BitVec 5) (t : BitVec 6) (s : State) : Out :=
  runSyl s (.macc e a n t) e fun v =>
    let m := v.mset n
    { engineSyl v false [a] t with
      dyn := firstTrap (v.arrayLate ++ v.passErrors n.toNat m false ++ v.passRanges m (v.rs a))
      blocked := v.arrayFull 1 1
      effects := [.cmd (.macc n.toNat (v.rs a) (v.pt t))] }

/-- mmul: a pass and a drain (R239). -/
def execMmul (e : Bool) (a b : BitVec 6) (n : BitVec 5) (t : BitVec 6) (s : State) : Out :=
  runSyl s (.mmul e a b n t) e fun v =>
    let m := v.mset n
    let d := v.drainOf n.toNat m (v.rs b) true
    { engineSyl v false [a, b] t with
      dyn := firstTrap (v.arrayLate ++ v.passErrors n.toNat m true ++ v.passRanges m (v.rs a) ++ v.drainRanges d)
      blocked := v.arrayFull 1 2
      effects := .cmd (.mmul n.toNat (v.rs a) (v.rs b) (v.pt t)) :: v.drainRace d }

/-- mdrain (R240). -/
def execMdrain (e : Bool) (a : BitVec 6) (n : BitVec 5) (t : BitVec 6) (s : State) : Out :=
  runSyl s (.mdrain e a n t) e fun v =>
    let m := v.mset n
    let d := v.drainOf n.toNat m (v.rs a) false
    { engineSyl v false [a] t with
      dyn := firstTrap (v.arrayLate ++ v.drainErrors m ++ v.drainRanges d)
      blocked := v.arrayFull 1 1
      effects := .cmd (.mdrain n.toNat (v.rs a) (v.pt t)) :: v.drainRace d }

/-- mchain (R241). The image at sa is checked when the bundle closes, since it is read after the bundle's stores (R70)
(log 31, DEDUCED). -/
def execMchain (e : Bool) (a b : BitVec 6) (n : BitVec 5) (t : BitVec 6) (s : State) : Out :=
  runSyl s (.mchain e a b n t) e fun v =>
    let x := v.rs a
    let loads := (v.rs b).getLsbD 0
    let nodes := (v.cell.arr.chain n.toNat).nodes
    { engineSyl v false [a, b] t with
      dyn := firstTrap (v.arrayLate ++
        if loads then
          (if v.cell.drainWaits n.toNat then [engineErr 1 7 n.toNat] else []) ++ v.engineAligned x.toNat 64 64 false false
        else v.chainTraps nodes)
      blocked := (loads && v.cell.held .load x.toNat 64) || v.arrayFull 1 1
      image := if loads then some x.toNat else none
      effects := .cmd (.mchain n.toNat x (v.rs b) (v.pt t)) :: (if loads then v.finds [(x.toNat, 64)] else []) }

/-- mchk (R242). -/
def execMchk (e : Bool) (a : BitVec 6) (n : BitVec 5) (t : BitVec 6) (s : State) : Out :=
  runSyl s (.mchk e a n t) e fun v =>
    { engineSyl v false [a] t with
      dyn := v.arrayLate
      effects := [.cmd (.mchk n.toNat (v.rs a) (v.pt t))] }

/-- mfence (R243): it waits for the strand's array commands, and then raises the first waiting error. -/
def execMfence (e : Bool) (s : State) : Out :=
  runSyl s (.mfence e) e fun v =>
    let idle := v.cell.arrayIdle v.b.k
    { engineSyl v false [] 0 with
      dyn := if idle then v.arrayLate else []
      blocked := !idle
      effects := [.cmd .mfence] }

end Sys2Proof.Machine
end

