-- ==== Sys2Proof/Machine/Memory.lean ====
section
/-! DEFINITION. Plain loads and stores, vector loads and stores, local atomics and fence (R186 to R196). -/

namespace Sys2Proof.Machine

/-! ### Scalar loads and stores (R188) -/

/-- The offset of an MS syllable: sa plus the immediate times the access size, read as signed. -/
def msOffset (v : View) (a : BitVec 6) (i : BitVec 7) (n : Nat) : Int :=
  (v.rs a + sext i * BitVec.ofNat 32 n).toInt

/-- A scalar load of `n` bytes, extended by `ext`, that lands in 3 beats; a discarded page reads zeros (R186, R188). -/
def sylLoad (v : View) (d : BitVec 6) (h : BitVec 4) (a : BitVec 6) (i : BitVec 7) (n : Nat) (ext : Nat → Word) : Syl :=
  let p := v.ps d
  let y : Syl :=
    { v.syl .memory true with
      dests := [(.s p, 3)]
      reads := [v.ps a]
      names := [p]
      static := v.illegal true ++ v.declS [d, a] ++ v.declH [h.toNat] }
  match v.ea h.toNat (msOffset v a i n) n .load with
  | .trap t => { y with dyn := [t] }
  | .ok c disc _ =>
    if v.spire ∧ 2 ^ 20 ≤ c then
      let off := (spireWindow c).getD 0
      { y with effects := [.land (v.landing (.s p) (.word (v.s.mgmtRead v.b.m off)) 3), .modRead off] }
    else
    let x := if disc then ext 0 else ext (leNat (memBytes v.cell.mem c n))
    { y with
      blocked := v.cell.held .load c n
      effects := .land { v.landing (.s p) (.word x) 3 with taint := loadTaint v c n disc } ::
        (if disc then [.discRead] else v.finds [(c, n)]) }

/-- The detector effect of a plain write (R202). -/
def raceEffect (v : View) (c : Nat) : List Effect :=
  match v.cell.raceAt c with
  | some r => [.raceWrite r.off]
  | none => []

/-- A scalar store of the low `n` bytes of sd at the end of the issue cycle (R187, R188). A Spire core's store to a register
of the module may not use what that register's table reserves (R2). -/
def sylStore (v : View) (d : BitVec 6) (h : BitVec 4) (a : BitVec 6) (i : BitVec 7) (n : Nat) : Syl :=
  let y : Syl :=
    { v.syl .memory true with
      reads := [v.ps d, v.ps a]
      static := v.illegal true ++ v.declS [d, a] ++ v.declH [h.toNat] }
  match v.ea h.toNat (msOffset v a i n) n .store with
  | .trap t => { y with dyn := [t] }
  | .ok c _ mig =>
    if v.spire ∧ 2 ^ 20 ≤ c then
      let off := (spireWindow c).getD 0
      { y with
        dyn := v.illegalIf (usesReserved off (v.rs d))
        effects := [.modWrite off (v.rs d)] }
    else
      { y with
        blocked := mig || v.cell.held .store c n
        effects := .store c (leBytes n (v.rs d).toNat) :: raceEffect v c }

def execLdb (e : Bool) (d : BitVec 6) (h : BitVec 4) (a : BitVec 6) (i : BitVec 7) (s : State) : Out :=
  runSyl s (.ldb e d h a i) e fun v => sylLoad v d h a i 1 fun x => sext (BitVec.ofNat 8 x)

def execLdbu (e : Bool) (d : BitVec 6) (h : BitVec 4) (a : BitVec 6) (i : BitVec 7) (s : State) : Out :=
  runSyl s (.ldbu e d h a i) e fun v => sylLoad v d h a i 1 fun x => BitVec.ofNat 32 x

def execLdh (e : Bool) (d : BitVec 6) (h : BitVec 4) (a : BitVec 6) (i : BitVec 7) (s : State) : Out :=
  runSyl s (.ldh e d h a i) e fun v => sylLoad v d h a i 2 fun x => sext (BitVec.ofNat 16 x)

def execLdhu (e : Bool) (d : BitVec 6) (h : BitVec 4) (a : BitVec 6) (i : BitVec 7) (s : State) : Out :=
  runSyl s (.ldhu e d h a i) e fun v => sylLoad v d h a i 2 fun x => BitVec.ofNat 32 x

def execLdw (e : Bool) (d : BitVec 6) (h : BitVec 4) (a : BitVec 6) (i : BitVec 7) (s : State) : Out :=
  runSyl s (.ldw e d h a i) e fun v => sylLoad v d h a i 4 fun x => BitVec.ofNat 32 x

def execStb (e : Bool) (d : BitVec 6) (h : BitVec 4) (a : BitVec 6) (i : BitVec 7) (s : State) : Out :=
  runSyl s (.stb e d h a i) e fun v => sylStore v d h a i 1

def execSth (e : Bool) (d : BitVec 6) (h : BitVec 4) (a : BitVec 6) (i : BitVec 7) (s : State) : Out :=
  runSyl s (.sth e d h a i) e fun v => sylStore v d h a i 2

def execStw (e : Bool) (d : BitVec 6) (h : BitVec 4) (a : BitVec 6) (i : BitVec 7) (s : State) : Out :=
  runSyl s (.stw e d h a i) e fun v => sylStore v d h a i 4

/-! ### Vector loads and stores (R189 to R193) -/

/-- The base of an MV syllable from a scalar (R189). -/
def mvOffset (x : Word) (i : BitVec 4) : Int := (x + sext i * 128).toInt

/-- The offsets of the 32 lanes of a strided access (R191). -/
def strideOffsets (base stride : Int) : List Int :=
  (List.range 32).map fun (k : Nat) => (BitVec.ofInt 32 (base + k * stride)).toInt

/-- The offsets of the 32 lanes of a gather or scatter (R192). -/
def laneOffsets (a : VReg) (i : BitVec 4) : List Int :=
  (List.range 32).map fun k => (a.lanes.getD k 0 + sext i * 128).toInt

/-- EA for each lane in ascending order: the first failing lane's trap, or every lane's cell offset with whether the page
is discarded or migrating (R193). -/
def laneEas (v : View) (h : Nat) (kind : Access) : List Int → Except TrapReq (List Nat × Bool × Bool)
  | [] => .ok ([], false, false)
  | o :: r =>
    match v.ea h o 4 kind with
    | .trap t => .error t
    | .ok c disc mig =>
      match laneEas v h kind r with
      | .error t => .error t
      | .ok (cs, d, g) => .ok (c :: cs, disc || d, mig || g)

/-- CheckTag of R89: FMT_TAG with the register as written. -/
def checkTag (x : VReg) (num : BitVec 6) (want : BitVec 3) : List TrapReq :=
  if want ≠ 0 ∧ x.tag ≠ 0 ∧ x.tag ≠ want then [trapReq causeFmtTag (num.setWidth 32)] else []

/-- The tags of R125. -/
def tagRAW : BitVec 3 := 0
def tagI32 : BitVec 3 := 1
def tagF32 : BitVec 3 := 2
def tagI8Q : BitVec 3 := 3
def tagE4M3Q : BitVec 3 := 4
def tagBF16P : BitVec 3 := 5
def tagI16P : BitVec 3 := 6
def tagSCL : BitVec 3 := 7

/-- A vector register of the given lanes. -/
def vregOf (lanes : List Word) (tag : BitVec 3) : VReg := ⟨Vector.ofFn fun k : Fin 32 => lanes.getD k.val 0, tag⟩

/-- The checks that every MV syllable makes before its values (R26, R189). -/
def mvBase (v : View) (d : BitVec 6) (h : BitVec 4) (scalars : List (BitVec 6)) (vecs : List (BitVec 6)) : Syl :=
  { v.syl .memory false with
    reads := scalars.map v.ps
    static := v.illegal false ++
      (vecs.flatMap fun a =>
        if clusterOf a.toNat ≠ clusterOf d.toNat then [trapReq causeCluster (a.setWidth 32)] else []) ++
      v.declV (d :: vecs) ++ v.declS scalars ++ v.declH [h.toNat] }

/-- A vector load of the ranges `rs` once its lanes' words are known: the landing, the taint, and the SCL check of R190,
which a load makes when it is held no more, on the lanes that it then reads (R187, R199). -/
def mvLoad (v : View) (y : Syl) (d : BitVec 6) (t : BitVec 3) (lat : Nat) (lanes : List Word) (disc : Bool)
    (rs : List (Nat × Nat)) : Syl :=
  let p := physV v.st.rrb d.toNat
  let held := rs.any fun r => v.cell.held .load r.1 r.2
  { y with
    dests := [(.v p, lat)]
    dyn := if held = false ∧ t = tagSCL ∧ lanes.any (fun w => w.toNat / 2 ^ 20 != 0) then
        [trapReq causeFmtTag (d.setWidth 32)] else []
    blocked := held
    effects := .land { v.landing (.v p) (.vec (vregOf lanes t)) lat with
        taint := if !disc && (rs.any fun r => v.cell.corrupt r.1 r.2) then some 0xC0 else none } ::
      (if disc then [.discRead] else v.finds rs) }

/-- A vector load of one word per lane at the given offsets (R191, R192). -/
def sylLanesLoad (v : View) (y : Syl) (d : BitVec 6) (h : BitVec 4) (t : BitVec 3) (lat : Nat) (offs : List Int)
    (tagTraps : List TrapReq) : Syl :=
  match laneEas v h.toNat .load offs with
  | .error tr => { y with dests := [(.v (physV v.st.rrb d.toNat), lat)], dyn := tagTraps ++ [tr] }
  | .ok (cs, disc, _) =>
    let lanes := cs.map fun c => if disc then 0 else memWord v.cell.mem c
    let z := mvLoad v y d t lat lanes disc (cs.map fun c => (c, 4))
    { z with dyn := tagTraps ++ z.dyn }

/-- A vector store of one word per lane; a byte written twice keeps the value of the highest lane (R193). -/
def sylLanesStore (v : View) (y : Syl) (d : BitVec 6) (h : BitVec 4) (offs : List Int) (tagTraps : List TrapReq) : Syl :=
  match laneEas v h.toNat .store offs with
  | .error tr => { y with dyn := tagTraps ++ [tr] }
  | .ok (cs, _, mig) =>
    { y with
      dyn := tagTraps
      blocked := mig || cs.any fun c => v.cell.held .store c 4
      effects := (cs.zip (v.rv d).lanes.toList).map (fun p => Effect.store p.1 (leBytes 4 p.2.toNat)) ++
        cs.flatMap (raceEffect v) }

/-- vld (R190). -/
def execVld (e : Bool) (d : BitVec 6) (h : BitVec 4) (a : BitVec 6) (t : BitVec 3) (i : BitVec 4) (s : State) : Out :=
  runSyl s (.vld e d h a t i) e fun v =>
    let y := mvBase v d h [a] []
    match v.ea h.toNat (mvOffset (v.rs a) i) 128 .load with
    | .trap tr => { y with dests := [(.v (physV v.st.rrb d.toNat), 4)], dyn := [tr] }
    | .ok c disc _ =>
      let lanes := if disc then List.replicate 32 0 else wordsOf (memBytes v.cell.mem c 128)
      mvLoad v y d t 4 lanes disc [(c, 128)]

/-- vst (R190). -/
def execVst (e : Bool) (d : BitVec 6) (h : BitVec 4) (a : BitVec 6) (t : BitVec 3) (i : BitVec 4) (s : State) : Out :=
  runSyl s (.vst e d h a t i) e fun v =>
    let y := mvBase v d h [a] []
    let tags := checkTag (v.rv d) d t
    match v.ea h.toNat (mvOffset (v.rs a) i) 128 .store with
    | .trap tr => { y with dyn := tags ++ [tr] }
    | .ok c _ mig =>
      { y with
        dyn := tags
        blocked := mig || v.cell.held .store c 128
        effects := .store c (bytesOf (v.rv d).lanes.toList) :: raceEffect v c }

/-- vldb: one word into every lane (R190). -/
def execVldb (e : Bool) (d : BitVec 6) (h : BitVec 4) (a : BitVec 6) (t : BitVec 3) (i : BitVec 4) (s : State) : Out :=
  runSyl s (.vldb e d h a t i) e fun v =>
    let y := mvBase v d h [a] []
    match v.ea h.toNat (mvOffset (v.rs a) i) 4 .load with
    | .trap tr => { y with dests := [(.v (physV v.st.rrb d.toNat), 4)], dyn := [tr] }
    | .ok c disc _ =>
      let lanes := List.replicate 32 (if disc then 0 else memWord v.cell.mem c)
      mvLoad v y d t 4 lanes disc [(c, 4)]

/-- vgth: a gather at the offsets held in va (R192). -/
def execVgth (e : Bool) (d : BitVec 6) (h : BitVec 4) (a : BitVec 6) (t : BitVec 3) (i : BitVec 4) (s : State) : Out :=
  runSyl s (.vgth e d h a t i) e fun v =>
    sylLanesLoad v (mvBase v d h [] [a]) d h t 6 (laneOffsets (v.rv a) i) (checkTag (v.rv a) a tagI32)

/-- vsct: a scatter to the offsets held in va (R192). -/
def execVsct (e : Bool) (d : BitVec 6) (h : BitVec 4) (a : BitVec 6) (t : BitVec 3) (i : BitVec 4) (s : State) : Out :=
  runSyl s (.vsct e d h a t i) e fun v =>
    sylLanesStore v (mvBase v d h [] [a]) d h (laneOffsets (v.rv a) i)
      (checkTag (v.rv a) a tagI32 ++ checkTag (v.rv d) d t)

/-- vlds: a strided load; the stride is in s(a + 1) (R191). -/
def execVlds (e : Bool) (d : BitVec 6) (h : BitVec 4) (a : BitVec 6) (t : BitVec 3) (i : BitVec 4) (s : State) : Out :=
  runSyl s (.vlds e d h a t i) e fun v =>
    sylLanesLoad v (mvBase v d h [a, a + 1] []) d h t 4 (strideOffsets (mvOffset (v.rs a) i) (v.rs (a + 1)).toInt) []

/-- vsts: a strided store (R191). -/
def execVsts (e : Bool) (d : BitVec 6) (h : BitVec 4) (a : BitVec 6) (t : BitVec 3) (i : BitVec 4) (s : State) : Out :=
  runSyl s (.vsts e d h a t i) e fun v =>
    sylLanesStore v (mvBase v d h [a, a + 1] []) d h (strideOffsets (mvOffset (v.rs a) i) (v.rs (a + 1)).toInt)
      (checkTag (v.rv d) d t)

/-! ### Local atomics (R194, R195) -/

/-- A read-modify-write of one aligned word; `f old sb sd` is the new word, or none where nothing is written. -/
def sylAmo (v : View) (d : BitVec 6) (h : BitVec 4) (a b : BitVec 6) (readsD : Bool)
    (f : Word → Word → Word → Option Word) : Syl :=
  let p := v.ps d
  let srcs := if readsD then [a, b, d] else [a, b]
  let y : Syl :=
    { v.syl .memory true with
      dests := [(.s p, 5)]
      reads := srcs.map v.ps
      names := [p]
      static := v.illegal true ++ v.declS [d, a, b] ++ v.declH [h.toNat] }
  match v.ea h.toNat (v.rs a).toInt 4 .atomic with
  | .trap t => { y with dyn := [t] }
  | .ok c _ mig =>
    let old := memWord v.cell.mem c
    { y with
      blocked := mig || v.cell.held .atomic c 4
      effects := .land { v.landing (.s p) (.word old) 5 with taint := loadTaint v c 4 false } ::
        (match f old (v.rs b) (v.rs d) with
          | some x => [.store c (leBytes 4 x.toNat)]
          | none => []) ++ v.finds [(c, 4)] }

def execAmoadd (e : Bool) (d : BitVec 6) (h : BitVec 4) (a b : BitVec 6) (s : State) : Out :=
  runSyl s (.amoadd e d h a b) e fun v => sylAmo v d h a b false fun o x _ => some (o + x)

def execAmoand (e : Bool) (d : BitVec 6) (h : BitVec 4) (a b : BitVec 6) (s : State) : Out :=
  runSyl s (.amoand e d h a b) e fun v => sylAmo v d h a b false fun o x _ => some (o &&& x)

def execAmoor (e : Bool) (d : BitVec 6) (h : BitVec 4) (a b : BitVec 6) (s : State) : Out :=
  runSyl s (.amoor e d h a b) e fun v => sylAmo v d h a b false fun o x _ => some (o ||| x)

def execAmoxor (e : Bool) (d : BitVec 6) (h : BitVec 4) (a b : BitVec 6) (s : State) : Out :=
  runSyl s (.amoxor e d h a b) e fun v => sylAmo v d h a b false fun o x _ => some (o ^^^ x)

def execAmomin (e : Bool) (d : BitVec 6) (h : BitVec 4) (a b : BitVec 6) (s : State) : Out :=
  runSyl s (.amomin e d h a b) e fun v => sylAmo v d h a b false fun o x _ => some (minS o x)

def execAmomax (e : Bool) (d : BitVec 6) (h : BitVec 4) (a b : BitVec 6) (s : State) : Out :=
  runSyl s (.amomax e d h a b) e fun v => sylAmo v d h a b false fun o x _ => some (maxS o x)

def execAmoswp (e : Bool) (d : BitVec 6) (h : BitVec 4) (a b : BitVec 6) (s : State) : Out :=
  runSyl s (.amoswp e d h a b) e fun v => sylAmo v d h a b false fun _ x _ => some x

def execAmocas (e : Bool) (d : BitVec 6) (h : BitVec 4) (a b : BitVec 6) (s : State) : Out :=
  runSyl s (.amocas e d h a b) e fun v => sylAmo v d h a b true fun o x y => if o = y then some x else none

/-- amofadd: FP32 sum with ties to even, FPC ignored (R195). -/
def execAmofadd (e : Bool) (d : BitVec 6) (h : BitVec 4) (a b : BitVec 6) (s : State) : Out :=
  runSyl s (.amofadd e d h a b) e fun v => sylAmo v d h a b false fun o x _ => some (fpAddRNE o x)

end Sys2Proof.Machine
end

