-- ==== Sys2Proof/Machine/Perform.lean ====
section
/-! DEFINITION. Remote requests at their destination, and the answers at their source (R248, R253 to R266). -/

namespace Sys2Proof.Machine

/-- A request reaches the queue page, which answers every one with REFUSED (R328). -/
def onQueuePage (u : Nat) (r : Req) : Bool := u == 0 && meets r.off r.size 0x7F0000 65536

/-- The words of a write, with their offsets. -/
def Req.words (r : Req) : List (Nat × Word) :=
  ((List.range (r.data.length / 4)).map fun i => r.off + 4 * i).zip (wordsOf r.data)

/-- A write of a request is performed: bytes of a store, or words of the control registers, of which the translation set
may refuse some (R355). It says whether some word was refused (log 27, DEDUCED). -/
def State.performWrite (s : State) (m u : Nat) (r : Req) : State × Bool :=
  if r.off < 0x700000 then (s.onCell m u fun c => c.engineWrite r.off r.data r.bad, false)
  else
    let refused := xRefused (s.cell m u) (s.chip m) u r.words
    let taken := r.words.filter fun p => !refused.contains p.1
    (s.onCell m u fun c => { c with regWrites := c.regWrites ++ taken }, !refused.isEmpty)

/-- A sector of a copy counts on the copy's barrier, and the copy's last sector to be performed counts its arrival
(R257, R389) (log 27, DEDUCED). -/
def State.countSector (s : State) (m u : Nat) (src : Addr) (r : Req) (b : Nat) : State :=
  let c := s.cell m u
  let before := (c.parts.filter fun p => p.1 == src && p.2.1 == r.op).foldl (fun n p => n + p.2.2) 0
  let last := before + 1 == r.sectors
  let s := s.onCell m u fun c =>
    { c with parts := (c.parts.filter fun p => !(p.1 == src && p.2.1 == r.op)) ++
        (if last then [] else [(src, r.op, before + 1)]) }
  s.tbCount m u b 1 (if last then 1 else 0)

/-- A request is performed at its destination and answered: a write with a landed acknowledgement on VC 5, a read with its
data on VC 4, an atomic with both; an access that is not admitted with REFUSED (R248, R254, R260). -/
def State.performRequest (s : State) (m u : Nat) (src : Addr) (strand : Nat) (r : Req) : State :=
  let c := s.cell m u
  let refuse (s : State) : State :=
    s.send m u strand src 4 (.error r.op r.sector (copyErr errREFUSED (if r.copy then r.sector else 0)))
  if !c.admits (isSpire src.unit) r || onQueuePage u r then refuse s
  else
    match r.kind with
    | .write =>
      let (s, refused) := s.performWrite m u r
      if refused then refuse s
      else
        let s := match r.tbar with
          | none => s
          | some b => s.countSector m u src r b
        s.send m u strand src 5 (.ack r.op r.sector)
    | .read n =>
      let data := if r.off < 0x700000 then memBytes c.mem r.off n else c.regBytes s.cycle r.off n
      let bad := if r.off < 0x700000 then c.badUnits r.off n else []
      let s := if r.off < 0x700000 then s.found m u r.off n strand 0 2 else s
      s.send m u strand src 4
        (.response r.op r.sector (BitVec.ofNat 32 (leNat (data.take 4))) (if n = 4 then [] else data) bad (!bad.isEmpty))
    | .atomic k =>
      let old := memWord c.mem r.off
      let s := s.found m u r.off 4 strand 0 2
      let s := s.onCell m u fun c => c.storeBytes r.off (leBytes 4 (atomicWord k old r.operand).toNat)
      let s := s.send m u strand src 4 (.response r.op r.sector old [] [] false)
      s.send m u strand src 5 (.ack r.op r.sector)

/-- The sector belongs to a copy whose destination is the copying cell itself. -/
def State.isLocal (s : State) (x : Msg) (r : Req) : Bool :=
  x.src == x.dst && ((s.cell x.mod x.dst.unit).engOp r.op).any fun (o : EngOp) => o.dst.isNone

/-- The request that message `focus.j` brings, once it may be performed: it has arrived, it carries no token, and no repair
holds its bank (R426). -/
def State.request (s : State) : Option (Msg × Req) :=
  match s.arrival s.focus.j with
  | some x =>
    match x.body with
    | .request r =>
      if x.dst.unit < 1032 ∧ (s.cell x.mod x.dst.unit).underRepair r.off r.size = false then some (x, r) else none
    | _ => none
  | none => none

/-- A request performed at its cell, or a local sector at its own. -/
def State.performMsg (s : State) (x : Msg) (r : Req) : State :=
  let t := s.dropMsg x.id
  if s.isLocal x r then t.performLocal x.mod x.dst.unit r
  else t.performRequest x.mod x.dst.unit x.src x.strand r

/-- Whether a message carries a token into another cell (R365). -/
def State.carried (s : State) (x : Msg) (r : Req) : Bool := r.carry != 0 && !s.isLocal x r

/-- COPY_SECTOR_PERFORM (R254, R257). -/
def execCopySectorPerform (s : State) : Out :=
  match s.request with
  | some (x, r) =>
    if r.copy = true ∧ r.kind = .write ∧ s.carried x r = false then .next (s.performMsg x r)
    else if r.kind = .write ∧ s.isLocal x r = true then .next (s.performMsg x r)
    else .refused (.eventNotDue "COPY_SECTOR_PERFORM")
  | none => .refused (.eventNotDue "COPY_SECTOR_PERFORM")

/-- REMOTE_STORE_PERFORM (R260). -/
def execRemoteStorePerform (s : State) : Out :=
  match s.request with
  | some (x, r) =>
    if r.copy = false ∧ r.kind = .write ∧ s.carried x r = false ∧ s.isLocal x r = false then .next (s.performMsg x r)
    else .refused (.eventNotDue "REMOTE_STORE_PERFORM")
  | none => .refused (.eventNotDue "REMOTE_STORE_PERFORM")

/-- REMOTE_READ_PERFORM (R260, R261), of an rld or of a copy. -/
def execRemoteReadPerform (s : State) : Out :=
  match s.request with
  | some (x, r) =>
    match r.kind with
    | .read _ => .next (s.performMsg x r)
    | _ => .refused (.eventNotDue "REMOTE_READ_PERFORM")
  | none => .refused (.eventNotDue "REMOTE_READ_PERFORM")

/-- REMOTE_ATOMIC_PERFORM (R260). -/
def execRemoteAtomicPerform (s : State) : Out :=
  match s.request with
  | some (x, r) =>
    match r.kind with
    | .atomic _ => .next (s.performMsg x r)
    | _ => .refused (.eventNotDue "REMOTE_ATOMIC_PERFORM")
  | none => .refused (.eventNotDue "REMOTE_ATOMIC_PERFORM")

/-! ### Answers (R257, R260, R261, R264) -/

/-- RESPONSE_ARRIVAL. -/
def execResponseArrival (s : State) : Out :=
  match s.arrival s.focus.j with
  | some x =>
    match x.body with
    | .response op sector word data bad tainted =>
      .next ((s.dropMsg x.id).takeResponse x.mod x.dst.unit op sector word data bad tainted)
    | _ => .refused (.eventNotDue "RESPONSE_ARRIVAL")
  | none => .refused (.eventNotDue "RESPONSE_ARRIVAL")

/-- LANDED_ACK (R254, R364). -/
def execLandedAck (s : State) : Out :=
  match s.arrival s.focus.j with
  | some x =>
    match x.body with
    | .ack op sector => .next ((s.dropMsg x.id).settleReq x.mod x.dst.unit op sector 0 true)
    | _ => .refused (.eventNotDue "LANDED_ACK")
  | none => .refused (.eventNotDue "LANDED_ACK")

/-- The wait of a WATCH that failed: a copy of this cell then ends with EXPIRED (R263, R368, R377). -/
def State.failWait (s : State) (m u : Nat) (w : TokenWait) (word : Word) : State :=
  match w.what with
  | .copy op => s.settleReq m u op 0 (copyErr errEXPIRED (w.token.toNat % 65536)) true
  | what => s.onCell m u fun c => c.onWaits (fun x => x.what == what) fun x => { x with state := .failed word }

/-- The first wait on a token whose WATCH is out. -/
def Cell.outWait (c : Cell) (t : Word) : Option TokenWait :=
  c.waits.find? fun w => w.token == t && w.state == .out && (match w.what with
    | .query .. => false
    | _ => true)

/-- ERROR_RESPONSE: of a request, or of a WATCH (R264, R368, R373, R377). -/
def execErrorResponse (s : State) : Out :=
  match s.arrival s.focus.j with
  | some x =>
    match x.body with
    | .error op sector word => .next ((s.dropMsg x.id).settleReq x.mod x.dst.unit op sector word true)
    | .watchError t tag word =>
      let s' := s.dropMsg x.id
      match tag, (s.cell x.mod x.dst.unit).outWait t with
      | 0, some w => .next (s'.failWait x.mod x.dst.unit w word)
      | _, _ => .next s'
    | _ => .refused (.eventNotDue "ERROR_RESPONSE")
  | none => .refused (.eventNotDue "ERROR_RESPONSE")

end Sys2Proof.Machine
end

