-- ==== Sys2Proof/Machine/Placement.lean ====
section
/-! DEFINITION. Loading a placement image: its sections, the binds with HOLD, and the acknowledgements at HOME (R213, R251,
R338, R339, R356, R388, R400, R420 to R422). -/

namespace Sys2Proof.Machine

/-! ### Writing the sections (R421) -/

/-- The pinned entries of a cell's translation set are written to zero as its placement is unloaded (R356)
(log 49, DEDUCED). -/
def Cell.unload (c : Cell) : Cell :=
  (c.xset.filter fun p => p.2.flags.getLsbD 30).foldl
    (fun c p => ((c.writeX p.1 0 0).writeX p.1 1 0).writeX p.1 2 0) c

/-- A cell at placement load: an earlier placement is unloaded, its banks are EMPTY, its descriptor sets, barriers and
counters at their Reset values (log 49, DEDUCED). -/
def Cell.freshLoad (c : Cell) : Cell :=
  { c.unload with arr := ArrayUnit.reset, cds := [], tbs := [], cnts := ⟨0, 0, 0, 0, 0, 0, 0, 0⟩, cmax := 0, cnan := 0 }

/-- The bytes of a section that lie in a store are written there. -/
def Cell.loadStore (c : Cell) (lo hi off : Nat) (data : List Byte) : Cell :=
  if lo ≤ off ∧ off + data.length ≤ hi then c.storeBytes off data else c

/-- The words of a section that lie in the staging area are written there. -/
def Cell.loadStaging (c : Cell) (off : Nat) (ws : List Word) : Cell :=
  ws.zipIdx.foldl
    (fun c p =>
      let o := off + 4 * p.2
      if 0x700400 ≤ o ∧ o < 0x700500 then { c with staging := tput c.staging ((o - 0x700400) / 4) p.1 } else c) c

/-- A translation entry is installed with PIN 1 (R356); the cell refuses words as R355 says. -/
def Cell.installX (c : Cell) (chip u i : Nat) (ws : List Word) : Cell :=
  let put (c : Cell) (k : Nat) (w : Word) : Cell := if (c.xentry i).refuses chip u k w false then c else c.writeX i k w
  put (put (put (put c 0 0) 1 (ws.getD 1 0)) 2 (ws.getD 2 0)) 0 (ws.getD 0 0 ||| 0x40000000)

/-- A channel field from an image; rate words are checked at bind (R338) (log 49, DEDUCED). -/
def State.loadField (s : State) (m u o : Nat) (w : Word) : State :=
  let n := o % 0x800 / 128
  match decide (o < 0x1800), o % 128 / 4 with
  | true, 8 => s.onCell m u fun c => c.onIn n fun x => { x with rate0 := w }
  | true, 9 => s.onCell m u fun c => c.onIn n fun x => { x with rate1 := w }
  | _, _ => s.putReg m u o w

/-- A word of a matrix descriptor set, or of a chain's node. -/
def Cell.loadDescriptor (c : Cell) (x : Bool × Nat × Nat × Word) : Cell :=
  let (chain, n, f, w) := x
  if chain then
    c.onArr fun a => { a with chains := tput a.chains n { a.chain n with
      nodes := (a.chain n).nodes.modify (f / 2) fun d => if f % 2 = 0 then { d with word0 := w } else { d with arg := w } } }
  else c.onArr fun a => { a with sets := tput a.sets n ((a.setAt n).put f w.toNat) }

/-- One section of the module's own is written (log 49, DEDUCED). -/
def State.loadSection (s : State) (m : Nat) (x : Section') : State :=
  let u := x.at'.unit
  let ws := wordsOf x.data
  let on (f : Cell → Cell) : State := s.onCell m u f
  match x.kind with
  | 1 => on fun c => c.loadStore 0x600000 0x620000 x.off x.data
  | 2 => on fun c => c.loadStore 0 0x200000 x.off x.data
  | 3 => on fun c => c.loadStore 0x200000 0x600000 x.off x.data
  | 4 =>
    (List.range (ws.length / 4)).foldl
      (fun s i => s.onCell m u fun c => c.installX (s.chip m) u ((x.off + i) % 256) ((ws.drop (4 * i)).take 3)) s
  | 5 => on fun c => (c.loadStore 0 0x200000 x.off x.data).loadStaging x.off ws
  | 6 =>
    ws.zipIdx.foldl
      (fun s p =>
        let o := x.off + 4 * p.2 - 0x700000
        if 0x1000 ≤ o ∧ o < 0x2000 then s.loadField m u o p.1 else s) s
  | 7 => on fun c => (Config.descriptors x.raw).foldl Cell.loadDescriptor c
  | 8 => ws.zipIdx.foldl (fun s p => s.writeRoute m ((x.off + p.2 / 4) % 1024) (p.2 % 4) p.1) s
  | 9 => ws.zipIdx.foldl (fun s p => if x.off + 4 * p.2 < 0x4000 then s.mgmtPut m (0x450000 + x.off + 4 * p.2) p.1 false else s) s
  | _ => s

/-! ### Binding (R301, R338, R339) -/

/-- The phase and the job whose units on the module hold a cell (R396, R397) (log 49, DEDUCED). -/
def IoDie.unitOfCell (io : IoDie) (level u : Nat) : Nat :=
  (io.units.findSome? fun p =>
    if p.2.v = true ∧ p.2.level = level ∧ p.2.cells.getLsbD u = true then some p.2.id else none).getD 0

/-- RTT of the enabled in-channels of a record is measured (R272) (log 49, DEDUCED). -/
def State.measureRtt (s : State) (m u : Nat) (d : Desc) : State :=
  (maskOf d.inmask).foldl
    (fun s n =>
      if ((s.cell m u).inCh n).en then
        { s with free := s.free + 1 }.onCell m u fun c =>
          c.onIn n fun x => { x with rtt := Config.roundTrip s.free % 65536 }
      else s) s

/-- A descriptor with HOLD = 1. -/
def holdBit (raw : List Byte) : List Byte := raw.modify 0x2F fun b => b ||| 0x80

/-- A descriptor stands in the staging area of RBIND (R339). -/
def Cell.stage (c : Cell) (raw : List Byte) : Cell := { c with staging := (wordsOf raw).zipIdx.map fun p => (p.2, p.1) }

/-- One record of the image is bound with HOLD through RBIND; the result word. -/
def State.bindHeld (s : State) (m placement : Nat) (p : Addr × List Byte) : State × Word :=
  let u := p.1.unit
  let io := (s.mod m).io
  let s := (s.measureRtt m u (descOf p.2)).onCell m u fun c => c.stage (holdBit p.2)
  let (s, w) := s.bindRecord m u (holdBit p.2) true
    (placement, io.unitOfCell 2 u, io.unitOfCell 3 u)
  (s.onCell m u fun c => { c with rbres := w ||| 0x40000000 }, w)

/-- Every record in image order, and the first result that is a failure (log 49, DEDUCED). -/
def State.bindAll (s : State) (m placement : Nat) (ps : List (Addr × List Byte)) : State × Option Word :=
  ps.foldl
    (fun (r : State × Option Word) p =>
      let (s, w) := r.1.bindHeld m placement p
      (s, if r.2.isNone && w.getLsbD 31 then some (w ||| 0x40000000) else r.2)) (s, none)

/-- A module loads its sections and answers HOME (R421). -/
def State.loadPlacement (s : State) (m : Nat) (image : List Byte) : State :=
  let chip := s.chip m
  let id := imagePlacement image
  let home : Addr := ⟨imageHome image, ioUnit⟩
  let ss := imageSections image
  let own := ss.filter fun x => (s.mod m).io.midValid && x.at'.chip == chip
  if imageBad image then s.send m ioUnit 0 home 6 (.configFail id 0)
  else if own.isEmpty then s
  else
    let s := s.onMod m fun x => { x with io := { x.io with measurement := shake256 (own.flatMap fun y => y.raw) } }
    let cells := ((own.filter fun x => decide (x.kind ≤ 7)).map fun x => x.at'.unit).eraseDups
    let s := cells.foldl
      (fun s u => s.onCell m u fun c => { c.freshLoad with faultq := Config.firmwareRegister m u 0x10 &&& 0x800001FF }) s
    let s := own.foldl (fun s x => s.loadSection m x) s
    match imageUnstable ss with
    | some n => s.send m ioUnit 0 home 6 (.configFail id (bindError 6 n ||| 0x40000000).toNat)
    | none =>
      let (s, bad) := s.bindAll m id (own.flatMap fun x => x.descs)
      match bad with
      | some w => s.send m ioUnit 0 home 6 (.configFail id w.toNat)
      | none => s.send m ioUnit 0 home 6 (.configAck id)

/-- The tree of R418 at a module: the link of its own image, and those whose far end got its image from here. -/
def State.treeLinks (s : State) (m : Nat) : List Nat :=
  (List.range 64).filter fun l =>
    (s.link m l).state == .up &&
      ((s.mod m).io.imageLink == some l ||
        (match s.farEnd ⟨m, l⟩ with
          | some q => (s.mod q.m).io.imageLink == some q.link
          | none => false))

/-- The latest image of each placement is kept, the latest first (R339). -/
def IoDie.keepImage (io : IoDie) (image : List Byte) : IoDie :=
  { io with images := image :: io.images.filter fun x => imagePlacement x != imagePlacement image }

/-- An image goes on along the tree, and its module loads its part (R421) (log 49, DEDUCED). -/
def State.takePlacement (s : State) (m : Nat) (image : List Byte) (from' : Option Nat) : State :=
  let s := ((s.treeLinks m).filter fun l => some l != from').foldl (fun s l => s.sendOver m l (.image false image)) s
  (s.onMod m fun x => { x with io := x.io.keepImage image }).loadPlacement m image

/-- HOME begins to count for a placement (R422). -/
def IoDie.awaitPlacement (io : IoDie) (image : List Byte) : IoDie :=
  let id := imagePlacement image
  { io with
    placements := (io.placements.filter fun p => p.id != id) ++
      [⟨id, imageMods image, 0, false, false, ((imageSections image).map fun x => x.at'.chip).eraseDups⟩] }

/-- The host writes an image to its HOME module, which broadcasts it (R421). -/
def State.hostPlacement (s : State) (m : Nat) (image : List Byte) : State :=
  (s.onMod m fun x => { x with io := x.io.awaitPlacement image }).takePlacement m image none

/-- PLACEMENT_IMAGE: from the host, with `focus.data` the image, or as message `focus.j` on VC 7 (R421). -/
def execPlacementImage (s : State) : Out :=
  let f := s.focus
  if f.u = hostUnit then
    let image := f.data.map fun b => BitVec.ofNat 8 b
    if (s.mod f.m).io.boot = .run ∧ isPlacementImage image = true ∧ imageHome image = s.chip f.m then
      .next (s.hostPlacement f.m image)
    else .refused (.eventNotDue "PLACEMENT_IMAGE")
  else
    match s.arrival f.j with
    | some x =>
      match x.body with
      | .image false image =>
        .next (if (s.mod x.mod).io.boot = .run then (s.dropMsg x.id).takePlacement x.mod image (some x.strand)
          else s.dropMsg x.id)
      | _ => .refused (.eventNotDue "PLACEMENT_IMAGE")
    | none => .refused (.eventNotDue "PLACEMENT_IMAGE")

/-! ### At HOME (R422) -/

/-- A change of the placement that HOME counts for. -/
def IoDie.onPlacement (io : IoDie) (id : Nat) (f : Placement → Placement) : IoDie :=
  { io with placements := io.placements.map fun p => if p.id = id then f p else p }

/-- All modules have acknowledged and none has failed. -/
def Placement.ready (p : Placement) : Bool := decide (p.mods ≤ p.acks) && !p.failed && !p.started

/-- A placement that has failed is cancelled at level 1 on the modules that its image names (R349, R422)
(log 26, DEDUCED). -/
def State.cancelOn (s : State) (m id : Nat) (chips : List Nat) : State :=
  chips.foldl (fun s c => s.send m ioUnit 0 ⟨c, ioUnit⟩ 6 (.cancelNote 1 id true)) (s.noteCancel m 1 id)

/-- An acknowledgement from a chip is counted; with the last, the start notice goes to every module of the placement. A module
that has loaded its part after a failure is cancelled too. -/
def State.configAck (s : State) (m id chip : Nat) : State :=
  let s := s.onMod m fun x => { x with io := x.io.onPlacement id fun p => { p with acks := p.acks + 1 } }
  match (s.mod m).io.placements.find? fun p => p.id == id with
  | some p =>
    if p.ready then
      p.members.foldl (fun s c => s.send m ioUnit 0 ⟨c, ioUnit⟩ 6 (.startNote id))
        (s.onMod m fun x => { x with io := x.io.onPlacement id fun p => { p with started := true } })
    else if p.failed then s.cancelOn m id [chip]
    else s
  | none => s

/-- CONFIG_ACK (R422). -/
def execConfigAck (s : State) : Out :=
  match s.arrival s.focus.j with
  | some x =>
    match x.body with
    | .configAck id => .next ((s.dropMsg x.id).configAck x.mod id x.src.chip)
    | _ => .refused (.eventNotDue "CONFIG_ACK")
  | none => .refused (.eventNotDue "CONFIG_ACK")

/-- A failure: no start notice goes, and the placement is cancelled (log 26, DEDUCED). -/
def State.configFail (s : State) (m id : Nat) : State :=
  let s := s.onMod m fun x => { x with io := x.io.onPlacement id fun p => { p with failed := true } }
  match (s.mod m).io.placements.find? fun p => p.id == id with
  | some p => s.cancelOn m id p.members
  | none => s

/-- CONFIG_FAILURE (R422). -/
def execConfigFailure (s : State) : Out :=
  match s.arrival s.focus.j with
  | some x =>
    match x.body with
    | .configFail id _ => .next ((s.dropMsg x.id).configFail x.mod id)
    | _ => .refused (.eventNotDue "CONFIG_FAILURE")
  | none => .refused (.eventNotDue "CONFIG_FAILURE")

/-! ### The start notice (R339, R422) -/

/-- HOLD of the placement's records is cleared. -/
def Cell.releaseHold (c : Cell) (id : Nat) : Cell :=
  { c with recs := c.recs.map fun p =>
      (p.1, if p.2.state != .free && p.2.placement == id then { p.2 with hold := false } else p.2) }

/-- START_NOTICE: the I/O die passes it to its cells, and a cell clears HOLD (R422). -/
def execStartNotice (s : State) : Out :=
  match s.arrival s.focus.j with
  | some x =>
    match x.body with
    | .startNote id =>
      let t := s.dropMsg x.id
      .next (if x.dst.unit = ioUnit then
          (t.placedCells x.mod id).foldl (fun s u => s.send x.mod ioUnit 0 ⟨s.chip x.mod, u⟩ 6 (.startNote id)) t
        else t.onCell x.mod x.dst.unit fun c => c.releaseHold id)
    | _ => .refused (.eventNotDue "START_NOTICE")
  | none => .refused (.eventNotDue "START_NOTICE")

end Sys2Proof.Machine
end

