-- ==== Sys2Proof/Machine/Queues.lean ====
section
/-! DEFINITION. qpush and qpop (R329). -/

namespace Sys2Proof.Machine

/-- The frame of the queue page of a module (R328). -/
def queuePage (chip : Nat) : Word := BitVec.ofNat 32 (chip * 2 ^ 22 + 0x7F)

/-- The checks of R329 in its order. -/
def View.queueChecks (v : View) (push : Bool) (hn : Nat) (a b : Word) : List TrapReq :=
  let h := v.rh hn
  let if' (bad : Bool) (cause : BitVec 8) (val : Word) : List TrapReq := if bad then [trapReq cause val] else []
  firstTrap
    (v.handleValid hn ++
      if' (a.toNat % 128 != 0) causeMisalign a ++ if' (decide (65408 < a.toNat)) causeBounds a ++
      if' (!h.permW) causePermitW a ++ if' (!push && !h.permR) causeBounds a ++
      if' (b.toNat % 16 != 0) causeMisalign b ++ v.engineRangeAt b.toNat 16 (!push) false b ++
      (if h.win || h.w3 != queuePage v.chip then [engineErr 4 1 hn] else []))

def sylQueue (v : View) (push : Bool) (a b : BitVec 6) (h : BitVec 4) (t : BitVec 6) : Syl :=
  let y := engineSyl v true [a, b] t
  let hh := v.rh h.toNat
  { y with
    static := y.static ++ v.declH [h.toNat]
    dyn := v.queueChecks push h.toNat (v.rs a) (v.rs b)
    blocked := v.scbFull 1
    effects := (if push then [.release] else .acquire :: v.engineRace (v.rs b).toNat 16) ++
      [.cmd (if push then .qpush hh (v.rs a) (v.rs b) (v.pt t) else .qpop hh (v.rs a) (v.rs b) (v.pt t))] }

/-- qpush (R329): a release. -/
def execQpush (e : Bool) (a b : BitVec 6) (h : BitVec 4) (t : BitVec 6) (s : State) : Out :=
  runSyl s (.qpush e a b h t) e fun v => sylQueue v true a b h t

/-- qpop (R329): an acquire. -/
def execQpop (e : Bool) (a b : BitVec 6) (h : BitVec 4) (t : BitVec 6) (s : State) : Out :=
  runSyl s (.qpop e a b h t) e fun v => sylQueue v false a b h t

end Sys2Proof.Machine
end

