-- ==== Sys2Proof/Machine/RecordSteps.lean ====
section
/-! DEFINITION. The steps of records that are not syllables: landing, starting, ending, saving, restoring, aging, and the
pacing buckets (R80, R297, R335, R341, R344 to R346, R348). -/

namespace Sys2Proof.Machine

/-- RESULT_LANDING on strand `focus.j`: what is due at its beat lands (R80, R82). -/
def execResultLanding (s : State) : Out :=
  let f := s.focus
  let st := s.strand f.m f.u f.j
  if st.landing.any fun l => decide (l.due ≤ st.beat) then .next (s.onCell f.m f.u fun c => c.landDue f.j)
  else .refused (.eventNotDue "RESULT_LANDING")

/-- The record that strand `k`, being free, takes now (R344). -/
def Cell.taken (c : Cell) (k : Nat) : Option Nat := if c.strandFree k then c.nextRecord k else none

/-- RECORD_START on strand `focus.j` (R341). -/
def execRecordStart (s : State) : Out :=
  let f := s.focus
  match (s.cell f.m f.u).taken f.j with
  | some e =>
    if ((s.cell f.m f.u).record e).state = .bound then .next (s.onCell f.m f.u fun c => c.startRecord s.cycle e)
    else .refused (.eventNotDue "RECORD_START")
  | none => .refused (.eventNotDue "RECORD_START")

/-- The slot of an entry lies in a bank under repair, so that its save or restore waits (R346, R426) (log 41, DEDUCED). -/
def Cell.slotHeld (c : Cell) (e : Nat) : Bool := c.underRepair (slotAt e) 14336

/-- The restore of strand `k` whose time has passed. -/
def Cell.restored (c : Cell) (cycle k : Nat) : Option Nat :=
  match c.ctxJob with
  | some (.restore k' e, t) => if k' = k ∧ t ≤ cycle ∧ c.slotHeld e = false then some e else none
  | _ => none

/-- CONTEXT_RESTORE on strand `focus.j` (R344, R346): a restore whose time has passed ends, or a PARKED record takes the
strand. -/
def execContextRestore (s : State) : Out :=
  let f := s.focus
  let c := s.cell f.m f.u
  match c.restored s.cycle f.j with
  | some e => .next (s.onCell f.m f.u fun c => c.endRestore s.cycle f.j e)
  | none =>
    match c.taken f.j with
    | some e =>
      if (c.record e).state = .parked then .next (s.onCell f.m f.u fun c => c.beginRestore e)
      else .refused (.eventNotDue "CONTEXT_RESTORE")
    | none => .refused (.eventNotDue "CONTEXT_RESTORE")

/-- The save whose time has passed: its strand and its entry. -/
def Cell.saved (c : Cell) (cycle : Nat) : Option (Nat × Nat) :=
  match c.ctxJob with
  | some (.save k e, t) => if t ≤ cycle ∧ c.slotHeld e = false then some (k, e) else none
  | _ => none

/-- CONTEXT_SAVE_COMPLETE (R346). -/
def execContextSaveComplete (s : State) : Out :=
  let f := s.focus
  match (s.cell f.m f.u).saved s.cycle with
  | some (k, e) => .next (s.endSave f.m f.u k e)
  | none => .refused (.eventNotDue "CONTEXT_SAVE_COMPLETE")

/-- RECORD_END of entry `focus.j` (R335). -/
def execRecordEnd (s : State) : Out :=
  let f := s.focus
  if (s.cell f.m f.u).mayEnd f.j then .next (s.endRecord f.m f.u f.j)
  else .refused (.eventNotDue "RECORD_END")

/-- Entry `e` gains a step of PRIO.EFF now (R348): its strand is ready and has not issued for AGELIM cycles and AGELIM more,
or it is eligible and has waited so long (log 23, DEDUCED). -/
def Cell.ages (c : Cell) (cycle e : Nat) : Bool :=
  let r := c.record e
  let st := c.strand r.strand
  let due (from' : Nat) : Bool := decide (from' + 2 * c.agelim.toNat ≤ cycle)
  let waits : Bool :=
    match r.state with
    | .running => st.mode == .running && st.entry == e && st.ready && due (max st.lastIssue r.ageFrom)
    | _ => r.eligible.isSome && due r.ageFrom
  c.agelim != 0 && decide (r.prioEff < r.desc.ceil) && waits

/-- PRIO_AGING of entry `focus.j` (R348): the next step is due AGELIM cycles later (log 23, DEDUCED). -/
def execPrioAging (s : State) : Out :=
  let f := s.focus
  if (s.cell f.m f.u).ages s.cycle f.j then
    .next (s.onCell f.m f.u fun c => c.onRecord f.j fun r =>
      { r with prioEff := r.prioEff + 1, ageFrom := s.cycle - c.agelim.toNat })
  else .refused (.eventNotDue "PRIO_AGING")

/-- The bucket after a cycle's issue decision (R297). -/
def Strand.refill (st : Strand) (w : Nat) : Strand := { st with bucket := min (st.bucket + w) 1024 }

/-- WGT.EFF of strand `k` of a cell; that of a Spire core is the ceiling (R298, R427) (log 45, DEDUCED). -/
def Cell.weightOf (c : Cell) (pceil k : Nat) : Nat :=
  let st := c.strand k
  if c.spire then min 256 pceil else weightEff pceil c st.recid (c.record st.entry)

/-- Every bucket of a cell (log 45, DEDUCED). -/
def Cell.refillAll (c : Cell) (pceil : Nat) : Cell :=
  [0, 1, 2, 3].foldl (fun c k => c.onStrand k fun st => st.refill (c.weightOf pceil k)) c

/-- PACING_BUCKET_REFILL of every strand, once in a cycle, after its last step (R297). -/
def execPacingBucketRefill (s : State) : Out :=
  if s.phase = .refill then
    .next { s with
      phase := .tick
      mods := s.mods.map fun (p : Nat × Module) =>
        (p.1, { p.2 with cells := p.2.cells.map fun (q : Nat × Cell) => (q.1, q.2.refillAll p.2.io.ceilNow) }) }
  else .refused (.eventNotDue "PACING_BUCKET_REFILL")

end Sys2Proof.Machine
end

