-- ==== Sys2Proof/Machine/Reserved.lean ====
section
/-! DEFINITION. A syllable that no row of the opcode table takes (R64, R66, R67). -/

namespace Sys2Proof.Machine

/-- The class of an opcode's range; qpush and qpop are of class E (R73). -/
def rangeClass (op : Nat) : Cls :=
  if op < 0x40 then .scalar
  else if op < 0x60 then .memory
  else if op < 0x80 then (if op = 0x75 ∨ op = 0x76 then .engine else .control)
  else if op < 0xC0 then .vector
  else .engine

/-- The opcodes of class V whose unit is the cluster of va: the compares, vext and vgtag (R67). -/
def unitOfA (op : Nat) : Bool :=
  (0x8B ≤ op && op ≤ 0x8D) || (0x9B ≤ op && op ≤ 0x9D) || op == 0xB3 || op == 0xB5

/-- The kind of the fixed-latency destination that the row of an assigned opcode gives its d field, as far as R71 speaks of
it: a scalar, vector or predicate register, with the latency (R74 to R76, R78). -/
inductive RowDest where
  | none
  | s (lat : Nat)
  | v (lat : Nat)
  | q (lat : Nat)
deriving DecidableEq, Repr

/-- The same of class V (R78). -/
def vectorDest (op : Nat) : RowDest :=
  if op ≤ 0x8A then .v 2
  else if op ≤ 0x8D then .q 2
  else if op ≤ 0x90 then .v 4
  else if op ≤ 0x92 then .v 5
  else if op ≤ 0x94 then .v 14
  else if op ≤ 0x96 then .v 6
  else if op ≤ 0x9A then .v 4
  else if op ≤ 0x9D then .q 4
  else if op ≤ 0x9F then .v 8
  else if op ≤ 0xA7 then .v 3
  else if op ≤ 0xAB then .v 6
  else if op ≤ 0xAE then .v 3
  else if op ≤ 0xB0 then .v 2
  else if op = 0xB1 then .v 3
  else if op = 0xB2 then .v 2
  else if op = 0xB3 then .s 2
  else if op = 0xB4 then .v 1
  else if op = 0xB5 then .s 1
  else if op ≤ 0xB7 then .v 2
  else if op = 0xB8 then .v 6
  else .none

/-- The same of classes S, M and C (R74 to R76); that of call is s63, whatever its fields hold. -/
def rowDest (op : Nat) : RowDest :=
  if op = 0 then .none
  else if op ≤ 0x0A then .s 1
  else if op ≤ 0x0C then .s 3
  else if op ≤ 0x0E then .s 12
  else if op ≤ 0x1D then .s 1
  else if op = 0x1E then .s 3
  else if op ≤ 0x23 then .s 1
  else if op = 0x24 then .s 2
  else if op = 0x25 then .none
  else if op ≤ 0x27 then .s 1
  else if op ≤ 0x2C then .q 1
  else if op ≤ 0x2F then .s 1
  else if op < 0x40 then .none
  else if op ≤ 0x44 then .s 3
  else if op = 0x48 ∨ op = 0x4A ∨ op = 0x4D then .v 4
  else if op = 0x4B then .v 6
  else if op = 0x51 then .s 1
  else if 0x52 ≤ op ∧ op ≤ 0x5A then .s 5
  else if op = 0x65 then .s 1
  else if op = 0x73 then .s 2
  else if 0x80 ≤ op ∧ op < 0xC0 then vectorDest op
  else .none

/-- The destination of a syllable whose row it breaks by a field that must be zero: R71 still compares it (R72, R134)
(log 16, DEDUCED). -/
def destsOf (rrb : BitVec 3) (w : Word) : List (Reg × Nat) :=
  let op := opcode w
  let d := if op = 0x65 then 63 else bits w 17 6
  match rowDest op with
  | .none => []
  | .s lat => [(.s (physS rrb d), lat)]
  | .v lat => [(.v (physV rrb d), lat)]
  | .q lat => if d ≤ 7 then [(.q (physQ rrb d), lat)] else []

/-- The special registers that the row of a broken loop or mts writes, which R159 still compares (R72) (log 16, DEDUCED). -/
def specialsOf (w : Word) : List Reg :=
  if opcode w = 0x67 then loopSpecials
  else if opcode w = 0x25 then specialOf (bits w 0 11)
  else []

/-- ILLEGAL_OP, counted in the class of the range, for class V in the cluster of the register named (R67), and with the
destination and the special registers of its row (R71, R159). -/
def execReservedEncoding (w : Word) (s : State) : Out :=
  runSyl s (.reservedEncoding w) (eBit w) fun v =>
    let op := opcode w
    { v.syl (rangeClass op) true with
      cluster := clusterOf (if unitOfA op then bits w 11 6 else bits w 17 6)
      dests := destsOf v.st.rrb w
      specials := specialsOf w
      static := v.illegalIf true }

end Sys2Proof.Machine
end

