-- ==== Sys2Proof/Machine/Scalar.lean ====
section
/-! DEFINITION. Class S: integer, logical and predicate instructions (R74, R104 to R113), and the identity word (R160). -/

namespace Sys2Proof.Machine

/-- A class S syllable with a scalar destination: it reads the scalars `srcs`, checks the declarations, and lands `val`
after `lat` beats (R104). -/
def sylToS (v : View) (d : BitVec 6) (srcs : List (BitVec 6)) (preds : List (BitVec 6)) (val : Word) (lat : Nat) : Syl :=
  let p := v.ps d
  { v.syl .scalar true with
    dests := [(.s p, lat)]
    reads := srcs.map v.ps
    names := [p]
    static := v.illegal true ++ v.declS (d :: srcs) ++ v.declQ (preds.map fun q => q.toNat)
    effects := [.land (v.landing (.s p) (.word val) lat)] }

/-- A class S syllable with a predicate destination (R113). -/
def sylToQ (v : View) (d : BitVec 6) (srcs : List (BitVec 6)) (preds : List (BitVec 6)) (val : Word) : Syl :=
  let p := physQ v.st.rrb d.toNat
  { v.syl .scalar true with
    dests := if isPred d then [(.q p, 1)] else []
    reads := srcs.map v.ps
    static := v.illegal true ++ v.declS srcs ++ v.declQ (d.toNat :: preds.map fun q => q.toNat)
    effects := [.land (v.landing (.q p) (.word val) 1)] }

/-- A two-source operation of one beat (R105). -/
def sylRR (v : View) (d a b : BitVec 6) (f : Word → Word → Word) (lat : Nat) : Syl :=
  sylToS v d [a, b] [] (f (v.rs a) (v.rs b)) lat

/-- An operation on a register and a sign-extended immediate (R111). -/
def sylRI (v : View) (d a : BitVec 6) (i : BitVec 11) (f : Word → Word → Word) (lat : Nat) : Syl :=
  sylToS v d [a] [] (f (v.rs a) (sext i)) lat

/-- A division: INT_DIVZ with the dividend on a zero divisor (R107). -/
def sylDiv (v : View) (d a b : BitVec 6) (f : Word → Word → Word) : Syl :=
  { sylRR v d a b f 12 with dyn := if v.rs b = 0 then [trapReq causeIntDivz (v.rs a)] else [] }

/-- nop (R74): nothing. -/
def execNop (e : Bool) (s : State) : Out := runSyl s (.nop e) e fun v => v.syl .scalar true

def execAdd (e : Bool) (d a b : BitVec 6) (s : State) : Out :=
  runSyl s (.add e d a b) e fun v => sylRR v d a b (fun x y => x + y) 1

def execSub (e : Bool) (d a b : BitVec 6) (s : State) : Out :=
  runSyl s (.sub e d a b) e fun v => sylRR v d a b (fun x y => x - y) 1

def execAnd (e : Bool) (d a b : BitVec 6) (s : State) : Out :=
  runSyl s (.and e d a b) e fun v => sylRR v d a b (fun x y => x &&& y) 1

def execOr (e : Bool) (d a b : BitVec 6) (s : State) : Out :=
  runSyl s (.or e d a b) e fun v => sylRR v d a b (fun x y => x ||| y) 1

def execXor (e : Bool) (d a b : BitVec 6) (s : State) : Out :=
  runSyl s (.xor e d a b) e fun v => sylRR v d a b (fun x y => x ^^^ y) 1

def execAndn (e : Bool) (d a b : BitVec 6) (s : State) : Out :=
  runSyl s (.andn e d a b) e fun v => sylRR v d a b (fun x y => x &&& ~~~y) 1

def execShl (e : Bool) (d a b : BitVec 6) (s : State) : Out :=
  runSyl s (.shl e d a b) e fun v => sylRR v d a b shlW 1

def execShr (e : Bool) (d a b : BitVec 6) (s : State) : Out :=
  runSyl s (.shr e d a b) e fun v => sylRR v d a b shrW 1

def execSra (e : Bool) (d a b : BitVec 6) (s : State) : Out :=
  runSyl s (.sra e d a b) e fun v => sylRR v d a b sraW 1

def execRot (e : Bool) (d a b : BitVec 6) (s : State) : Out :=
  runSyl s (.rot e d a b) e fun v => sylRR v d a b rotW 1

def execMul (e : Bool) (d a b : BitVec 6) (s : State) : Out :=
  runSyl s (.mul e d a b) e fun v => sylRR v d a b (fun x y => x * y) 3

def execMulh (e : Bool) (d a b : BitVec 6) (s : State) : Out :=
  runSyl s (.mulh e d a b) e fun v => sylRR v d a b mulhS 3

def execMulhU (e : Bool) (d a b : BitVec 6) (s : State) : Out :=
  runSyl s (.mulhU e d a b) e fun v => sylRR v d a b mulhUns 3

def execDiv (e : Bool) (d a b : BitVec 6) (s : State) : Out :=
  runSyl s (.div e d a b) e fun v => sylDiv v d a b divS

def execDivU (e : Bool) (d a b : BitVec 6) (s : State) : Out :=
  runSyl s (.divU e d a b) e fun v => sylDiv v d a b divUns

def execRem (e : Bool) (d a b : BitVec 6) (s : State) : Out :=
  runSyl s (.rem e d a b) e fun v => sylDiv v d a b remS

def execRemU (e : Bool) (d a b : BitVec 6) (s : State) : Out :=
  runSyl s (.remU e d a b) e fun v => sylDiv v d a b remUns

def execMin (e : Bool) (d a b : BitVec 6) (s : State) : Out :=
  runSyl s (.min e d a b) e fun v => sylRR v d a b minS 1

def execMinU (e : Bool) (d a b : BitVec 6) (s : State) : Out :=
  runSyl s (.minU e d a b) e fun v => sylRR v d a b minUns 1

def execMax (e : Bool) (d a b : BitVec 6) (s : State) : Out :=
  runSyl s (.max e d a b) e fun v => sylRR v d a b maxS 1

def execMaxU (e : Bool) (d a b : BitVec 6) (s : State) : Out :=
  runSyl s (.maxU e d a b) e fun v => sylRR v d a b maxUns 1

/-- cmp (R108). -/
def execCmp (e : Bool) (d a b : BitVec 6) (c : BitVec 5) (s : State) : Out :=
  runSyl s (.cmp e d a b c) e fun v => sylRR v d a b (fun x y => boolWord (cmpCond c.toNat x y)) 1

/-- cmov reads sd too (R109). -/
def execCmov (e : Bool) (d a b : BitVec 6) (s : State) : Out :=
  runSyl s (.cmov e d a b) e fun v =>
    sylToS v d [d, a, b] [] (if v.rs b ≠ 0 then v.rs a else v.rs d) 1

def execClz (e : Bool) (d a : BitVec 6) (s : State) : Out :=
  runSyl s (.clz e d a) e fun v => sylToS v d [a] [] (BitVec.ofNat 32 (leadingZeros (v.rs a))) 1

def execPopc (e : Bool) (d a : BitVec 6) (s : State) : Out :=
  runSyl s (.popc e d a) e fun v => sylToS v d [a] [] (BitVec.ofNat 32 (popCount (v.rs a))) 1

/-- bext (R110). -/
def execBext (e : Bool) (d a b : BitVec 6) (p : BitVec 5) (s : State) : Out :=
  runSyl s (.bext e d a b p) e fun v => sylRR v d a b (fun x y => bextW x y p.toNat) 1

/-- bins reads sd too (R110). -/
def execBins (e : Bool) (d a b : BitVec 6) (p : BitVec 5) (s : State) : Out :=
  runSyl s (.bins e d a b p) e fun v => sylToS v d [d, a, b] [] (binsW (v.rs d) (v.rs a) (v.rs b) p.toNat) 1

def execAddi (e : Bool) (d a : BitVec 6) (i : BitVec 11) (s : State) : Out :=
  runSyl s (.addi e d a i) e fun v => sylRI v d a i (fun x y => x + y) 1

def execAndi (e : Bool) (d a : BitVec 6) (i : BitVec 11) (s : State) : Out :=
  runSyl s (.andi e d a i) e fun v => sylRI v d a i (fun x y => x &&& y) 1

def execOri (e : Bool) (d a : BitVec 6) (i : BitVec 11) (s : State) : Out :=
  runSyl s (.ori e d a i) e fun v => sylRI v d a i (fun x y => x ||| y) 1

def execXori (e : Bool) (d a : BitVec 6) (i : BitVec 11) (s : State) : Out :=
  runSyl s (.xori e d a i) e fun v => sylRI v d a i (fun x y => x ^^^ y) 1

def execShli (e : Bool) (d a : BitVec 6) (i : BitVec 11) (s : State) : Out :=
  runSyl s (.shli e d a i) e fun v => sylRI v d a i shlW 1

def execShri (e : Bool) (d a : BitVec 6) (i : BitVec 11) (s : State) : Out :=
  runSyl s (.shri e d a i) e fun v => sylRI v d a i shrW 1

def execSrai (e : Bool) (d a : BitVec 6) (i : BitVec 11) (s : State) : Out :=
  runSyl s (.srai e d a i) e fun v => sylRI v d a i sraW 1

def execMuli (e : Bool) (d a : BitVec 6) (i : BitVec 11) (s : State) : Out :=
  runSyl s (.muli e d a i) e fun v => sylRI v d a i (fun x y => x * y) 3

def execCmpeqi (e : Bool) (d a : BitVec 6) (i : BitVec 11) (s : State) : Out :=
  runSyl s (.cmpeqi e d a i) e fun v => sylRI v d a i (fun x y => boolWord (x == y)) 1

def execCmplti (e : Bool) (d a : BitVec 6) (i : BitVec 11) (s : State) : Out :=
  runSyl s (.cmplti e d a i) e fun v => sylRI v d a i (fun x y => boolWord (x.slt y)) 1

def execCmpltui (e : Bool) (d a : BitVec 6) (i : BitVec 11) (s : State) : Out :=
  runSyl s (.cmpltui e d a i) e fun v => sylRI v d a i (fun x y => boolWord (x.ult y)) 1

/-- li (R112). -/
def execLi (e : Bool) (d : BitVec 6) (i : BitVec 17) (s : State) : Out :=
  runSyl s (.li e d i) e fun v => sylToS v d [] [] (sext i) 1

/-- lih reads sd and keeps its bits 14:0 (R112). -/
def execLih (e : Bool) (d : BitVec 6) (i : BitVec 17) (s : State) : Out :=
  runSyl s (.lih e d i) e fun v =>
    sylToS v d [d] [] (BitVec.ofNat 32 (i.toNat * 2 ^ 15 + (v.rs d).toNat % 2 ^ 15)) 1

/-! ### Predicates (R113) -/

def execPand (e : Bool) (d a b : BitVec 6) (s : State) : Out :=
  runSyl s (.pand e d a b) e fun v => sylToQ v d [] [a, b] (v.rq a.toNat &&& v.rq b.toNat)

def execPor (e : Bool) (d a b : BitVec 6) (s : State) : Out :=
  runSyl s (.por e d a b) e fun v => sylToQ v d [] [a, b] (v.rq a.toNat ||| v.rq b.toNat)

def execPxor (e : Bool) (d a b : BitVec 6) (s : State) : Out :=
  runSyl s (.pxor e d a b) e fun v => sylToQ v d [] [a, b] (v.rq a.toNat ^^^ v.rq b.toNat)

def execPandn (e : Bool) (d a b : BitVec 6) (s : State) : Out :=
  runSyl s (.pandn e d a b) e fun v => sylToQ v d [] [a, b] (v.rq a.toNat &&& ~~~(v.rq b.toNat))

def execPfs (e : Bool) (d a : BitVec 6) (s : State) : Out :=
  runSyl s (.pfs e d a) e fun v => sylToQ v d [a] [] (v.rs a)

def execPts (e : Bool) (d a : BitVec 6) (s : State) : Out :=
  runSyl s (.pts e d a) e fun v => sylToS v d [] [a] (v.rq a.toNat) 1

def execPcnt (e : Bool) (d a : BitVec 6) (s : State) : Out :=
  runSyl s (.pcnt e d a) e fun v => sylToS v d [] [a] (BitVec.ofNat 32 (popCount (v.rq a.toNat))) 1

def execPfirst (e : Bool) (d a : BitVec 6) (s : State) : Out :=
  runSyl s (.pfirst e d a) e fun v => sylToS v d [] [a] (BitVec.ofNat 32 (firstOne (v.rq a.toNat))) 1

end Sys2Proof.Machine
end

