-- ==== Sys2Proof/Machine/Service.lean ====
section
/-! DEFINITION. What Spire firmware and the I/O die do beside boot and loading: RA requests and migration notices, the power
cap, attestation, checkpoints and stage migration (R359, R413, R423 to R427). -/

namespace Sys2Proof.Machine

/-! ### RA requests, migration notices and repair requests (R359, R386, R413, R426) -/

/-- The entry at the head of an enabled queue. -/
def IoDie.queueHead (io : IoDie) (q : Nat) : Option (List Word) :=
  let x := io.queue q
  if x.en ∧ x.count ≠ 0 then some (wordsOf (memBytes io.qsram (x.entryAt x.head) 16)) else none

/-- Its kind. -/
def IoDie.headKind (io : IoDie) (q : Nat) : Option Nat := (io.queueHead q).map fun ws => (ws.getD 0 0).toNat / 2 ^ 24

/-- Firmware no longer has a time for a queue. -/
def State.dropServe (s : State) (m q : Nat) : State :=
  s.onMod m fun x => { x with io := { x.io with serves := x.io.serves.filter fun p => p.1 != q } }

/-- The head entry is taken; firmware goes on to the next, at a time that is open (log 51, DEDUCED). -/
def State.popQueue (s : State) (m q : Nat) : State :=
  let s := (s.onMod m fun y => { y with io := y.io.onQueue q fun x => { x with head := (x.head + 1) % x.depth } }).dropServe m q
  if ((s.mod m).io.queueHead q).isSome then s.serveLater m q else s

/-- The unit that a NODE word names (R160). -/
def nodeUnit (w : Word) : Nat := w.toNat / 2 ^ 12 % 1024

/-- A reply on a queue; a full queue, or one with earlier replies waiting, gets it later (R413) (log 51, DEDUCED). -/
def State.reply (s : State) (m q : Nat) (w : Word) : State :=
  let io := (s.mod m).io
  if io.takes q && !(io.replies.any fun r => r.1 == q) then (s.appendQueue m q [w, 0, 0, 0]).1
  else s.onMod m fun y => { y with io := { y.io with replies := y.io.replies ++ [(q, w)] } }

/-- The first held reply whose queue has room is appended (log 51, DEDUCED). -/
def State.pumpReplies (s : State) (m : Nat) : State :=
  match (s.mod m).io.replies.find? fun r => (s.mod m).io.takes r.1 with
  | some r =>
    ((s.onMod m fun y => { y with io := { y.io with replies := y.io.replies.erase r } }).appendQueue m r.1 [r.2, 0, 0, 0]).1
  | none => s

/-- RA_REQUEST_SERVICE at queue `focus.j` of module `focus.m`; `focus.v` is what the home module's policy says: 1 approves. -/
def execRaRequestService (s : State) : Out :=
  let f := s.focus
  match (s.mod f.m).io.queueHead f.j with
  | some ws =>
    let w0 := ws.getD 0 0
    if w0.toNat / 2 ^ 24 = 0x10 then
      let t := s.popQueue f.m f.j
      let i := w0.toNat % 256
      .next (if f.v = 1 then
          (t.onCell f.m (nodeUnit (ws.getD 1 0)) fun c => c.writeX i 0 ((c.xentry i).flags ||| 0x00800000)).reply f.m (f.j + 1)
            0x11000001
        else t.reply f.m (f.j + 1) 0x11000000)
    else .refused (.eventNotDue "RA_REQUEST_SERVICE")
  | none => .refused (.eventNotDue "RA_REQUEST_SERVICE")

/-- A translation set with DISC ← 1 in every entry of a frame. -/
def Cell.discard (c : Cell) (frame : Word) : Cell :=
  ((List.range 256).filter fun i => (c.xentry i).frame == frame).foldl
    (fun c i => c.writeX i 0 ((c.xentry i).flags ||| 0x00400000)) c

/-- Every translation set of a module does so. -/
def State.discardPage (s : State) (m : Nat) (frame : Word) : State :=
  ((List.range 1032).filter fun u => (List.range 256).any fun i => ((s.cell m u).xentry i).frame == frame).foldl
    (fun s u => s.onCell m u fun c => c.discard frame) s

/-- MIGRATION_NOTICE_SERVICE at queue `focus.j`: the home module of the page in word 3 marks it discarded (R413). -/
def execMigrationNoticeService (s : State) : Out :=
  let f := s.focus
  match (s.mod f.m).io.queueHead f.j with
  | some ws =>
    if (ws.getD 0 0).toNat / 2 ^ 24 = 0x12 then
      let t := s.popQueue f.m f.j
      let frame := ws.getD 3 0
      .next (match t.moduleOf (frame.toNat / 2 ^ 22) with
        | some m => t.discardPage m frame
        | none => t)
    else .refused (.eventNotDue "MIGRATION_NOTICE_SERVICE")
  | none => .refused (.eventNotDue "MIGRATION_NOTICE_SERVICE")

/-- Firmware polls its queues at times that are open, and at least once in 65,536 cycles (R413). -/
def State.pollQueues (s : State) (m : Nat) : State :=
  (s.mod m).io.queues.foldl
    (fun s p =>
      if ((s.mod m).io.queueHead p.1).isSome && (s.cycle % 65536 == 0 || Config.polls m p.1 s.cycle) then s.serveLater m p.1
      else s) s

/-- The queues whose first entry firmware serves now. -/
def IoDie.servesNow (io : IoDie) (cycle : Nat) : List Nat := (io.serves.filter fun p => decide (p.2 ≤ cycle)).map fun p => p.1

/-- REPCMD for the fault that an entry of R386 names: a row for class CELL or ROW, a column for class COLUMN (R426). -/
def repairCmd (ws : List Word) : Word :=
  let e := (ws.getD 1 0).toNat
  let col := if e / 2 ^ 28 % 8 = 2 then 1 else 0
  BitVec.ofNat 32 (2 ^ 31 + col * 2 ^ 30 + e / 2 ^ 27 % 2 * 2 ^ 29 + e / 2 ^ 8 % 64 * 2 ^ 17 +
    (ws.getD 2 0).toNat / 2 ^ 16 % 512 * 2 ^ 8 + (ws.getD 2 0).toNat % 16)

/-- Firmware takes a repair request: it writes REPCMD of the cell, once no repair is in progress there; a request of class
BANK is one for migration (R386, R426) (log 51, DEDUCED). -/
def State.serveRepair (s : State) (m q : Nat) (ws : List Word) : State :=
  let u := (ws.getD 0 0).toNat / 2 ^ 16 % 4 * 256 + (ws.getD 1 0).toNat / 2 ^ 16 % 256
  if (ws.getD 1 0).toNat / 2 ^ 28 % 8 = 3 then s.popQueue m q
  else if (s.cell m u).repairAt.isSome then s
  else (s.popQueue m q).onCell m u fun c => { c with regWrites := c.regWrites ++ [(0x709300, repairCmd ws)] }

/-- What firmware does in this cycle with the first entries of its queues that are no steps of their own: repair requests; an
entry of another kind it leaves to others (log 51, DEDUCED). -/
def State.serveQueues (s : State) (m : Nat) : State :=
  ((s.mod m).io.servesNow s.cycle).foldl
    (fun s q =>
      match (s.mod m).io.queueHead q with
      | none => s.dropServe m q
      | some ws =>
        match (ws.getD 0 0).toNat / 2 ^ 24 with
        | 0x10 => s
        | 0x12 => s
        | 0x04 => s.serveRepair m q ws
        | _ => s.dropServe m q) s

/-- A classifier entry is the one that a repair command mends: the request's store, cell and bank, and its class
(log 41, DEDUCED). -/
def ClassEntry.mendedBy (e : ClassEntry) (x : Fix) : Bool :=
  e.v && e.req && e.celln == cellOf x.unit && e.store == repairStore x.cmd && e.bank == repairBank x.cmd &&
    (if x.cmd.getLsbD 30 then e.cls == 2 else decide (e.cls < 2))

/-- Firmware writes V ← 0 in the entries of the repairs that are done (R386, R426) (log 41, DEDUCED). -/
def IoDie.applyFixes (io : IoDie) (cycle : Nat) : IoDie :=
  let due := io.fixes.filter fun x => decide (x.due ≤ cycle)
  { io with
    fixes := io.fixes.filter fun x => decide (cycle < x.due)
    classifier := io.classifier.map fun p =>
      (p.1, if due.any fun x => p.1 / 64 == dieOf x.unit && p.2.mendedBy x then { p.2 with v := false } else p.2) }

/-! ### Power (R414, R427) -/

/-- CEIL after a comparison of PWR (in mW) with PCAP (in W) (log 45, DEDUCED). -/
def IoDie.capPower (io : IoDie) : IoDie :=
  let top := if 1050 ≤ io.temp then 16 else 256
  let ceil :=
    if io.pcap * 1000 < io.pwr.toNat then max 1 (io.pceil - 16)
    else if io.pwr.toNat < io.pcap * 950 then min top (io.pceil + 16)
    else io.pceil
  { io with pceil := ceil }

/-- POWER_CAP_CHECK of module `focus.m`, once in 2^20 cycles (R427). -/
def execPowerCapCheck (s : State) : Out :=
  let m := s.focus.m
  if (s.mod m).io.boot = .run ∧ s.cycle ≠ 0 ∧ s.cycle % 2 ^ 20 = 0 then .next (s.onMod m fun x => { x with io := x.io.capPower })
  else .refused (.eventNotDue "POWER_CAP_CHECK")

/-! ### Attestation (R423) -/

/-- ATTESTATION: a report is being made; a GO meanwhile has no effect. -/
def execAttestation (s : State) : Out :=
  match s.write .attestation with
  | some (m, _, _, _) =>
    .next (if (s.mod m).io.attBusy.isSome then s
      else { s with free := s.free + 1 }.onMod m fun x =>
        { x with io := { x.io with
          attBusy := some (s.cycle + 1 + Config.firmwareDelay s.free)
          attrep := tput x.io.attrep 0 (tget 0 x.io.attrep 0 &&& 0x7FFFFFFF) } })
  | none => .refused (.eventNotDue "ATTESTATION")

/-- What a report says, in the order of R423 (log 13, PRESUMED). -/
def IoDie.reportBody (io : IoDie) (m : Nat) : List Word :=
  let serial := Config.serial m
  [serial.setWidth 32, BitVec.ofNat 32 (serial.toNat / 2 ^ 32),
    BitVec.ofNat 32 (io.chip * 2 ^ 22 + io.midValid.toNat * 2 ^ 21)] ++ wordsOf io.imageDigest ++ wordsOf io.measurement ++
    (List.range 8).map (fun i => tget 0 io.nonce i) ++ [io.cyc.setWidth 32, BitVec.ofNat 32 (io.cyc.toNat / 2 ^ 32)]

/-- The report: a word with bit 31, then what it says, then the signature (log 13, PRESUMED: the places are the model's)
(log 51, DEDUCED). -/
def IoDie.report (io : IoDie) (m : Nat) : List Word :=
  let body := io.reportBody m
  let digest := shake256 (bytesOf body)
  [0x80000000] ++ body ++ wordsOf ((List.range 1280).map fun i => Config.falconSign m digest i)

/-- The report is complete; a NONCE written meanwhile holds for the next (log 51, DEDUCED). -/
def IoDie.endReport (io : IoDie) (m : Nat) : IoDie :=
  { io with
    attBusy := none
    attrep := (io.report m).zipIdx.foldl (fun t p => tput t p.2 p.1) io.attrep
    nonce := io.nonceNext.foldl (fun t p => tput t p.1 p.2) io.nonce
    nonceNext := [] }

/-- ATTESTATION_DONE of module `focus.m` (R423). -/
def execAttestationDone (s : State) : Out :=
  let m := s.focus.m
  if (s.mod m).io.attBusy.any fun t => decide (t ≤ s.cycle) then
    .next (s.onMod m fun x => { x with io := x.io.endReport m })
  else .refused (.eventNotDue "ATTESTATION_DONE")

/-! ### Checkpoints (R424) -/

/-- A descriptor as 256 bytes (R336). -/
def Desc.raw (d : Desc) (hold : Bool) : List Byte :=
  let w (n : Nat) : Word := BitVec.ofNat 32 n
  let cls (c : RegionClass) : Nat :=
    match c with
    | .priv => 1
    | .shared => 2
    | .inbox => 3
    | .weight => 4
  bytesOf [w d.pro.toNat, w d.ker.toNat, w d.epi.toNat, w (d.arrival.toNat * 2 ^ 31 + d.trig), d.trips,
      w (d.weight * 2 ^ 16 + d.ceil * 2 ^ 8 + d.prio), w (d.hmax * 2 ^ 24 + d.qmax * 2 ^ 16 + d.vmax * 2 ^ 8 + d.smax), w d.wbase,
      w d.wsize, w d.spill, w d.spoff, w (hold.toNat * 2 ^ 31 + d.strand * 2 ^ 8 + d.tbars), w (d.tvec.toNat * 64),
      w (d.outmask.toNat * 2 ^ 16 + d.inmask.toNat), 0, 0] ++
    (List.range 16).map (fun n => BitVec.ofNat 8 (d.need.getD n 0)) ++ List.replicate 16 (0 : Byte) ++
    bytesOf ((List.range 8).map fun n => d.launch.getD n 0) ++
    bytesOf ((List.range 16).flatMap fun i =>
      match d.regions.find? fun r => r.index == i with
      | some r => [w (cls r.cls * 2 ^ 29 + r.off), w r.size]
      | none => [0, 0])

/-- The translation set of a cell, then its record cache entries, descriptors and channel fields, as they are written. -/
def Cell.xsetBytes (c : Cell) : List Byte :=
  bytesOf ((List.range 256).flatMap fun i => [(c.xentry i).flags, (c.xentry i).tag, (c.xentry i).frame, 0])

def Cell.recordBytes (c : Cell) : List Byte :=
  bytesOf ((List.range 16).flatMap fun e => (List.range 4).map fun w => (c.record e).word w) ++
    ((List.range 16).flatMap fun e => (c.record e).desc.raw (c.record e).hold) ++
    bytesOf ((List.range 16).flatMap fun n => (List.range 32).map fun f => ((c.inCh n).field f).getD 0) ++
    bytesOf ((List.range 16).flatMap fun n => (List.range 32).map fun f => ((c.outCh n).field f).getD 0)

/-- The parts of an image: for each of the five kinds, in the order of R424, its first byte in the image and the bytes of one
cell's part. -/
def ckRecord : Nat := 16 * 16 + 16 * 256 + 32 * 128

def ckSize (kind : Nat) : Nat :=
  match kind with
  | 0 => 0x20000
  | 1 => 0x200000
  | 2 => 0x400000
  | 3 => 0x1000
  | _ => ckRecord

def ckBase (kind : Nat) : Nat := ((List.range kind).map fun k => 1024 * ckSize k).foldl Nat.add 0

/-- Where part `p` of an image begins: 1,024 parts of each kind, one for each cell. -/
def ckAt (p : Nat) : Nat := ckBase (p / 1024) + p % 1024 * ckSize (p / 1024)
def ckParts : Nat := 5 * 1024
def ckEnd : Nat := ckBase 5

/-- The bytes of a memory from `lo` on, `n` of them, moved to `to`. -/
def memShift (mem : List Host.Cell) (lo n to' : Nat) : List Host.Cell :=
  (mem.filter fun p => lo ≤ p.1 && p.1 < lo + n).map fun (p : Host.Cell) => (p.1 - lo + to', p.2)

/-- A memory with `n` bytes from `to` on taken from another memory, where they lie from `lo` on. -/
def memTake (mem : List Host.Cell) (to' n : Nat) (other : List Host.Cell) (lo : Nat) : List Host.Cell :=
  mem.filter (fun p => p.1 < to') ++ memShift other lo n to' ++ mem.filter fun p => to' + n ≤ p.1

/-- Cell offset of the store that a kind of part is. -/
def ckStore (kind : Nat) : Nat :=
  match kind with
  | 0 => 0x600000
  | 1 => 0
  | _ => 0x200000

/-- A part of a cell as it is written at a host address (R424) (log 50, DEDUCED). -/
def Cell.savePart (c : Cell) (kind : Nat) (host : List Host.Cell) (a : Nat) : List Host.Cell :=
  match kind with
  | 3 => memWrite host a c.xsetBytes
  | 4 => memWrite host a c.recordBytes
  | k => memTake host a (ckSize k) c.mem (ckStore k)

/-- CKADDR. -/
def IoDie.ckAddr (io : IoDie) : Nat := io.ckHi.toNat * 2 ^ 32 + io.ckLo.toNat

def recStateOf (n : Nat) : RecState :=
  match n with
  | 1 => .bound
  | 2 => .running
  | 3 => .parked
  | 4 => .ended
  | _ => .free

def recStatusOf (n : Nat) : RecStatus :=
  match n with
  | 1 => .done
  | 2 => .cancelled
  | 3 => .killed
  | _ => .none

/-- The context in the slot of an entry: what R346 gives a place there, and free values for the rest (log 50, DEDUCED). -/
def savedContext (mem : List Host.Cell) (d : Desc) (rid : BitVec 16) (e cycle free : Nat) : Strand :=
  let at' := slotAt e
  let w (i : Nat) : Word := Config.contextWord (free + i)
  { Strand.begin d rid e cycle with
    v := Vector.ofFn fun i : Fin 64 =>
      ⟨Vector.ofFn fun j : Fin 32 => memWord mem (at' + 128 * i.val + 4 * j.val),
        (memByte mem (at' + 0x2230 + i.val)).setWidth 3⟩
    s := Vector.ofFn fun i : Fin 64 => memWord mem (at' + 0x2000 + 4 * i.val)
    h := Vector.ofFn fun i : Fin 16 =>
      let a := at' + 0x2100 + 16 * i.val
      ⟨memWord mem a, memWord mem (a + 4), memWord mem (a + 8), memWord mem (a + 12)⟩
    q := Vector.ofFn fun i : Fin 12 => memWord mem (at' + 0x2200 + 4 * i.val)
    pc := (w 0).setWidth 15, lc := w 1, rrb := (w 2).setWidth 3, fpc := (w 3).setWidth 4, fpf := (w 4).setWidth 5, ltok := w 5
    iter := w 6, etag := (w 7).setWidth 8, taint := (w 7).getLsbD 8, sdctrap := (w 7).getLsbD 9, spill := w 8 }

/-- A record cache entry from its words and its descriptor (log 50, DEDUCED). -/
def RecEntry.restore (r : RecEntry) (mem : List Host.Cell) (raw : List Byte) (e cycle free : Nat) (w0 w1 w2 : Word) : RecEntry :=
  let d := descOf raw
  let gen := BitVec.ofNat 12 (w0.toNat / 2 ^ 20)
  let state := recStateOf (w0.toNat / 2 ^ 13 % 8)
  { r with
    gen := gen, state := state, strand := w0.toNat / 2 ^ 11 % 4, status := recStatusOf (w0.toNat / 2 ^ 8 % 8)
    hold := d.hold, desc := d, prioDecl := d.prio, prioEff := d.prio, cancelled := false, ending := none, eligible := none
    ageFrom := cycle, placement := w1.toNat % 65536, job := w2.toNat / 65536, phase := w2.toNat % 65536
    saved := if state = .parked then some (savedContext mem d (recordId gen e) e cycle free) else none }

def endStateOf (n : Nat) : EndState :=
  match n with
  | 1 => .opened
  | 2 => .closed
  | 3 => .dead
  | _ => .unconf

/-- Channel ends from their fields (R272). -/
def InChan.restore (x : InChan) (w : Nat → Word) : InChan :=
  let n (f : Nat) : Nat := (w f).toNat
  { x with
    state := endStateOf (n 0), base := n 1, size := n 2, slots := n 3, peer := w 4, mode := (w 5).getLsbD 0
    owner := (w 6).setWidth 16, rate0 := w 8, rate1 := w 9, rtt := n 10, seq := w 11, occ := n 12
    popped := n 13 / 2 ^ 16, popPtr := n 13 / 2 ^ 8 % 64, relPtr := n 13 % 64, wp := n 14 / 2 ^ 16, wc := n 14 % 2 ^ 16
    integ := (w 15).toInt, avg := n 16, frozen := (w 17).getLsbD 0, miss := (w 17).getLsbD 1 }

def OutChan.restore (x : OutChan) (w : Nat → Word) : OutChan :=
  let n (f : Nat) : Nat := (w f).toNat
  { x with
    state := endStateOf (n 0), slots := n 3, peer := w 4, mode := (w 5).getLsbD 0, owner := (w 6).setWidth 16
    grouped := (w 7).getLsbD 4, group := n 7 % 16, seq := w 11, fbc := n 12, wptr := n 13
    weight := if w 14 = 0x01000100 then 256 else n 14, weighted := w 14 != 0x01000100 }

/-- The record cache and the channel ends of a cell from an image at host address `r` (log 50, DEDUCED). -/
def Cell.restoreRecords (c : Cell) (host : List Host.Cell) (r cycle free : Nat) : Cell :=
  let chan (n f : Nat) : Word := memWord host (r + 16 * 16 + 16 * 256 + 128 * n + 4 * f)
  { c with
    recs := (List.range 16).map fun e =>
      (e, (c.record e).restore c.mem (memBytes host (r + 256 + 256 * e) 256) e cycle (free + 16 * e) (memWord host (r + 16 * e))
        (memWord host (r + 16 * e + 4)) (memWord host (r + 16 * e + 8)))
    ins := (List.range 16).map fun n => (n, (c.inCh n).restore (chan n))
    outs := (List.range 16).map fun n => (n, (c.outCh n).restore (chan (16 + n))) }

/-- A part of a cell from an image at host address `a` (log 50, DEDUCED). -/
def Cell.restorePart (c : Cell) (kind : Nat) (host : List Host.Cell) (a cycle free : Nat) : Cell :=
  match kind with
  | 3 =>
    { c with xset := (List.range 256).map fun i =>
        (i, ⟨memWord host (a + 16 * i), memWord host (a + 16 * i + 4), memWord host (a + 16 * i + 8)⟩) }
  | 4 => c.restoreRecords host a cycle free
  | k =>
    let lo := ckStore k
    { c with
      mem := memTake c.mem lo (ckSize k) host a
      bad := c.bad.filter fun w => !inside (8 * w) 8 lo (ckSize k)
      flips := c.flips.filter fun x => !inside x.span.1 x.span.2 lo (ckSize k) }

/-- Part `p` of a transfer is moved (log 50, DEDUCED). -/
def State.movePart (s : State) (m : Nat) (t : Transfer) : State :=
  let u := t.next % 1024
  let kind := t.next / 1024
  let a := t.addr + ckAt t.next
  if t.restore then
    { s with free := s.free + 256 }.onCell m u fun c => c.restorePart kind (s.mod m).io.hostMem a s.cycle s.free
  else s.onMod m fun x => { x with io := { x.io with hostMem := (s.cell m u).savePart kind x.io.hostMem a } }

/-- The part of a transfer lies in a store with a bank under repair, and waits (R426) (log 41, DEDUCED). -/
def State.partHeld (s : State) (m : Nat) (t : Transfer) : Bool :=
  let kind := t.next / 1024
  decide (kind < 3) && (s.cell m (t.next % 1024)).underRepair (ckStore kind) (ckSize kind)

/-- The transfer of a module moves one part, but not the last, when its time has come; the times are open. -/
def State.moveTransfer (s : State) (m : Nat) : State :=
  match (s.mod m).io.transfer with
  | some t =>
    if t.next + 1 < ckParts ∧ t.due ≤ s.cycle ∧ s.partHeld m t = false then
      let s := s.movePart m t
      { s with free := s.free + 1 }.onMod m fun x =>
        { x with io := { x.io with
          transfer := some { t with next := t.next + 1, due := s.cycle + 1 + Config.hostDelay s.free } } }
    else s
  | none => s

/-- A transfer begins at CKADDR as it stands; a GO while one is in progress has no effect (log 50, DEDUCED). -/
def State.startCheckpoint (s : State) (m : Nat) (restore : Bool) : State :=
  if (s.mod m).io.transfer.isSome then s
  else
    { s with free := s.free + 1 }.onMod m fun x =>
      { x with io := { x.io with
        ckDir := restore, transfer := some ⟨restore, x.io.ckAddr, 0, s.cycle + 1 + Config.hostDelay s.free⟩ } }

/-- CHECKPOINT_SAVE (R424). -/
def execCheckpointSave (s : State) : Out :=
  match s.write .checkpointSave with
  | some (m, _, _, _) => .next (s.startCheckpoint m false)
  | none => .refused (.eventNotDue "CHECKPOINT_SAVE")

/-- CHECKPOINT_RESTORE (R424). -/
def execCheckpointRestore (s : State) : Out :=
  match s.write .checkpointRestore with
  | some (m, _, _, _) => .next (s.startCheckpoint m true)
  | none => .refused (.eventNotDue "CHECKPOINT_RESTORE")

/-- CHECKPOINT_DONE of module `focus.m`: the last part has been moved and BUSY clears (R424). -/
def execCheckpointDone (s : State) : Out :=
  let m := s.focus.m
  match (s.mod m).io.transfer with
  | some t =>
    if ckParts ≤ t.next + 1 ∧ t.due ≤ s.cycle ∧ s.partHeld m t = false then
      .next ((s.movePart m t).onMod m fun x => { x with io := { x.io with transfer := none } })
    else .refused (.eventNotDue "CHECKPOINT_DONE")
  | none => .refused (.eventNotDue "CHECKPOINT_DONE")

/-! ### Stage migration (R425) -/

/-- Step 1: the neighbours of the failed chip isolate their links towards it. -/
def State.isolateChip (s : State) (chip : Nat) : State :=
  s.mods.foldl
    (fun s p => ((List.range 64).filter fun l =>
      (s.link p.1 l).nbrValid && (s.link p.1 l).nbrChip == chip && (s.link p.1 l).state != .isolated &&
        (s.link p.1 l).state != .down).foldl (fun s l => s.isolate p.1 l) s) s

/-- Ends of the records of a placement that are DEAD or CLOSED become UNCONF (step 2). -/
def Cell.freeEnds (c : Cell) (placement : Nat) : Cell :=
  let mine (rid : BitVec 16) : Bool :=
    let r := c.record (rid.toNat % 16)
    r.placement == placement && recordId r.gen (rid.toNat % 16) == rid
  let done (x : EndState) : Bool := x == .dead || x == .closed
  { c with
    ins := c.ins.map fun (p : Nat × InChan) =>
      (p.1, if mine p.2.owner && done p.2.state then { p.2 with state := .unconf } else p.2)
    outs := c.outs.map fun (p : Nat × OutChan) =>
      (p.1, if mine p.2.owner && done p.2.state then { p.2 with state := .unconf } else p.2) }

/-- A cell that holds records of the placement is unloaded (R356) (log 49, DEDUCED). -/
def Cell.unloadOf (c : Cell) (placement : Nat) : Cell :=
  if c.recs.any fun r => r.2.state != .free && r.2.placement == placement then c.unload else c

/-- The placement's ends are free, and its pinned translation entries zero. -/
def State.freePlacement (s : State) (placement : Nat) : State :=
  { s with mods := s.mods.map fun (p : Nat × Module) =>
    (p.1, { p.2 with cells := p.2.cells.map fun (q : Nat × Cell) => (q.1, (q.2.unloadOf placement).freeEnds placement) }) }

/-- The modules at the far ends of a module's UP links. -/
def State.neighbours (s : State) (m : Nat) : List Nat :=
  ((List.range 64).filter fun l => (s.link m l).state == .up).filterMap fun l => (s.farEnd ⟨m, l⟩).map fun q => q.m

/-- The modules that those of a list reach in at most `n` hops over UP links. -/
def State.reach (s : State) : Nat → List Nat → List Nat
  | 0, seen => seen
  | n + 1, seen => s.reach n (seen ++ seen.flatMap s.neighbours).eraseDups

/-- The spare in RUN of lowest SERIAL with MID.VALID = 0 that HOME `m` reaches (step 3). -/
def State.spare (s : State) (m : Nat) : Option Nat :=
  let near := s.reach s.mods.length [m]
  ((s.mods.filter fun p => near.contains p.1 && p.2.io.boot == .run && !p.2.io.midValid).foldl
    (fun (best : Option Nat) p =>
      match best with
      | none => some p.1
      | some b => if (Config.serial p.1).toNat < (Config.serial b).toNat then some p.1 else some b) none)

/-- Step 3: the spare takes the failed chip's id. -/
def State.adopt (s : State) (m chip : Nat) : State :=
  match s.spare m with
  | some k =>
    s.onMod k fun x => { x with io := { x.io with
      chip := chip, midValid := true, routes := tput x.io.routes chip { Route.reset with v := true, here := true } } }
  | none => s

/-- Step 3: the module that now has the failed chip's id restores that chip's part of the latest checkpoint, which is taken
over from host memory of module `k` at address `a` (log 50, DEDUCED). -/
def State.reloadChip (s : State) (chip k a : Nat) : State :=
  match s.moduleOf chip with
  | some m =>
    (s.onMod m fun x => { x with io := { x.io with
      hostMem := memTake x.io.hostMem a ckEnd (s.mod k).io.hostMem a
      ckLo := BitVec.ofNat 32 a &&& 0xFFFFF000, ckHi := BitVec.ofNat 32 (a / 2 ^ 32) } }).startCheckpoint m true
  | none => s

/-- A module is seen to have failed: a link towards it is ISOLATED, or a bank of it asks for a repair that takes no spare
(R386, R425, R426). -/
def State.failedChip (s : State) (chip : Nat) : Bool :=
  s.mods.any fun p =>
    ((List.range 64).any fun l =>
      (s.link p.1 l).nbrValid && (s.link p.1 l).nbrChip == chip && (s.link p.1 l).state == .isolated) ||
    (p.2.io.chip == chip && p.2.io.midValid && p.2.io.classifier.any fun q =>
      let e := q.2
      let used (col : Bool) : Nat := (s.cell p.1 (q.1 / 64 * 256 + e.celln)).spares e.store e.bank col
      e.v && e.req && (if e.cls = 3 then true else if e.cls = 2 then decide (2 ≤ used true) else decide (4 ≤ used false)))

/-- Step 4: modules rewrite the routing entry of the chip: for each of them its number, FIRST and MASK. -/
def State.rerouteAll (s : State) (chip : Nat) : List Nat → State
  | m :: first :: mask :: r =>
    ((((s.writeRoute m chip 1 (BitVec.ofNat 32 mask)).writeRoute m chip 2 (BitVec.ofNat 32 (mask / 2 ^ 32))).writeRoute m chip 0
      (BitVec.ofNat 32 (2 ^ 31 + first))).rerouteAll chip r)
  | _ => s

/-- STAGE_MIGRATION by the coordinator, Spire core 0 of HOME module `focus.m`, of the failed chip `focus.j`, one part of
R425 after another: `focus.v` is 1 to isolate, 2 to cancel the placement `focus.data` and 3 to free its ends, 4 to take the
spare, 5 to rewrite the routes that `focus.data` names, 6 to load the image of the new placement in `focus.data`, 7 to restore
the chip's checkpoint from host memory of the module and the address in `focus.data`. -/
def execStageMigration (s : State) : Out :=
  let f := s.focus
  let image := f.data.map fun b => BitVec.ofNat 8 b
  if (s.mod f.m).io.boot ≠ .run ∨ s.failedChip f.j = false then .refused (.eventNotDue "STAGE_MIGRATION")
  else
    match f.v with
    | 1 => .next (s.isolateChip f.j)
    | 2 => .next (s.cancelNotice f.m 1 (f.data.headD 0) false)
    | 3 => .next (s.freePlacement (f.data.headD 0))
    | 4 => .next (s.adopt f.m f.j)
    | 5 => .next (s.rerouteAll f.j f.data)
    | 6 =>
      if isPlacementImage image = true ∧ imageHome image = s.chip f.m then .next (s.hostPlacement f.m image)
      else .refused (.eventNotDue "STAGE_MIGRATION")
    | 7 => .next (s.reloadChip f.j (f.data.getD 0 0) (f.data.getD 1 0))
    | _ => .refused (.eventNotDue "STAGE_MIGRATION")

end Sys2Proof.Machine
end

