-- ==== Sys2Proof/Machine/Streams.lean ====
section
/-! DEFINITION. The channel instructions: spush, spop, srel, sget, sset, mcast and rctl (R286 to R293), and mstat (R407). -/

namespace Sys2Proof.Machine

/-- The error word of a channel instruction (R286). -/
def chanErr (code sel : Nat) : List TrapReq := [engineErr 3 code sel]

/-- A late error of an earlier push (R265, R286) (log 30, DEDUCED). -/
def View.chanLate (v : View) : List TrapReq := v.lateErr fun e => !e.array && e.cause == causeChanDead

/-- The first trap of a list of checks in the order of R286. -/
def chanChecks (ts : List (Bool × TrapReq)) : List TrapReq :=
  firstTrap ((ts.filter fun p => p.1).map fun p => p.2)

/-- The checks of the range that a push reads (R286, R287). -/
def View.pushRange (v : View) (a : Word) (n : Nat) : List TrapReq :=
  v.engineAligned a.toNat n 4 false false

/-- spush (R287): a release. -/
def execSpush (e : Bool) (a b : BitVec 6) (n : BitVec 5) (t : BitVec 6) (s : State) : Out :=
  runSyl s (.spush e a b n t) e fun v =>
    let ch := n.toNat
    let x := v.cell.outCh ch
    let len := (v.rs b).toNat % 2 ^ 17
    { engineSyl v false [a, b] t with
      dyn := v.pushRange (v.rs a) len ++
        chanChecks [(x.state == .dead, trapReq causeChanDead (BitVec.ofNat 32 ch)),
          (x.owner != v.st.recid, engineErr 3 1 ch), (x.state != .opened, engineErr 3 2 ch),
          (decide (x.peerSize < len), engineErr 3 3 ch), (x.grouped, engineErr 3 6 ch)] ++ v.chanLate
      blocked := x.fbc == 0 || v.scbFull 1
      fbcWait := if x.fbc = 0 then [ch] else []
      effects := [.release, .cmd (.spush ch (v.rs a) (v.rs b) (v.pt t))] }

/-- spop (R288). -/
def execSpop (e : Bool) (n : BitVec 5) (t : BitVec 6) (s : State) : Out :=
  runSyl s (.spop e n t) e fun v =>
    let ch := n.toNat
    let x := v.cell.inCh ch
    let filled := x.head.isSome
    { engineSyl v false [] t with
      dyn := chanChecks [(x.state == .dead && !filled, trapReq causeChanDead (BitVec.ofNat 32 ch)),
          (x.owner != v.st.recid, engineErr 3 1 ch), (x.state != .opened && x.state != .dead, engineErr 3 2 ch),
          (decide (x.slots ≤ x.popped), engineErr 3 4 ch)] ++ v.chanLate
      blocked := v.scbFull 1
      effects := [.cmd (.spop ch (v.pt t))] }

/-- srel (R289): a release. -/
def execSrel (e : Bool) (a : BitVec 6) (n : BitVec 5) (s : State) : Out :=
  runSyl s (.srel e a n) e fun v =>
    let ch := n.toNat
    let x := v.cell.inCh ch
    let cnt := (v.rs a).toNat % 128
    { engineSyl v false [a] 0 with
      dyn := chanChecks [(x.owner != v.st.recid, engineErr 3 1 ch),
          (x.state != .opened && x.state != .dead, engineErr 3 2 ch),
          (decide (x.popped < cnt + v.cell.releasing ch), engineErr 3 5 ch)] ++ v.chanLate
      blocked := cnt != 0 && v.scbFull 1
      effects := if cnt = 0 then [] else [.release, .cmd (.srel ch (v.rs a))] }

/-- The field of an end that an sget or sset names. -/
def View.chanField (v : View) (o : BitVec 1) (c : BitVec 4) (a : BitVec 6) : Option Word :=
  let f := (v.rs a).toNat % 256
  if o = 1 then (v.cell.outCh c.toNat).field f else (v.cell.inCh c.toNat).field f

/-- sget (R290). -/
def execSget (e : Bool) (a : BitVec 6) (o : BitVec 1) (c : BitVec 4) (t : BitVec 6) (s : State) : Out :=
  runSyl s (.sget e a o c t) e fun v =>
    { engineSyl v false [a] t with
      dyn := (if (v.chanField o c a).isNone then chanErr 7 (o.toNat * 16 + c.toNat) else []) ++ v.chanLate
      effects := [.cmd (.sget (o == 1) c.toNat (v.rs a) (v.pt t))] }

/-- sset (R290): privileged; it reads the new value from st. -/
def execSset (e : Bool) (a : BitVec 6) (o : BitVec 1) (c : BitVec 4) (t : BitVec 6) (s : State) : Out :=
  runSyl s (.sset e a o c t) e fun v =>
    let sel := o.toNat * 16 + c.toNat
    let y := engineSyl v false [a] t
    let fault := v.cell.writeFault (o == 1) c.toNat ((v.rs a).toNat % 256) (v.rs t)
    { y with
      reads := y.reads ++ [v.ps t]
      static := y.static ++ v.privileged
      dyn := (if fault ≠ 0 then chanErr fault sel else []) ++ v.chanLate
      effects := [.cmd (.sset (o == 1) c.toNat (v.rs a) (v.pt t))] }

/-- mcast (R291): a release. -/
def execMcast (e : Bool) (a b : BitVec 6) (n : BitVec 5) (t : BitVec 6) (s : State) : Out :=
  runSyl s (.mcast e a b n t) e fun v =>
    let g := n.toNat
    let outs := v.cell.groupOf g
    let xs := outs.map v.cell.outCh
    let len := (v.rs b).toNat % 2 ^ 17
    let full := xs.any fun x => x.fbc == 0
    let uneven := match xs with
      | [] => true
      | x :: r => r.any fun y => y.slots != x.slots || y.fbc != x.fbc
    { engineSyl v false [a, b] t with
      dyn := v.pushRange (v.rs a) len ++
        chanChecks [(xs.any (fun x => x.state == .dead), trapReq causeChanDead (BitVec.ofNat 32 g)),
          (xs.any (fun x => x.owner != v.st.recid), engineErr 3 1 g), (xs.any (fun x => x.state != .opened), engineErr 3 2 g),
          (xs.any (fun x => decide (x.peerSize < len)), engineErr 3 3 g), (uneven, engineErr 3 6 g)] ++ v.chanLate
      blocked := full || v.scbFull 1
      fbcWait := if full then outs else []
      effects := [.release, .cmd (.mcast g (v.rs a) (v.rs b) (v.pt t))] }

/-- rctl (R292): privileged. -/
def execRctl (e : Bool) (a b : BitVec 6) (n : BitVec 5) (s : State) : Out :=
  runSyl s (.rctl e a b n) e fun v =>
    let ch := n.toNat
    let x := v.cell.inCh ch
    let y := engineSyl v false [a, b] 0
    let fault := rateFault (v.rs a) (v.rs b) x.slots
    { y with
      static := y.static ++ v.privileged
      dyn := chanChecks [(x.owner != v.st.recid, engineErr 3 1 ch), (x.state != .opened, engineErr 3 2 ch),
          (fault != 0, engineErr 3 fault ch)] ++ v.chanLate
      effects := [.cmd (.rctl ch (v.rs a) (v.rs b))] }

/-- mstat (R407). -/
def execMstat (e : Bool) (a b : BitVec 6) (n : BitVec 5) (t : BitVec 6) (s : State) : Out :=
  runSyl s (.mstat e a b n t) e fun v =>
    { engineSyl v false [a, b] t with
      effects := [.cmd (.mstat n.toNat (v.rs a) (v.rs b) (v.pt t))] }

end Sys2Proof.Machine
end

