-- ==== Sys2Proof/Machine/TokenInstr.lean ====
section
/-! DEFINITION. The token instructions: tchk, twt and tjoin (R375 to R378). -/

namespace Sys2Proof.Machine

/-- tchk (R376). -/
def execTchk (e : Bool) (a t : BitVec 6) (s : State) : Out :=
  runSyl s (.tchk e a t) e fun v =>
    { engineSyl v true [a] t with effects := [.cmd (.tchk (v.rs a) (v.pt t))] }

/-- twt (R377): an acquire. It waits for the token, fails with TOKEN_EXPIRED, or raises the first error that waits for the
token or for an input of its join. -/
def execTwt (e : Bool) (a : BitVec 6) (s : State) : Out :=
  runSyl s (.twt e a) e fun v =>
    let tok := v.rs a
    let (waits, failed) := v.tokenWait tok
    let ts := v.cell.tokensOf v.chip v.b.u tok
    { engineSyl v true [a] 0 with
      dyn := if waits then []
        else if failed then [trapReq causeTokenExpired tok]
        else v.lateErr fun x => ts.contains x.token
      blocked := waits
      begins := v.beginsToken tok
      effects := [.acquire, .cmd (.twt tok)] }

/-- tjoin (R378): it waits for a free entry where it needs one (R362). -/
def execTjoin (e : Bool) (a b t : BitVec 6) (s : State) : Out :=
  runSyl s (.tjoin e a b t) e fun v =>
    let done := v.cell.joinDone v.chip v.b.u
    { engineSyl v true [a, b] t with
      blocked := !done (v.rs a) && !done (v.rs b) && !v.spire && v.cell.freeToken.isNone
      effects := [.cmd (.tjoin (v.rs a) (v.rs b) (v.pt t))] }

end Sys2Proof.Machine
end

