-- ==== Sys2Proof/Machine/TokenSteps.lean ====
section
/-! DEFINITION. The steps of carried requests, watchers, token waits and queries that are not syllables (R366 to R377). -/

namespace Sys2Proof.Machine

/-! ### Carried requests at the destination (R367 to R372) -/

/-- A carried request is held, with a WATCH to its token's origin, or turned back with a NACK (R367). -/
def State.holdRequest (s : State) (m u : Nat) (src : Addr) (strand : Nat) (r : Req) : State :=
  match (s.cell m u).freeHold with
  | some j =>
    let s := s.onCell m u fun c =>
      { c with
        hold := tput c.hold j ⟨r, src, strand, s.cycle, c.arrivals, none⟩
        arrivals := c.arrivals + 1 }
    let s := s.send m u strand src 5 (.held r.op r.sector)
    s.send m u 0 (tokenOrigin r.carry) 5 (.watch r.carry (j + 1))
  | none => s.send m u strand src 4 (.nack r.op r.sector)

/-- CARRIED_REQUEST_ARRIVAL (R367). -/
def execCarriedRequestArrival (s : State) : Out :=
  match s.request with
  | some (x, r) =>
    if s.carried x r then .next ((s.dropMsg x.id).holdRequest x.mod x.dst.unit x.src x.strand r)
    else .refused (.eventNotDue "CARRIED_REQUEST_ARRIVAL")
  | none => .refused (.eventNotDue "CARRIED_REQUEST_ARRIVAL")

/-- HOLD_ENTRY_PERFORM at unit `focus.u` (R370). -/
def execHoldEntryPerform (s : State) : Out :=
  let f := s.focus
  match (s.cell f.m f.u).nextHold s.cycle with
  | some (j, e) =>
    if (s.cell f.m f.u).underRepair e.req.off e.req.size then .refused (.eventNotDue "HOLD_ENTRY_PERFORM")
    else
      .next ((s.onCell f.m f.u fun c => { c with hold := tdel c.hold j }).performRequest f.m f.u e.src e.strand e.req)
  | none => .refused (.eventNotDue "HOLD_ENTRY_PERFORM")

/-- HOLD_ENTRY_EXPIRY of entry `focus.j` (R372). -/
def execHoldEntryExpiry (s : State) : Out :=
  let f := s.focus
  match (s.cell f.m f.u).hold.find? fun p => p.1 == f.j && (s.cell f.m f.u).holdExpired s.cycle p.2 with
  | some (j, e) =>
    .next ((s.onCell f.m f.u fun c => { c with hold := tdel c.hold j }).send f.m f.u e.strand e.src 4
      (.error e.req.op e.req.sector (copyErr errEXPIRED (e.req.carry.toNat % 65536))))
  | none => .refused (.eventNotDue "HOLD_ENTRY_EXPIRY")

/-! ### Carried requests at the source (R366, R371) -/

/-- A request that writes. -/
def OutReq.writes (q : OutReq) : Bool :=
  match q.req.kind with
  | .read _ => false
  | _ => true

/-- A change of the request of a command and sector that writes. -/
def Cell.onOutReq (c : Cell) (op sector : Nat) (f : OutReq → OutReq) : Cell :=
  c.onEngOp op fun o => { o with out := o.out.map fun q => if q.req.sector = sector ∧ q.writes = true then f q else q }

def Cell.outReq (c : Cell) (op sector : Nat) : Option OutReq :=
  match c.engOp op with
  | some o => o.out.find? fun q => q.req.sector == sector && q.writes
  | none => none

/-- HELD (R366). -/
def execHeld (s : State) : Out :=
  match s.arrival s.focus.j with
  | some x =>
    match x.body with
    | .held op sector =>
      .next ((s.dropMsg x.id).onCell x.mod x.dst.unit fun c => c.onOutReq op sector fun q => { q with state := .held })
    | _ => .refused (.eventNotDue "HELD")
  | none => .refused (.eventNotDue "HELD")

/-- A NACK: the request waits to be sent again, or is abandoned once TOKEXP cycles have passed since its first sending
(R371). -/
def State.takeNack (s : State) (m u op sector : Nat) : State :=
  let c := s.cell m u
  match c.outReq op sector with
  | none => s
  | some q =>
    if c.tokexp.toNat ≤ s.cycle - q.first then
      s.settleReq m u op sector (copyErr errEXPIRED (q.req.carry.toNat % 65536)) true
    else
      s.onCell m u fun c => c.onOutReq op sector fun q =>
        { q with nacks := q.nacks + 1, state := .backoff (s.cycle + backoff (q.nacks + 1)) }

/-- NACK (R371). -/
def execNack (s : State) : Out :=
  match s.arrival s.focus.j with
  | some x =>
    match x.body with
    | .nack op sector => .next ((s.dropMsg x.id).takeNack x.mod x.dst.unit op sector)
    | _ => .refused (.eventNotDue "NACK")
  | none => .refused (.eventNotDue "NACK")

/-- A request whose back-off after a NACK has ended. -/
def OutReq.retries (q : OutReq) (cycle : Nat) : Bool :=
  match q.state with
  | .backoff t => q.nacks != 0 && decide (t ≤ cycle)
  | _ => false

/-- NACK_BACKOFF_EXPIRY of a request of command `focus.j` and sector `focus.v`: it may be sent again (R371). -/
def execNackBackoffExpiry (s : State) : Out :=
  let f := s.focus
  if ((s.cell f.m f.u).outReq f.j f.v).any fun q => q.retries s.cycle then
    .next (s.onCell f.m f.u fun c => c.onOutReq f.j f.v fun q => { q with state := .ready })
  else .refused (.eventNotDue "NACK_BACKOFF_EXPIRY")

/-! ### Watching (R364, R368, R377) -/

/-- WATCH at a token's origin (R368). -/
def execWatch (s : State) : Out :=
  match s.arrival s.focus.j with
  | some x =>
    match x.body with
    | .watch t tag => .next ((s.dropMsg x.id).answerWatch x.mod x.dst.unit x.src t tag)
    | _ => .refused (.eventNotDue "WATCH")
  | none => .refused (.eventNotDue "WATCH")

/-- RELEASE at a holder (R370). -/
def execRelease (s : State) : Out :=
  match s.arrival s.focus.j with
  | some x =>
    match x.body with
    | .release t => .next ((s.dropMsg x.id).onCell x.mod x.dst.unit fun c => c.releaseToken s.cycle t)
    | _ => .refused (.eventNotDue "RELEASE")
  | none => .refused (.eventNotDue "RELEASE")

/-- BUSY at a holder: a held entry is freed and its source gets a NACK; a wait sends its WATCH again later (R368, R377). -/
def State.takeBusy (s : State) (m u : Nat) (t : Word) (tag : Nat) : State :=
  let c := s.cell m u
  if tag = 0 then
    match c.outWait t with
    | some w =>
      let until' := s.cycle + backoff (w.tries + 1)
      s.onCell m u fun c => c.onWaits (fun x => x.what == w.what) fun x =>
        { x with tries := x.tries + 1, state := .backoff until' }
    | none => s
  else
    match c.hold.find? fun p => p.1 + 1 == tag && p.2.req.carry == t && p.2.ready.isNone with
    | some (j, e) =>
      (s.onCell m u fun c => { c with hold := tdel c.hold j }).send m u e.strand e.src 4 (.nack e.req.op e.req.sector)
    | none => s

/-- BUSY (R368). -/
def execBusy (s : State) : Out :=
  match s.arrival s.focus.j with
  | some x =>
    match x.body with
    | .busy t tag => .next ((s.dropMsg x.id).takeBusy x.mod x.dst.unit t tag)
    | _ => .refused (.eventNotDue "BUSY")
  | none => .refused (.eventNotDue "BUSY")

/-- The wait at place `j` of a cell. -/
def Cell.waitAt (c : Cell) (j : Nat) : Option TokenWait := c.waits[j]?

/-- A wait whose WATCH is to be sent again now. -/
def TokenWait.retries (w : TokenWait) (cycle : Nat) : Bool :=
  match w.state with
  | .backoff t => decide (t ≤ cycle)
  | _ => false

def TokenWait.isQuery (w : TokenWait) : Bool :=
  match w.what with
  | .query .. => true
  | _ => false

/-- WATCH_RETRY_EXPIRY of the wait at place `focus.j` (R371, R377). -/
def execWatchRetryExpiry (s : State) : Out :=
  let f := s.focus
  match (s.cell f.m f.u).waitAt f.j with
  | some w =>
    if w.retries s.cycle then
      .next ((s.onCell f.m f.u fun c => c.onWaits (fun x => x.what == w.what) fun x => { x with state := .out }).send
        f.m f.u 0 (tokenOrigin w.token) 5 (.watch w.token 0))
    else .refused (.eventNotDue "WATCH_RETRY_EXPIRY")
  | none => .refused (.eventNotDue "WATCH_RETRY_EXPIRY")

/-- A wait that has lasted TOKEXP cycles since its first WATCH or QUERY. -/
def Cell.waitExpired (c : Cell) (cycle : Nat) (w : TokenWait) : Bool := w.open' && decide (c.tokexp.toNat ≤ cycle - w.first)

/-- WATCH_TIMEOUT of the wait at place `focus.j` (R263, R368, R377). -/
def execWatchTimeout (s : State) : Out :=
  let f := s.focus
  match (s.cell f.m f.u).waitAt f.j with
  | some w =>
    if (s.cell f.m f.u).waitExpired s.cycle w && !w.isQuery then
      .next (s.failWait f.m f.u w (BitVec.ofNat 32 (0x02070000 + w.token.toNat % 65536)))
    else .refused (.eventNotDue "WATCH_TIMEOUT")
  | none => .refused (.eventNotDue "WATCH_TIMEOUT")

/-! ### Queries (R376) -/

/-- QUERY at a token's origin. -/
def execQuery (s : State) : Out :=
  match s.arrival s.focus.j with
  | some x =>
    match x.body with
    | .query t op =>
      .next ((s.dropMsg x.id).send x.mod x.dst.unit 0 x.src 5
        (.queryAnswer op ((s.cell x.mod x.dst.unit).tokenStatus t)))
    | _ => .refused (.eventNotDue "QUERY")
  | none => .refused (.eventNotDue "QUERY")

/-- The query of operation `op` ends with a status word, delivered in the next cycle. -/
def State.endQuery (s : State) (m u op : Nat) (x : Word) : State :=
  let chip := s.chip m
  s.onCell m u fun c =>
    c.waits.foldl
      (fun c w =>
        match w.what with
        | .query k t op' =>
          if op' = op then (c.endWait w.what).deliverAt (s.cycle + 1) k op t x [.concerns (c.tokensOf chip u w.token)]
          else c
        | _ => c) c

/-- QUERY_ANSWER (R376). -/
def execQueryAnswer (s : State) : Out :=
  match s.arrival s.focus.j with
  | some x =>
    match x.body with
    | .queryAnswer op w => .next ((s.dropMsg x.id).endQuery x.mod x.dst.unit op w)
    | _ => .refused (.eventNotDue "QUERY_ANSWER")
  | none => .refused (.eventNotDue "QUERY_ANSWER")

/-- QUERY_TIMEOUT of the wait at place `focus.j`: the status is 3 (R376). -/
def execQueryTimeout (s : State) : Out :=
  let f := s.focus
  match (s.cell f.m f.u).waitAt f.j with
  | some w =>
    match w.what with
    | .query _ _ op =>
      if (s.cell f.m f.u).waitExpired s.cycle w then .next (s.endQuery f.m f.u op 3)
      else .refused (.eventNotDue "QUERY_TIMEOUT")
    | _ => .refused (.eventNotDue "QUERY_TIMEOUT")
  | none => .refused (.eventNotDue "QUERY_TIMEOUT")

end Sys2Proof.Machine
end

