-- ==== Sys2Proof/Machine/Vector.lean ====
section
/-! DEFINITION. Class V: the vector instructions (R78, R120 to R150). -/

namespace Sys2Proof.Machine

/-- JoinTag of R127: the result tag of two operands, or FMT_TAG with the number of vb. -/
def joinTag (x y : VReg) (b : BitVec 6) : Except TrapReq (BitVec 3) :=
  if x.tag = tagRAW then .ok y.tag
  else if y.tag = tagRAW ∨ y.tag = x.tag then .ok x.tag
  else .error (trapReq causeFmtTag (b.setWidth 32))

/-- CLUSTER with the first operand, in the order given, that lies outside the unit's cluster (R67, R133). -/
def clusterCheck (unit : Nat) (vecs : List (BitVec 6)) : List TrapReq :=
  match vecs.find? fun r => clusterOf r.toNat != unit with
  | some r => [trapReq causeCluster (r.setWidth 32)]
  | none => []

/-- The checks that every class V syllable makes before its values: fields, clusters and declarations; `vecs` are its
vector operands in the order d, a, b, and `unit` the cluster whose unit it takes (log 16, DEDUCED). -/
def vBase (v : View) (unit : Nat) (vecs scalars : List (BitVec 6)) (preds : List Nat) (oneCluster : Bool) : Syl :=
  { v.syl .vector false with
    cluster := unit
    reads := scalars.map v.ps
    static := v.illegal false ++ (if oneCluster then clusterCheck unit vecs else []) ++ v.declV vecs ++
      v.declS scalars ++ v.declQ preds }

/-- The merge check of R128. -/
def mergeCheck (v : View) (d : BitVec 6) (q : BitVec 3) (m : BitVec 2) (tag : BitVec 3) : List TrapReq :=
  if q ≠ 0 ∧ m = 0 then checkTag (v.rv d) d tag else []

/-- One lane's result: value, FPF flags and counter increments. -/
structure LaneOut where
  val : Word
  flags : FpFlags
  cvt : Nat
  nan : Nat
deriving DecidableEq, Repr

def laneVal (x : Word) : LaneOut := ⟨x, 0, 0, 0⟩
def laneFp (r : Word × FpFlags) : LaneOut := ⟨r.1, r.2, 0, 0⟩

/-- The frame of R131: the lanes under the governing predicate take `f k`, the others 0 or the old lane of vd. -/
def frameLanes (v : View) (d : BitVec 6) (q : BitVec 3) (m : BitVec 2) (f : Nat → LaneOut) : List LaneOut :=
  let p := v.rq q.toNat
  let old := (v.rv d).lanes
  (List.range 32).map fun k =>
    if p.getLsbD k then f k else if m = 1 then laneVal 0 else laneVal (old.getD k 0)

/-- The landing of a vector result with its flags and counter increments (R129, R135, R136). -/
def vLand (v : View) (d : BitVec 6) (lat : Nat) (tag : BitVec 3) (lanes : List LaneOut) : Landing :=
  { v.landing (.v (physV v.st.rrb d.toNat)) (.vec (vregOf (lanes.map fun l => l.val) tag)) lat with
    flags := lanes.foldl (fun x l => x ||| l.flags) 0
    cvtSat := lanes.foldl (fun x l => x + l.cvt) 0
    nanScale := lanes.foldl (fun x l => x + l.nan) 0 }

/-- A vector instruction of the frame of R131: source checks, merge check, lanes, landing. -/
def sylFrame (v : View) (y : Syl) (d : BitVec 6) (q : BitVec 3) (m : BitVec 2) (lat : Nat) (tag : BitVec 3)
    (checks : List TrapReq) (f : Nat → LaneOut) : Syl :=
  { y with
    dests := [(.v (physV v.st.rrb d.toNat), lat)]
    dyn := checks ++ mergeCheck v d q m tag
    effects := [.land (vLand v d lat tag (frameLanes v d q m f))] }

/-- Two vector sources that both require `want`, one result lane by lane (R137, R139). -/
def sylVV (v : View) (d a b : BitVec 6) (q : BitVec 3) (m : BitVec 2) (want tag : BitVec 3) (lat : Nat)
    (f : Word → Word → LaneOut) : Syl :=
  let x := v.rv a
  let y := v.rv b
  sylFrame v (vBase v (clusterOf d.toNat) [d, a, b] [] [q.toNat] true) d q m lat tag
    (checkTag x a want ++ checkTag y b want) fun k => f (x.lanes.getD k 0) (y.lanes.getD k 0)

/-- One vector source that requires `want` (R139, R140). -/
def sylV (v : View) (d a : BitVec 6) (q : BitVec 3) (m : BitVec 2) (want tag : BitVec 3) (lat : Nat)
    (f : Word → LaneOut) : Syl :=
  let x := v.rv a
  sylFrame v (vBase v (clusterOf d.toNat) [d, a] [] [q.toNat] true) d q m lat tag (checkTag x a want)
    fun k => f (x.lanes.getD k 0)

/-- The bitwise forms, whose result tag is the join of their operands' (R127, R137). -/
def sylJoin (v : View) (d a b : BitVec 6) (q : BitVec 3) (m : BitVec 2) (f : Word → Word → Word) : Syl :=
  let x := v.rv a
  let y := v.rv b
  let base := vBase v (clusterOf d.toNat) [d, a, b] [] [q.toNat] true
  match joinTag x y b with
  | .error t => { base with dests := [(.v (physV v.st.rrb d.toNat), 2)], dyn := [t] }
  | .ok tag => sylFrame v base d q m 2 tag [] fun k => laneVal (f (x.lanes.getD k 0) (y.lanes.getD k 0))

/-- A compare, which writes a predicate under R132; its unit is that of va. -/
def sylCompare (v : View) (d a b : BitVec 6) (q : BitVec 3) (m : BitVec 2) (want : BitVec 3) (lat : Nat)
    (f : Word → Word → Bool × FpFlags) : Syl :=
  let x := v.rv a
  let y := v.rv b
  let p := v.rq q.toNat
  let old := v.rq d.toNat
  let slot := physQ v.st.rrb d.toNat
  let outs := (List.range 32).map fun k =>
    if p.getLsbD k then f (x.lanes.getD k 0) (y.lanes.getD k 0)
    else (if m = 1 then false else old.getLsbD k, (0 : FpFlags))
  let word := (List.range 32).foldl (fun n k => if (outs.getD k (false, 0)).1 then n + 2 ^ k else n) 0
  { vBase v (clusterOf a.toNat) [a, b] [] [] true with
    static := v.illegal false ++ clusterCheck (clusterOf a.toNat) [a, b] ++ v.declQ [d.toNat] ++ v.declV [a, b] ++
      v.declQ [q.toNat]
    dests := if isPred d then [(.q slot, lat)] else []
    dyn := checkTag x a want ++ checkTag y b want
    effects := [.land { v.landing (.q slot) (.word (BitVec.ofNat 32 word)) lat with
      flags := outs.foldl (fun z o => z ||| o.2) 0 }] }

/-- FPC.RM, FPC.FTZ and FPC.E4M3SAT of the issuing bundle (R135, R155). -/
def View.rm (v : View) : BitVec 2 := v.st.fpc.setWidth 2
def View.ftz (v : View) : Bool := v.st.fpc.getLsbD 2
def View.e4m3sat (v : View) : Bool := v.st.fpc.getLsbD 3

/-! ### Integer lanes (R137) -/

def execVaddI (e : Bool) (d a b : BitVec 6) (q : BitVec 3) (m : BitVec 2) (s : State) : Out :=
  runSyl s (.vaddI e d a b q m) e fun v => sylVV v d a b q m tagI32 tagI32 2 fun x y => laneVal (x + y)

def execVsubI (e : Bool) (d a b : BitVec 6) (q : BitVec 3) (m : BitVec 2) (s : State) : Out :=
  runSyl s (.vsubI e d a b q m) e fun v => sylVV v d a b q m tagI32 tagI32 2 fun x y => laneVal (x - y)

def execVmulI (e : Bool) (d a b : BitVec 6) (q : BitVec 3) (m : BitVec 2) (s : State) : Out :=
  runSyl s (.vmulI e d a b q m) e fun v => sylVV v d a b q m tagI32 tagI32 2 fun x y => laneVal (x * y)

def execVminI (e : Bool) (d a b : BitVec 6) (q : BitVec 3) (m : BitVec 2) (s : State) : Out :=
  runSyl s (.vminI e d a b q m) e fun v => sylVV v d a b q m tagI32 tagI32 2 fun x y => laneVal (minS x y)

def execVmaxI (e : Bool) (d a b : BitVec 6) (q : BitVec 3) (m : BitVec 2) (s : State) : Out :=
  runSyl s (.vmaxI e d a b q m) e fun v => sylVV v d a b q m tagI32 tagI32 2 fun x y => laneVal (maxS x y)

def execVand (e : Bool) (d a b : BitVec 6) (q : BitVec 3) (m : BitVec 2) (s : State) : Out :=
  runSyl s (.vand e d a b q m) e fun v => sylJoin v d a b q m fun x y => x &&& y

def execVor (e : Bool) (d a b : BitVec 6) (q : BitVec 3) (m : BitVec 2) (s : State) : Out :=
  runSyl s (.vor e d a b q m) e fun v => sylJoin v d a b q m fun x y => x ||| y

def execVxor (e : Bool) (d a b : BitVec 6) (q : BitVec 3) (m : BitVec 2) (s : State) : Out :=
  runSyl s (.vxor e d a b q m) e fun v => sylJoin v d a b q m fun x y => x ^^^ y

def execVshl (e : Bool) (d a b : BitVec 6) (q : BitVec 3) (m : BitVec 2) (s : State) : Out :=
  runSyl s (.vshl e d a b q m) e fun v => sylVV v d a b q m tagI32 tagI32 2 fun x y => laneVal (shlW x y)

def execVshr (e : Bool) (d a b : BitVec 6) (q : BitVec 3) (m : BitVec 2) (s : State) : Out :=
  runSyl s (.vshr e d a b q m) e fun v => sylVV v d a b q m tagI32 tagI32 2 fun x y => laneVal (shrW x y)

def execVsra (e : Bool) (d a b : BitVec 6) (q : BitVec 3) (m : BitVec 2) (s : State) : Out :=
  runSyl s (.vsra e d a b q m) e fun v => sylVV v d a b q m tagI32 tagI32 2 fun x y => laneVal (sraW x y)

/-! ### Compares (R132, R138) -/

def execVceqI (e : Bool) (d a b : BitVec 6) (q : BitVec 3) (m : BitVec 2) (s : State) : Out :=
  runSyl s (.vceqI e d a b q m) e fun v => sylCompare v d a b q m tagI32 2 fun x y => (x == y, 0)

def execVcltI (e : Bool) (d a b : BitVec 6) (q : BitVec 3) (m : BitVec 2) (s : State) : Out :=
  runSyl s (.vcltI e d a b q m) e fun v => sylCompare v d a b q m tagI32 2 fun x y => (x.slt y, 0)

def execVcltuI (e : Bool) (d a b : BitVec 6) (q : BitVec 3) (m : BitVec 2) (s : State) : Out :=
  runSyl s (.vcltuI e d a b q m) e fun v => sylCompare v d a b q m tagI32 2 fun x y => (x.ult y, 0)

def execVceqF (e : Bool) (d a b : BitVec 6) (q : BitVec 3) (m : BitVec 2) (s : State) : Out :=
  runSyl s (.vceqF e d a b q m) e fun v => sylCompare v d a b q m tagF32 4 (fpCompare v.ftz numEq)

def execVcltF (e : Bool) (d a b : BitVec 6) (q : BitVec 3) (m : BitVec 2) (s : State) : Out :=
  runSyl s (.vcltF e d a b q m) e fun v => sylCompare v d a b q m tagF32 4 (fpCompare v.ftz numLt)

def execVcleF (e : Bool) (d a b : BitVec 6) (q : BitVec 3) (m : BitVec 2) (s : State) : Out :=
  runSyl s (.vcleF e d a b q m) e fun v =>
    sylCompare v d a b q m tagF32 4 (fpCompare v.ftz fun x y => numLt x y || numEq x y)

/-! ### FP32 lanes (R139) -/

def execVaddF (e : Bool) (d a b : BitVec 6) (q : BitVec 3) (m : BitVec 2) (s : State) : Out :=
  runSyl s (.vaddF e d a b q m) e fun v =>
    sylVV v d a b q m tagF32 tagF32 4 fun x y => laneFp (fpAdd v.rm v.ftz x y)

def execVsubF (e : Bool) (d a b : BitVec 6) (q : BitVec 3) (m : BitVec 2) (s : State) : Out :=
  runSyl s (.vsubF e d a b q m) e fun v =>
    sylVV v d a b q m tagF32 tagF32 4 fun x y => laneFp (fpSub v.rm v.ftz x y)

def execVmulF (e : Bool) (d a b : BitVec 6) (q : BitVec 3) (m : BitVec 2) (s : State) : Out :=
  runSyl s (.vmulF e d a b q m) e fun v =>
    sylVV v d a b q m tagF32 tagF32 4 fun x y => laneFp (fpMul v.rm v.ftz x y)

/-- vfma.f and vfms.f read vd as a third source (R139). -/
def sylFma (v : View) (d a b : BitVec 6) (q : BitVec 3) (m : BitVec 2) (sub : Bool) : Syl :=
  let x := v.rv a
  let y := v.rv b
  let z := v.rv d
  sylFrame v (vBase v (clusterOf d.toNat) [d, a, b] [] [q.toNat] true) d q m 5 tagF32
    (checkTag x a tagF32 ++ checkTag y b tagF32 ++ checkTag z d tagF32) fun k =>
      laneFp (fpFma v.rm v.ftz sub (z.lanes.getD k 0) (x.lanes.getD k 0) (y.lanes.getD k 0))

def execVfmaF (e : Bool) (d a b : BitVec 6) (q : BitVec 3) (m : BitVec 2) (s : State) : Out :=
  runSyl s (.vfmaF e d a b q m) e fun v => sylFma v d a b q m false

def execVfmsF (e : Bool) (d a b : BitVec 6) (q : BitVec 3) (m : BitVec 2) (s : State) : Out :=
  runSyl s (.vfmsF e d a b q m) e fun v => sylFma v d a b q m true

def execVdivF (e : Bool) (d a b : BitVec 6) (q : BitVec 3) (m : BitVec 2) (s : State) : Out :=
  runSyl s (.vdivF e d a b q m) e fun v =>
    sylVV v d a b q m tagF32 tagF32 14 fun x y => laneFp (fpDiv v.rm v.ftz x y)

def execVsqrtF (e : Bool) (d a : BitVec 6) (q : BitVec 3) (m : BitVec 2) (s : State) : Out :=
  runSyl s (.vsqrtF e d a q m) e fun v => sylV v d a q m tagF32 tagF32 14 fun x => laneFp (fpSqrt v.rm v.ftz x)

def execVrcpF (e : Bool) (d a : BitVec 6) (q : BitVec 3) (m : BitVec 2) (s : State) : Out :=
  runSyl s (.vrcpF e d a q m) e fun v => sylV v d a q m tagF32 tagF32 6 fun x => laneFp (fpRcp v.ftz x)

def execVrsqF (e : Bool) (d a : BitVec 6) (q : BitVec 3) (m : BitVec 2) (s : State) : Out :=
  runSyl s (.vrsqF e d a q m) e fun v => sylV v d a q m tagF32 tagF32 6 fun x => laneFp (fpRsq v.ftz x)

def execVminF (e : Bool) (d a b : BitVec 6) (q : BitVec 3) (m : BitVec 2) (s : State) : Out :=
  runSyl s (.vminF e d a b q m) e fun v =>
    sylVV v d a b q m tagF32 tagF32 4 fun x y => laneFp (fpMinMax v.ftz false x y)

def execVmaxF (e : Bool) (d a b : BitVec 6) (q : BitVec 3) (m : BitVec 2) (s : State) : Out :=
  runSyl s (.vmaxF e d a b q m) e fun v =>
    sylVV v d a b q m tagF32 tagF32 4 fun x y => laneFp (fpMinMax v.ftz true x y)

/-- vabs.f and vneg.f change bit 31 only (R36). -/
def execVabsF (e : Bool) (d a : BitVec 6) (q : BitVec 3) (m : BitVec 2) (s : State) : Out :=
  runSyl s (.vabsF e d a q m) e fun v => sylV v d a q m tagF32 tagF32 4 fun x => laneVal (x &&& 0x7FFFFFFF)

def execVnegF (e : Bool) (d a : BitVec 6) (q : BitVec 3) (m : BitVec 2) (s : State) : Out :=
  runSyl s (.vnegF e d a q m) e fun v => sylV v d a q m tagF32 tagF32 4 fun x => laneVal (x ^^^ 0x80000000)

def execVexp2F (e : Bool) (d a : BitVec 6) (q : BitVec 3) (m : BitVec 2) (s : State) : Out :=
  runSyl s (.vexp2F e d a q m) e fun v => sylV v d a q m tagF32 tagF32 8 fun x => laneFp (fpExp2 v.ftz x)

def execVlog2F (e : Bool) (d a : BitVec 6) (q : BitVec 3) (m : BitVec 2) (s : State) : Out :=
  runSyl s (.vlog2F e d a q m) e fun v => sylV v d a q m tagF32 tagF32 8 fun x => laneFp (fpLog2 v.ftz x)

/-! ### Conversions (R140 to R142) -/

def execVcvtFI (e : Bool) (d a : BitVec 6) (q : BitVec 3) (m : BitVec 2) (s : State) : Out :=
  runSyl s (.vcvtFI e d a q m) e fun v => sylV v d a q m tagI32 tagF32 3 fun x => laneFp (fpOfInt v.rm x)

def execVcvtIF (e : Bool) (d a : BitVec 6) (q : BitVec 3) (m : BitVec 2) (s : State) : Out :=
  runSyl s (.vcvtIF e d a q m) e fun v => sylV v d a q m tagF32 tagI32 3 fun x => laneFp (fpToInt v.rm v.ftz x)

/-- Part `n` of a lane, of `w` bits, and the lane with that part replaced (R43, R45). -/
def lanePart (x : Word) (n w : Nat) : Nat := x.toNat / 2 ^ (w * n) % 2 ^ w
def setPart (x : Word) (n w part : Nat) : Word :=
  BitVec.ofNat 32 (x.toNat - lanePart x n w * 2 ^ (w * n) + part % 2 ^ w * 2 ^ (w * n))

/-- A pack into part `n`: vd keeps its other parts when its tag is the result's or RAW (R142). -/
def sylPack (v : View) (d a : BitVec 6) (n w : Nat) (q : BitVec 3) (m : BitVec 2) (want tag : BitVec 3)
    (f : Word → Nat × FpFlags × Nat) : Syl :=
  let x := v.rv a
  let old := v.rv d
  let keep := old.tag = tag ∨ old.tag = tagRAW
  sylFrame v (vBase v (clusterOf d.toNat) [d, a] [] [q.toNat] true) d q m 3 tag (checkTag x a want) fun k =>
    let r := f (x.lanes.getD k 0)
    ⟨setPart (if keep then old.lanes.getD k 0 else 0) n w r.1, r.2.1, r.2.2, 0⟩

def execVpkE4m3 (e : Bool) (d a : BitVec 6) (p : BitVec 2) (q : BitVec 3) (m : BitVec 2) (s : State) : Out :=
  runSyl s (.vpkE4m3 e d a p q m) e fun v =>
    sylPack v d a p.toNat 8 q m tagF32 tagE4M3Q fun x =>
      let r := fpToE4m3 v.ftz v.e4m3sat x
      (r.1.toNat, r.2.1, r.2.2.toNat)

def execVupE4m3 (e : Bool) (d a : BitVec 6) (p : BitVec 2) (q : BitVec 3) (m : BitVec 2) (s : State) : Out :=
  runSyl s (.vupE4m3 e d a p q m) e fun v =>
    sylV v d a q m tagE4M3Q tagF32 3 fun x => laneVal (fpOfE4m3 (BitVec.ofNat 8 (lanePart x p.toNat 8)))

def execVpkI8 (e : Bool) (d a : BitVec 6) (p : BitVec 2) (q : BitVec 3) (m : BitVec 2) (s : State) : Out :=
  runSyl s (.vpkI8 e d a p q m) e fun v =>
    sylPack v d a p.toNat 8 q m tagI32 tagI8Q fun x =>
      ((BitVec.ofInt 8 (satInt x.toInt (-128) 127)).toNat, 0, 0)

def execVupI8 (e : Bool) (d a : BitVec 6) (p : BitVec 2) (q : BitVec 3) (m : BitVec 2) (s : State) : Out :=
  runSyl s (.vupI8 e d a p q m) e fun v =>
    sylV v d a q m tagI8Q tagI32 3 fun x => laneVal (sext (BitVec.ofNat 8 (lanePart x p.toNat 8)))

def execVpkBf16 (e : Bool) (d a : BitVec 6) (p : BitVec 1) (q : BitVec 3) (m : BitVec 2) (s : State) : Out :=
  runSyl s (.vpkBf16 e d a p q m) e fun v =>
    sylPack v d a p.toNat 16 q m tagF32 tagBF16P fun x =>
      let r := fpToBf16 v.ftz x
      (r.1.toNat, r.2, 0)

def execVupBf16 (e : Bool) (d a : BitVec 6) (p : BitVec 1) (q : BitVec 3) (m : BitVec 2) (s : State) : Out :=
  runSyl s (.vupBf16 e d a p q m) e fun v =>
    sylV v d a q m tagBF16P tagF32 3 fun x => laneFp (fpOfBf16 (BitVec.ofNat 16 (lanePart x p.toNat 16)))

/-! ### Reductions (R41, R143) -/

/-- One level of the tree: neighbours combined, the lower lane first. -/
def treeLevel (f : Word → Word → Word × FpFlags) : List (Word × FpFlags) → List (Word × FpFlags)
  | x :: y :: r =>
    let z := f x.1 y.1
    (z.1, z.2 ||| x.2 ||| y.2) :: treeLevel f r
  | r => r

/-- The tree of five levels over 32 lanes (R41). -/
def treeReduce (f : Word → Word → Word × FpFlags) (lanes : List Word) : Word × FpFlags :=
  let l := lanes.map fun x => (x, (0 : FpFlags))
  (treeLevel f (treeLevel f (treeLevel f (treeLevel f (treeLevel f l))))).getD 0 (0, 0)

/-- A reduction: masked lanes enter as the identity, and the result goes to every lane under the predicate (R143). -/
def sylReduce (v : View) (d a : BitVec 6) (q : BitVec 3) (m : BitVec 2) (tag : BitVec 3) (unit : Word)
    (f : Word → Word → Word × FpFlags) : Syl :=
  let x := v.rv a
  let p := v.rq q.toNat
  let r := treeReduce f ((List.range 32).map fun k => if p.getLsbD k then x.lanes.getD k 0 else unit)
  let y := sylFrame v (vBase v (clusterOf d.toNat) [d, a] [] [q.toNat] true) d q m 6 tag (checkTag x a tag)
    fun _ => laneVal r.1
  { y with effects := y.effects.map fun z =>
      match z with
      | .land l => .land { l with flags := r.2 }
      | w => w }

def execVredaddF (e : Bool) (d a : BitVec 6) (q : BitVec 3) (m : BitVec 2) (s : State) : Out :=
  runSyl s (.vredaddF e d a q m) e fun v => sylReduce v d a q m tagF32 0 (fpAdd v.rm v.ftz)

def execVredmaxF (e : Bool) (d a : BitVec 6) (q : BitVec 3) (m : BitVec 2) (s : State) : Out :=
  runSyl s (.vredmaxF e d a q m) e fun v => sylReduce v d a q m tagF32 0xFF800000 (fpMinMax v.ftz true)

def execVredaddI (e : Bool) (d a : BitVec 6) (q : BitVec 3) (m : BitVec 2) (s : State) : Out :=
  runSyl s (.vredaddI e d a q m) e fun v => sylReduce v d a q m tagI32 0 fun x y => (x + y, 0)

def execVredmaxI (e : Bool) (d a : BitVec 6) (q : BitVec 3) (m : BitVec 2) (s : State) : Out :=
  runSyl s (.vredmaxI e d a q m) e fun v => sylReduce v d a q m tagI32 0x80000000 fun x y => (maxS x y, 0)

/-! ### Permutes and moves (R144 to R148) -/

/-- A permute: lane k of the result from the lanes of va, with the tag of va. -/
def sylPermute (v : View) (base : Syl) (d a : BitVec 6) (q : BitVec 3) (m : BitVec 2) (lat : Nat)
    (checks : List TrapReq) (f : Vector Word 32 → Nat → Word) : Syl :=
  let x := v.rv a
  sylFrame v base d q m lat x.tag checks fun k => laneVal (f x.lanes k)

def execVperm (e : Bool) (d a b : BitVec 6) (q : BitVec 3) (m : BitVec 2) (s : State) : Out :=
  runSyl s (.vperm e d a b q m) e fun v =>
    let y := v.rv b
    sylPermute v (vBase v (clusterOf d.toNat) [d, a, b] [] [q.toNat] true) d a q m 3 (checkTag y b tagI32)
      fun x k => x.getD ((y.lanes.getD k 0).toNat % 32) 0

def execVbcast (e : Bool) (d a l : BitVec 6) (q : BitVec 3) (m : BitVec 2) (s : State) : Out :=
  runSyl s (.vbcast e d a l q m) e fun v =>
    sylPermute v (vBase v (clusterOf d.toNat) [d, a] [] [q.toNat] true) d a q m 3 [] fun x _ => x.getD l.toNat 0

def execVslide (e : Bool) (d a n : BitVec 6) (q : BitVec 3) (m : BitVec 2) (s : State) : Out :=
  runSyl s (.vslide e d a n q m) e fun v =>
    sylPermute v (vBase v (clusterOf d.toNat) [d, a] [] [q.toNat] true) d a q m 3 [] fun x k =>
      let j : Int := k + n.toInt
      if 0 ≤ j ∧ j ≤ 31 then x.getD j.toNat 0 else 0

/-- vsel: every lane is written, from va or from vb (R144). -/
def execVsel (e : Bool) (d a b : BitVec 6) (q : BitVec 3) (s : State) : Out :=
  runSyl s (.vsel e d a b q) e fun v =>
    let x := v.rv a
    let y := v.rv b
    let p := v.rq q.toNat
    let base := vBase v (clusterOf d.toNat) [d, a, b] [] [q.toNat] true
    let dests := [((Reg.v (physV v.st.rrb d.toNat) : Reg), 2)]
    match joinTag x y b with
    | .error t => { base with dests := dests, dyn := [t] }
    | .ok tag =>
      { base with
        dests := dests
        effects := [.land (vLand v d 2 tag ((List.range 32).map fun k =>
          laneVal (if p.getLsbD k then x.lanes.getD k 0 else y.lanes.getD k 0)))] }

def execVmov (e : Bool) (d a : BitVec 6) (q : BitVec 3) (m : BitVec 2) (s : State) : Out :=
  runSyl s (.vmov e d a q m) e fun v =>
    sylPermute v (vBase v (clusterOf d.toNat) [d, a] [] [q.toNat] true) d a q m 2 [] fun x k => x.getD k 0

/-- vxm: the one vector syllable whose operands may lie in different clusters; its unit is that of vd (R145). -/
def execVxm (e : Bool) (d a : BitVec 6) (q : BitVec 3) (m : BitVec 2) (s : State) : Out :=
  runSyl s (.vxm e d a q m) e fun v =>
    sylPermute v (vBase v (clusterOf d.toNat) [d, a] [] [q.toNat] false) d a q m 3 [] fun x k => x.getD k 0

/-- vins (R146): no tag check; the tag of vd stays. -/
def execVins (e : Bool) (d a b : BitVec 6) (q : BitVec 3) (m : BitVec 2) (s : State) : Out :=
  runSyl s (.vins e d a b q m) e fun v =>
    let old := v.rv d
    let lane := (v.rs b).toNat % 32
    { vBase v (clusterOf d.toNat) [d] [a, b] [q.toNat] true with
      dests := [(.v (physV v.st.rrb d.toNat), 2)]
      effects := [.land (vLand v d 2 old.tag (frameLanes v d q m fun k =>
        laneVal (if k = lane then v.rs a else old.lanes.getD k 0)))] }

/-- vext: a lane into a scalar register (R147); its unit is that of va. -/
def execVext (e : Bool) (d a b : BitVec 6) (s : State) : Out :=
  runSyl s (.vext e d a b) e fun v =>
    let p := v.ps d
    { vBase v (clusterOf a.toNat) [a] [d, b] [] true with
      static := v.illegal false ++ v.declS [d] ++ v.declV [a] ++ v.declS [b]
      dests := [(.s p, 2)]
      reads := [v.ps b]
      names := [p]
      effects := [.land (v.landing (.s p) (.word ((v.rv a).lanes.getD ((v.rs b).toNat % 32) 0)) 2)] }

/-- vtag: vd with a new tag; masked lanes become zero when m is 1 (R148). -/
def execVtag (e : Bool) (d : BitVec 6) (g : BitVec 3) (q : BitVec 3) (m : BitVec 2) (s : State) : Out :=
  runSyl s (.vtag e d g q m) e fun v =>
    { vBase v (clusterOf d.toNat) [d] [] [q.toNat] true with
      dests := [(.v (physV v.st.rrb d.toNat), 1)]
      effects := [.land (vLand v d 1 g (frameLanes v d q m fun k => laneVal ((v.rv d).lanes.getD k 0)))] }

/-- vgtag (R148). -/
def execVgtag (e : Bool) (d a : BitVec 6) (s : State) : Out :=
  runSyl s (.vgtag e d a) e fun v =>
    let p := v.ps d
    { vBase v (clusterOf a.toNat) [a] [d] [] true with
      static := v.illegal false ++ v.declS [d] ++ v.declV [a]
      dests := [(.s p, 1)]
      reads := []
      names := [p]
      effects := [.land (v.landing (.s p) (.word ((v.rv a).tag.setWidth 32)) 1)] }

def execViota (e : Bool) (d : BitVec 6) (q : BitVec 3) (m : BitVec 2) (s : State) : Out :=
  runSyl s (.viota e d q m) e fun v =>
    sylFrame v (vBase v (clusterOf d.toNat) [d] [] [q.toNat] true) d q m 2 tagI32 []
      fun k => laneVal (BitVec.ofNat 32 k)

def execVsplat (e : Bool) (d a : BitVec 6) (q : BitVec 3) (m : BitVec 2) (s : State) : Out :=
  runSyl s (.vsplat e d a q m) e fun v =>
    sylFrame v (vBase v (clusterOf d.toNat) [d] [a] [q.toNat] true) d q m 2 tagRAW [] fun _ => laneVal (v.rs a)

/-- vbscl (R149): FMT_TAG on a scale of an active lane with bits above 19. -/
def execVbscl (e : Bool) (d a b : BitVec 6) (q : BitVec 3) (m : BitVec 2) (s : State) : Out :=
  runSyl s (.vbscl e d a b q m) e fun v =>
    let x := v.rv a
    let p := v.rq q.toNat
    let upper := (List.range 32).any fun k => p.getLsbD k && (x.lanes.getD k 0).toNat / 2 ^ 20 != 0
    let y := sylVV v d a b q m tagF32 tagF32 6 fun sc z =>
      let r := fpBlockScale v.rm v.ftz sc z
      ⟨r.1, r.2.1, 0, r.2.2.toNat⟩
    { y with
      dyn := checkTag x a tagSCL ++ checkTag (v.rv b) b tagF32 ++ mergeCheck v d q m tagF32 ++
        (if upper then [trapReq causeFmtTag (a.setWidth 32)] else []) }

end Sys2Proof.Machine
end

