-- ==== Sys2Proof/Machine/Dispatch.lean ====
section
/-! DEFINITION. One arm for each instruction: the call of its meaning. -/

namespace Sys2Proof.Machine

def exec (i : Instr) (s : State) : Host.Outcome State Fault Refusal :=
  match i with
  | .nop e => Sys2Proof.Machine.execNop e s
  | .add e d a b => Sys2Proof.Machine.execAdd e d a b s
  | .sub e d a b => Sys2Proof.Machine.execSub e d a b s
  | .and e d a b => Sys2Proof.Machine.execAnd e d a b s
  | .or e d a b => Sys2Proof.Machine.execOr e d a b s
  | .xor e d a b => Sys2Proof.Machine.execXor e d a b s
  | .andn e d a b => Sys2Proof.Machine.execAndn e d a b s
  | .shl e d a b => Sys2Proof.Machine.execShl e d a b s
  | .shr e d a b => Sys2Proof.Machine.execShr e d a b s
  | .sra e d a b => Sys2Proof.Machine.execSra e d a b s
  | .rot e d a b => Sys2Proof.Machine.execRot e d a b s
  | .mul e d a b => Sys2Proof.Machine.execMul e d a b s
  | .mulh e d a b => Sys2Proof.Machine.execMulh e d a b s
  | .mulhU e d a b => Sys2Proof.Machine.execMulhU e d a b s
  | .div e d a b => Sys2Proof.Machine.execDiv e d a b s
  | .divU e d a b => Sys2Proof.Machine.execDivU e d a b s
  | .rem e d a b => Sys2Proof.Machine.execRem e d a b s
  | .remU e d a b => Sys2Proof.Machine.execRemU e d a b s
  | .min e d a b => Sys2Proof.Machine.execMin e d a b s
  | .minU e d a b => Sys2Proof.Machine.execMinU e d a b s
  | .max e d a b => Sys2Proof.Machine.execMax e d a b s
  | .maxU e d a b => Sys2Proof.Machine.execMaxU e d a b s
  | .cmp e d a b c => Sys2Proof.Machine.execCmp e d a b c s
  | .cmov e d a b => Sys2Proof.Machine.execCmov e d a b s
  | .clz e d a => Sys2Proof.Machine.execClz e d a s
  | .popc e d a => Sys2Proof.Machine.execPopc e d a s
  | .bext e d a b p => Sys2Proof.Machine.execBext e d a b p s
  | .bins e d a b p => Sys2Proof.Machine.execBins e d a b p s
  | .addi e d a imm => Sys2Proof.Machine.execAddi e d a imm s
  | .andi e d a imm => Sys2Proof.Machine.execAndi e d a imm s
  | .ori e d a imm => Sys2Proof.Machine.execOri e d a imm s
  | .xori e d a imm => Sys2Proof.Machine.execXori e d a imm s
  | .shli e d a imm => Sys2Proof.Machine.execShli e d a imm s
  | .shri e d a imm => Sys2Proof.Machine.execShri e d a imm s
  | .srai e d a imm => Sys2Proof.Machine.execSrai e d a imm s
  | .muli e d a imm => Sys2Proof.Machine.execMuli e d a imm s
  | .cmpeqi e d a imm => Sys2Proof.Machine.execCmpeqi e d a imm s
  | .cmplti e d a imm => Sys2Proof.Machine.execCmplti e d a imm s
  | .cmpltui e d a imm => Sys2Proof.Machine.execCmpltui e d a imm s
  | .li e d imm => Sys2Proof.Machine.execLi e d imm s
  | .lih e d imm => Sys2Proof.Machine.execLih e d imm s
  | .mfs e d n => Sys2Proof.Machine.execMfs e d n s
  | .mts e a n => Sys2Proof.Machine.execMts e a n s
  | .rdcyc e d => Sys2Proof.Machine.execRdcyc e d s
  | .rdid e d n => Sys2Proof.Machine.execRdid e d n s
  | .pand e d a b => Sys2Proof.Machine.execPand e d a b s
  | .por e d a b => Sys2Proof.Machine.execPor e d a b s
  | .pxor e d a b => Sys2Proof.Machine.execPxor e d a b s
  | .pandn e d a b => Sys2Proof.Machine.execPandn e d a b s
  | .pfs e d a => Sys2Proof.Machine.execPfs e d a s
  | .pts e d a => Sys2Proof.Machine.execPts e d a s
  | .pcnt e d a => Sys2Proof.Machine.execPcnt e d a s
  | .pfirst e d a => Sys2Proof.Machine.execPfirst e d a s
  | .ldb e d h a imm => Sys2Proof.Machine.execLdb e d h a imm s
  | .ldbu e d h a imm => Sys2Proof.Machine.execLdbu e d h a imm s
  | .ldh e d h a imm => Sys2Proof.Machine.execLdh e d h a imm s
  | .ldhu e d h a imm => Sys2Proof.Machine.execLdhu e d h a imm s
  | .ldw e d h a imm => Sys2Proof.Machine.execLdw e d h a imm s
  | .stb e d h a imm => Sys2Proof.Machine.execStb e d h a imm s
  | .sth e d h a imm => Sys2Proof.Machine.execSth e d h a imm s
  | .stw e d h a imm => Sys2Proof.Machine.execStw e d h a imm s
  | .vld e d h a t imm => Sys2Proof.Machine.execVld e d h a t imm s
  | .vst e d h a t imm => Sys2Proof.Machine.execVst e d h a t imm s
  | .vldb e d h a t imm => Sys2Proof.Machine.execVldb e d h a t imm s
  | .vgth e d h a t imm => Sys2Proof.Machine.execVgth e d h a t imm s
  | .vsct e d h a t imm => Sys2Proof.Machine.execVsct e d h a t imm s
  | .vlds e d h a t imm => Sys2Proof.Machine.execVlds e d h a t imm s
  | .vsts e d h a t imm => Sys2Proof.Machine.execVsts e d h a t imm s
  | .xlat e d a b => Sys2Proof.Machine.execXlat e d a b s
  | .hinv e d => Sys2Proof.Machine.execHinv e d s
  | .hchk e d a => Sys2Proof.Machine.execHchk e d a s
  | .amoadd e d h a b => Sys2Proof.Machine.execAmoadd e d h a b s
  | .amoand e d h a b => Sys2Proof.Machine.execAmoand e d h a b s
  | .amoor e d h a b => Sys2Proof.Machine.execAmoor e d h a b s
  | .amoxor e d h a b => Sys2Proof.Machine.execAmoxor e d h a b s
  | .amomin e d h a b => Sys2Proof.Machine.execAmomin e d h a b s
  | .amomax e d h a b => Sys2Proof.Machine.execAmomax e d h a b s
  | .amoswp e d h a b => Sys2Proof.Machine.execAmoswp e d h a b s
  | .amocas e d h a b => Sys2Proof.Machine.execAmocas e d h a b s
  | .amofadd e d h a b => Sys2Proof.Machine.execAmofadd e d h a b s
  | .fence e k w => Sys2Proof.Machine.execFence e k w s
  | .br e o => Sys2Proof.Machine.execBr e o s
  | .bz e c o => Sys2Proof.Machine.execBz e c o s
  | .bnz e c o => Sys2Proof.Machine.execBnz e c o s
  | .bqa e c o => Sys2Proof.Machine.execBqa e c o s
  | .bqn e c o => Sys2Proof.Machine.execBqn e c o s
  | .call e o => Sys2Proof.Machine.execCall e o s
  | .jr e a => Sys2Proof.Machine.execJr e a s
  | .loop e => Sys2Proof.Machine.execLoop e s
  | .wait e a => Sys2Proof.Machine.execWait e a s
  | .spawn e c o => Sys2Proof.Machine.execSpawn e c o s
  | .bind e d a => Sys2Proof.Machine.execBind e d a s
  | .unbind e a => Sys2Proof.Machine.execUnbind e a s
  | .cancel e a l => Sys2Proof.Machine.execCancel e a l s
  | .prio e a => Sys2Proof.Machine.execPrio e a s
  | .trap e n => Sys2Proof.Machine.execTrap e n s
  | .rtt e => Sys2Proof.Machine.execRtt e s
  | .halt e => Sys2Proof.Machine.execHalt e s
  | .yield e => Sys2Proof.Machine.execYield e s
  | .ebrk e n => Sys2Proof.Machine.execEbrk e n s
  | .mfc e d n => Sys2Proof.Machine.execMfc e d n s
  | .mtc e a n => Sys2Proof.Machine.execMtc e a n s
  | .qpush e a b h t => Sys2Proof.Machine.execQpush e a b h t s
  | .qpop e a b h t => Sys2Proof.Machine.execQpop e a b h t s
  | .vaddI e d a b q m => Sys2Proof.Machine.execVaddI e d a b q m s
  | .vsubI e d a b q m => Sys2Proof.Machine.execVsubI e d a b q m s
  | .vmulI e d a b q m => Sys2Proof.Machine.execVmulI e d a b q m s
  | .vminI e d a b q m => Sys2Proof.Machine.execVminI e d a b q m s
  | .vmaxI e d a b q m => Sys2Proof.Machine.execVmaxI e d a b q m s
  | .vand e d a b q m => Sys2Proof.Machine.execVand e d a b q m s
  | .vor e d a b q m => Sys2Proof.Machine.execVor e d a b q m s
  | .vxor e d a b q m => Sys2Proof.Machine.execVxor e d a b q m s
  | .vshl e d a b q m => Sys2Proof.Machine.execVshl e d a b q m s
  | .vshr e d a b q m => Sys2Proof.Machine.execVshr e d a b q m s
  | .vsra e d a b q m => Sys2Proof.Machine.execVsra e d a b q m s
  | .vceqI e d a b q m => Sys2Proof.Machine.execVceqI e d a b q m s
  | .vcltI e d a b q m => Sys2Proof.Machine.execVcltI e d a b q m s
  | .vcltuI e d a b q m => Sys2Proof.Machine.execVcltuI e d a b q m s
  | .vaddF e d a b q m => Sys2Proof.Machine.execVaddF e d a b q m s
  | .vsubF e d a b q m => Sys2Proof.Machine.execVsubF e d a b q m s
  | .vmulF e d a b q m => Sys2Proof.Machine.execVmulF e d a b q m s
  | .vfmaF e d a b q m => Sys2Proof.Machine.execVfmaF e d a b q m s
  | .vfmsF e d a b q m => Sys2Proof.Machine.execVfmsF e d a b q m s
  | .vdivF e d a b q m => Sys2Proof.Machine.execVdivF e d a b q m s
  | .vsqrtF e d a q m => Sys2Proof.Machine.execVsqrtF e d a q m s
  | .vrcpF e d a q m => Sys2Proof.Machine.execVrcpF e d a q m s
  | .vrsqF e d a q m => Sys2Proof.Machine.execVrsqF e d a q m s
  | .vminF e d a b q m => Sys2Proof.Machine.execVminF e d a b q m s
  | .vmaxF e d a b q m => Sys2Proof.Machine.execVmaxF e d a b q m s
  | .vabsF e d a q m => Sys2Proof.Machine.execVabsF e d a q m s
  | .vnegF e d a q m => Sys2Proof.Machine.execVnegF e d a q m s
  | .vceqF e d a b q m => Sys2Proof.Machine.execVceqF e d a b q m s
  | .vcltF e d a b q m => Sys2Proof.Machine.execVcltF e d a b q m s
  | .vcleF e d a b q m => Sys2Proof.Machine.execVcleF e d a b q m s
  | .vexp2F e d a q m => Sys2Proof.Machine.execVexp2F e d a q m s
  | .vlog2F e d a q m => Sys2Proof.Machine.execVlog2F e d a q m s
  | .vcvtFI e d a q m => Sys2Proof.Machine.execVcvtFI e d a q m s
  | .vcvtIF e d a q m => Sys2Proof.Machine.execVcvtIF e d a q m s
  | .vpkE4m3 e d a p q m => Sys2Proof.Machine.execVpkE4m3 e d a p q m s
  | .vupE4m3 e d a p q m => Sys2Proof.Machine.execVupE4m3 e d a p q m s
  | .vpkI8 e d a p q m => Sys2Proof.Machine.execVpkI8 e d a p q m s
  | .vupI8 e d a p q m => Sys2Proof.Machine.execVupI8 e d a p q m s
  | .vpkBf16 e d a p q m => Sys2Proof.Machine.execVpkBf16 e d a p q m s
  | .vupBf16 e d a p q m => Sys2Proof.Machine.execVupBf16 e d a p q m s
  | .vredaddF e d a q m => Sys2Proof.Machine.execVredaddF e d a q m s
  | .vredmaxF e d a q m => Sys2Proof.Machine.execVredmaxF e d a q m s
  | .vredaddI e d a q m => Sys2Proof.Machine.execVredaddI e d a q m s
  | .vredmaxI e d a q m => Sys2Proof.Machine.execVredmaxI e d a q m s
  | .vperm e d a b q m => Sys2Proof.Machine.execVperm e d a b q m s
  | .vbcast e d a l q m => Sys2Proof.Machine.execVbcast e d a l q m s
  | .vslide e d a n q m => Sys2Proof.Machine.execVslide e d a n q m s
  | .vsel e d a b q => Sys2Proof.Machine.execVsel e d a b q s
  | .vmov e d a q m => Sys2Proof.Machine.execVmov e d a q m s
  | .vxm e d a q m => Sys2Proof.Machine.execVxm e d a q m s
  | .vins e d a b q m => Sys2Proof.Machine.execVins e d a b q m s
  | .vext e d a b => Sys2Proof.Machine.execVext e d a b s
  | .vtag e d g q m => Sys2Proof.Machine.execVtag e d g q m s
  | .vgtag e d a => Sys2Proof.Machine.execVgtag e d a s
  | .viota e d q m => Sys2Proof.Machine.execViota e d q m s
  | .vsplat e d a q m => Sys2Proof.Machine.execVsplat e d a q m s
  | .vbscl e d a b q m => Sys2Proof.Machine.execVbscl e d a b q m s
  | .mset e a f n => Sys2Proof.Machine.execMset e a f n s
  | .mget e d f n => Sys2Proof.Machine.execMget e d f n s
  | .wld e a b w t => Sys2Proof.Machine.execWld e a b w t s
  | .mswap e t => Sys2Proof.Machine.execMswap e t s
  | .mmul e a b w t => Sys2Proof.Machine.execMmul e a b w t s
  | .macc e a w t => Sys2Proof.Machine.execMacc e a w t s
  | .mdrain e a w t => Sys2Proof.Machine.execMdrain e a w t s
  | .mchain e a b w t => Sys2Proof.Machine.execMchain e a b w t s
  | .mchk e a w t => Sys2Proof.Machine.execMchk e a w t s
  | .mstat e a b w t => Sys2Proof.Machine.execMstat e a b w t s
  | .mfence e => Sys2Proof.Machine.execMfence e s
  | .cset e a f n => Sys2Proof.Machine.execCset e a f n s
  | .cget e d f n => Sys2Proof.Machine.execCget e d f n s
  | .cpy e a b w t => Sys2Proof.Machine.execCpy e a b w t s
  | .cpyb e a b w t => Sys2Proof.Machine.execCpyb e a b w t s
  | .rst e a b r h t => Sys2Proof.Machine.execRst e a b r h t s
  | .rstc e a b r h t => Sys2Proof.Machine.execRstc e a b r h t s
  | .rld e a r h t => Sys2Proof.Machine.execRld e a r h t s
  | .rldBlock e a b r h t => Sys2Proof.Machine.execRldBlock e a b r h t s
  | .rfadd e a b r h t => Sys2Proof.Machine.execRfadd e a b r h t s
  | .radd e a b r h t => Sys2Proof.Machine.execRadd e a b r h t s
  | .rmax e a b r h t => Sys2Proof.Machine.execRmax e a b r h t s
  | .rswp e a b r h t => Sys2Proof.Machine.execRswp e a b r h t s
  | .tchk e a t => Sys2Proof.Machine.execTchk e a t s
  | .twt e a => Sys2Proof.Machine.execTwt e a s
  | .tjoin e a b t => Sys2Proof.Machine.execTjoin e a b t s
  | .spush e a b w t => Sys2Proof.Machine.execSpush e a b w t s
  | .spop e w t => Sys2Proof.Machine.execSpop e w t s
  | .srel e a w => Sys2Proof.Machine.execSrel e a w s
  | .sget e a o c t => Sys2Proof.Machine.execSget e a o c t s
  | .sset e a o c t => Sys2Proof.Machine.execSset e a o c t s
  | .mcast e a b w t => Sys2Proof.Machine.execMcast e a b w t s
  | .rctl e a b w => Sys2Proof.Machine.execRctl e a b w s
  | .tbinit e a b w t => Sys2Proof.Machine.execTbinit e a b w t s
  | .tbarr e a w t => Sys2Proof.Machine.execTbarr e a w t s
  | .tbwait e a b w t => Sys2Proof.Machine.execTbwait e a b w t s
  | .reservedEncoding w => Sys2Proof.Machine.execReservedEncoding w s
  | .resultLanding => Sys2Proof.Machine.execResultLanding s
  | .faultEntryAppend => Sys2Proof.Machine.execFaultEntryAppend s
  | .contextRestore => Sys2Proof.Machine.execContextRestore s
  | .recordStart => Sys2Proof.Machine.execRecordStart s
  | .recordEnd => Sys2Proof.Machine.execRecordEnd s
  | .prioAging => Sys2Proof.Machine.execPrioAging s
  | .rbind => Sys2Proof.Machine.execRbind s
  | .wldExpansionStart => Sys2Proof.Machine.execWldExpansionStart s
  | .wldComplete => Sys2Proof.Machine.execWldComplete s
  | .mswapFlip => Sys2Proof.Machine.execMswapFlip s
  | .arrayRowAccumulate => Sys2Proof.Machine.execArrayRowAccumulate s
  | .drainRow => Sys2Proof.Machine.execDrainRow s
  | .chainParametersRead => Sys2Proof.Machine.execChainParametersRead s
  | .copySectorPerform => Sys2Proof.Machine.execCopySectorPerform s
  | .remoteStorePerform => Sys2Proof.Machine.execRemoteStorePerform s
  | .remoteReadPerform => Sys2Proof.Machine.execRemoteReadPerform s
  | .remoteAtomicPerform => Sys2Proof.Machine.execRemoteAtomicPerform s
  | .responseArrival => Sys2Proof.Machine.execResponseArrival s
  | .errorResponse => Sys2Proof.Machine.execErrorResponse s
  | .landedAck => Sys2Proof.Machine.execLandedAck s
  | .carriedRequestArrival => Sys2Proof.Machine.execCarriedRequestArrival s
  | .held => Sys2Proof.Machine.execHeld s
  | .nack => Sys2Proof.Machine.execNack s
  | .nackBackoffExpiry => Sys2Proof.Machine.execNackBackoffExpiry s
  | .watch => Sys2Proof.Machine.execWatch s
  | .release => Sys2Proof.Machine.execRelease s
  | .busy => Sys2Proof.Machine.execBusy s
  | .watchRetryExpiry => Sys2Proof.Machine.execWatchRetryExpiry s
  | .watchTimeout => Sys2Proof.Machine.execWatchTimeout s
  | .holdEntryPerform => Sys2Proof.Machine.execHoldEntryPerform s
  | .holdEntryExpiry => Sys2Proof.Machine.execHoldEntryExpiry s
  | .query => Sys2Proof.Machine.execQuery s
  | .queryAnswer => Sys2Proof.Machine.execQueryAnswer s
  | .queryTimeout => Sys2Proof.Machine.execQueryTimeout s
  | .packetArrival => Sys2Proof.Machine.execPacketArrival s
  | .creditArrival => Sys2Proof.Machine.execCreditArrival s
  | .closeNotice => Sys2Proof.Machine.execCloseNotice s
  | .deadNotice => Sys2Proof.Machine.execDeadNotice s
  | .weightArrival => Sys2Proof.Machine.execWeightArrival s
  | .controllerPeriodEnd => Sys2Proof.Machine.execControllerPeriodEnd s
  | .pushComplete => Sys2Proof.Machine.execPushComplete s
  | .spopDelivery => Sys2Proof.Machine.execSpopDelivery s
  | .srelRelease => Sys2Proof.Machine.execSrelRelease s
  | .ingressDoorbell => Sys2Proof.Machine.execIngressDoorbell s
  | .ingressStageForward => Sys2Proof.Machine.execIngressStageForward s
  | .ingressEnable => Sys2Proof.Machine.execIngressEnable s
  | .ingressDisable => Sys2Proof.Machine.execIngressDisable s
  | .egressEnable => Sys2Proof.Machine.execEgressEnable s
  | .egressDisable => Sys2Proof.Machine.execEgressDisable s
  | .egressRelease => Sys2Proof.Machine.execEgressRelease s
  | .egressPacketWrite => Sys2Proof.Machine.execEgressPacketWrite s
  | .openNotice => Sys2Proof.Machine.execOpenNotice s
  | .queueNotify => Sys2Proof.Machine.execQueueNotify s
  | .queueHeadWrite => Sys2Proof.Machine.execQueueHeadWrite s
  | .queueCommandPerform => Sys2Proof.Machine.execQueueCommandPerform s
  | .queueAnswer => Sys2Proof.Machine.execQueueAnswer s
  | .linkPacketReceive => Sys2Proof.Machine.execLinkPacketReceive s
  | .linkAck => Sys2Proof.Machine.execLinkAck s
  | .linkNak => Sys2Proof.Machine.execLinkNak s
  | .ackTimer => Sys2Proof.Machine.execAckTimer s
  | .trainingDone => Sys2Proof.Machine.execTrainingDone s
  | .trainingFail => Sys2Proof.Machine.execTrainingFail s
  | .laneFailure => Sys2Proof.Machine.execLaneFailure s
  | .retrainDone => Sys2Proof.Machine.execRetrainDone s
  | .retrainTimeout => Sys2Proof.Machine.execRetrainTimeout s
  | .linkSilenceTimeout => Sys2Proof.Machine.execLinkSilenceTimeout s
  | .isolateFlit => Sys2Proof.Machine.execIsolateFlit s
  | .linkIsolate => Sys2Proof.Machine.execLinkIsolate s
  | .linkRetrain => Sys2Proof.Machine.execLinkRetrain s
  | .timeFlit => Sys2Proof.Machine.execTimeFlit s
  | .timeFlitTimer => Sys2Proof.Machine.execTimeFlitTimer s
  | .platMaxClear => Sys2Proof.Machine.execPlatMaxClear s
  | .routingWrite => Sys2Proof.Machine.execRoutingWrite s
  | .errorInject => Sys2Proof.Machine.execErrorInject s
  | .errorLogClear => Sys2Proof.Machine.execErrorLogClear s
  | .tbwaitTimeout => Sys2Proof.Machine.execTbwaitTimeout s
  | .counterClear => Sys2Proof.Machine.execCounterClear s
  | .bindNotice => Sys2Proof.Machine.execBindNotice s
  | .endNotice => Sys2Proof.Machine.execEndNotice s
  | .unitReport => Sys2Proof.Machine.execUnitReport s
  | .fireNotice => Sys2Proof.Machine.execFireNotice s
  | .cancelNotice => Sys2Proof.Machine.execCancelNotice s
  | .unitWaitAnswer => Sys2Proof.Machine.execUnitWaitAnswer s
  | .cycRead => Sys2Proof.Machine.execCycRead s
  | .placementImage => Sys2Proof.Machine.execPlacementImage s
  | .configAck => Sys2Proof.Machine.execConfigAck s
  | .configFailure => Sys2Proof.Machine.execConfigFailure s
  | .startNotice => Sys2Proof.Machine.execStartNotice s
  | .moduleReset => Sys2Proof.Machine.execModuleReset s
  | .selfTestDone => Sys2Proof.Machine.execSelfTestDone s
  | .bootGo => Sys2Proof.Machine.execBootGo s
  | .bootImageArrival => Sys2Proof.Machine.execBootImageArrival s
  | .bootVerifyDone => Sys2Proof.Machine.execBootVerifyDone s
  | .functionReady => Sys2Proof.Machine.execFunctionReady s
  | .checkpointSave => Sys2Proof.Machine.execCheckpointSave s
  | .checkpointRestore => Sys2Proof.Machine.execCheckpointRestore s
  | .checkpointDone => Sys2Proof.Machine.execCheckpointDone s
  | .attestation => Sys2Proof.Machine.execAttestation s
  | .attestationDone => Sys2Proof.Machine.execAttestationDone s
  | .repairRow => Sys2Proof.Machine.execRepairRow s
  | .repairColumn => Sys2Proof.Machine.execRepairColumn s
  | .repairDone => Sys2Proof.Machine.execRepairDone s
  | .powerCapCheck => Sys2Proof.Machine.execPowerCapCheck s
  | .thermalThrottle => Sys2Proof.Machine.execThermalThrottle s
  | .thermalShutdown => Sys2Proof.Machine.execThermalShutdown s
  | .powerLoss => Sys2Proof.Machine.execPowerLoss s
  | .stageMigration => Sys2Proof.Machine.execStageMigration s
  | .raRequestService => Sys2Proof.Machine.execRaRequestService s
  | .migrationNoticeService => Sys2Proof.Machine.execMigrationNoticeService s
  | .registerWrite => Sys2Proof.Machine.execRegisterWrite s
  | .pacingBucketRefill => Sys2Proof.Machine.execPacingBucketRefill s
  | .unitClose => Sys2Proof.Machine.execUnitClose s
  | .contextSaveComplete => Sys2Proof.Machine.execContextSaveComplete s

end Sys2Proof.Machine
end

