-- ==== Sys2Proof/Machine/Issue.lean ====
section
/-! DEFINITION. Fetching a syllable, and the issue decision of a cell in one cycle: which of its strands are ready, and
which of them issues (R22, R61, R65, R83, R84, R165, R297, R345, R347). -/

namespace Sys2Proof.Machine

/-! ### Fetching -/

/-- The memory address of the open bundle's next syllable: the I-store of a cell (R61), the SRAM of a Spire core (log 11,
PRESUMED). -/
def fetchAddr (spire : Bool) (b : Bundle) : Nat :=
  (if spire then 0 else 0x600000) + 4 * (b.pc.toNat + b.syls.length)

/-- The open bundle's next syllable. -/
def fetchSyl (s : State) (b : Bundle) : Instr :=
  let c := s.cell b.m b.u
  decode (memWord c.mem (fetchAddr c.spire b))

/-- The errors that the fetch finds enter the log (R382). -/
def fetched (s : State) (b : Bundle) : State :=
  s.found b.m b.u (fetchAddr (s.cell b.m b.u).spire b) 4 b.k (s.strand b.m b.u b.k).recid.toNat 3

/-! ### Which strands are ready (R347) -/

/-- The strand has a bundle to issue (log 53, DEDUCED). -/
def Strand.fetches (st : Strand) (cycle : Nat) : Bool :=
  st.mode == .running && !st.halted && decide (st.idleUntil ≤ cycle)

/-- The open bundle read to its end, as it would be if it issued now (log 55, DESIGN CHOICE). -/
def tryBundle : Nat → State → State
  | 0, s => s
  | n + 1, s =>
    match s.cur with
    | none => s
    | some b =>
      match exec (fetchSyl s b) s with
      | .next t => tryBundle n t
      | _ => s

/-- The bundle that strand `k` would issue. -/
def State.nextBundle (s : State) (m u k : Nat) : Bundle := ⟨m, u, k, (s.strand m u k).pc, []⟩

/-- What the next bundle of strand `k` would do in this cycle: its results that are due at its beat land first (R80)
(log 55, DESIGN CHOICE). -/
def State.tried (s : State) (m u k : Nat) : State :=
  tryBundle 8 { s.onCell m u (fun c => c.landDue k) with cur := some (s.nextBundle m u k), last := .none }

/-- A bundle that waits keeps what its wait begins and marks; nothing lands, since no beat passes (R9, R275, R434). -/
def State.keepWait (s t : State) (m u k : Nat) : State :=
  let c := s.cell m u
  let w := t.strand m u k
  (t.onCell m u fun d =>
    { d with
      strands := c.strands, xset := c.xset, recs := c.recs, mem := c.mem, cnts := c.cnts, cntsNew := c.cntsNew
      tokexp := c.tokexp }).onStrand
    m u k fun st => { st with fbcWait := w.fbcWait, waiting := w.waiting }

/-- The state of strand `k` is looked at: whether its bundle can issue, with what a wait, a parking or a stop at a `loop`
brings about in this cycle; what is due at the beat has landed when the strand parks (R342, R345, R349) (log 53, DEDUCED). -/
def State.look (s : State) (m u k : Nat) : State × Bool :=
  if (s.strand m u k).fetches s.cycle then
    let t := s.tried m u k
    match t.last with
    | .stalled => ({ s.keepWait t m u k with last := s.last, free := t.free }, false)
    | .parked => (parkStrand (s.onCell m u fun c => c.landDue k) m u k (s.strand m u k).pc, false)
    | .stopped => (stopCancelled s m u k, false)
    | _ => (s, decide (256 ≤ (s.strand m u k).bucket))
  else (s, false)

/-- The same, noted at the strand. -/
def State.lookAt (s : State) (m u k : Nat) : State :=
  let (t, ready) := s.look m u k
  t.onStrand m u k fun st => { st with ready := ready }

/-! ### Which of them issues (R165, R347) -/

/-- PRIO.EFF of a strand; a sibling has its record's. -/
def Cell.prioOf (c : Cell) (k : Nat) : Nat := (c.record (c.strand k).entry).prioEff

/-- The ready strands of highest PRIO.EFF (log 22, DEDUCED). -/
def Cell.candidates (c : Cell) : List Nat :=
  let ready := [0, 1, 2, 3].filter fun k => (c.strand k).ready
  let best := ready.foldl (fun p k => max p (c.prioOf k)) 0
  ready.filter fun k => c.prioOf k == best

/-- A strand that yielded in the cycle before is not chosen beside others (R165) (log 22, DEDUCED). -/
def Cell.stoodBack (c : Cell) (cycle k : Nat) : Bool := decide (0 < cycle) && (c.strand k).yielded == some (cycle - 1)

/-- The deficit round-robin (R347), for at most `n` turns: the strand that issues, `ptr` and the deficits; `bar` names the
strands that are not chosen (log 22, DEDUCED). -/
def robin (cand : List Nat) (bar : Nat → Bool) (w : Nat → Nat) : Nat → Nat → List Int → Option Nat × Nat × List Int
  | 0, ptr, defs => (none, ptr, defs)
  | n + 1, ptr, defs =>
    if cand.contains ptr ∧ 0 < defs.getD ptr 0 ∧ bar ptr = false then (some ptr, ptr, defs.modify ptr fun d => d - 256)
    else
      let defs := if cand.contains ptr then defs else defs.set ptr 0
      let next := (ptr + 1) % 4
      robin cand bar w n next (if cand.contains next then defs.modify next fun d => d + w next else defs)

/-- The strand that a unit's cell issues from in this cycle, and the cell with its deficits after the choice
(log 22, DEDUCED). -/
def Cell.choose (c : Cell) (cycle : Nat) (w : Nat → Nat) : Option Nat × Cell :=
  match c.candidates with
  | [] => (none, c)
  | [k] => (some k, c)
  | cand =>
    let (k, ptr, defs) := robin cand (c.stoodBack cycle) w 2048 c.ptr ((List.range 4).map fun k => (c.strand k).deficit)
    (k, (List.range 4).foldl (fun c k => c.onStrand k fun st => { st with deficit := defs.getD k 0 }) { c with ptr := ptr })

/-- A bundle of strand `k` begins to issue: 256 leave its bucket (R297) (log 19, DEDUCED). -/
def Strand.issueNow (st : Strand) (cycle : Nat) : Strand := { st with bucket := st.bucket - 256, lastIssue := cycle }

/-- The issue decision of a unit: the machine after it, and the bundle that is to be opened (log 19, DEDUCED). -/
def State.decideIssue (s : State) (m u : Nat) : State × Option Bundle :=
  let s := [0, 1, 2, 3].foldl (fun s k => s.lookAt m u k) s
  let (k, c) := (s.cell m u).choose s.cycle (s.weightEff m u)
  let s := s.setCell m u c
  match k with
  | some k => (s.onStrand m u k fun st => st.issueNow s.cycle, some (s.nextBundle m u k))
  | none => (s, none)

end Sys2Proof.Machine
end

