-- ==== Sys2Proof/Machine/Sched.lean ====
section
/-! DEFINITION. The agenda of a cycle: its stages, and which steps each of them looks at (R80, R84, R204, R266, R330, R331,
R390). A step whose condition does not hold when it is looked at is passed over. -/

namespace Sys2Proof.Machine

/-- A step with its subject. -/
abbrev Chore := Instr × Focus

/-- Source order (R266): chip, die, cell, strand. -/
def Msg.source (x : Msg) : Nat := (x.src.chip * 4096 + x.src.unit) * 4 + x.strand

/-- A message of the same ordered queue: one source cell, one destination and one virtual channel (R20, R259). -/
def Msg.sameQueue (x y : Msg) : Bool := orderedVc x.vc && x.src == y.src && x.dst == y.dst && x.vc == y.vc

/-- Messages in a given order, in which those of one ordered queue take one another's places so that they come in the order in
which they were sent, in which `sent` lists them (R20, R259). -/
def inQueueOrder : List Msg → List Msg → List Msg
  | _, [] => []
  | sent, x :: r =>
    match sent.find? x.sameQueue with
    | some y => y :: inQueueOrder (sent.filter fun z => z.id != y.id) r
    | none => x :: inQueueOrder sent r

/-- The messages that have reached their units, in source order, and those of one ordered queue in the order in which they
were sent (R20, R259, R266) (log 4, DEDUCED). -/
def State.arrivals (s : State) : List Msg :=
  let arrived := s.net.filter fun x => x.arrived s.cycle
  inQueueOrder arrived (sortBy Msg.source arrived)

def onMsg (i : Instr) (x : Msg) : Chore := (i, ⟨x.mod, x.dst.unit, x.id, 0, []⟩)

/-- The units that a chain lists. -/
def State.units (s : State) : List (Nat × Nat) := s.mods.flatMap fun p => p.2.cells.map fun q => (p.1, q.1)

/-- Every cell of the chain, changed with its unit. -/
def State.eachUnit (s : State) (f : State → Nat → Nat → State) : State := s.units.foldl (fun s p => f s p.1 p.2) s

def State.eachCell (s : State) (f : Cell → Cell) : State :=
  { s with mods := s.mods.map fun (p : Nat × Module) =>
      (p.1, { p.2 with cells := p.2.cells.map fun (q : Nat × Cell) => (q.1, f q.2) }) }

def State.eachIo (s : State) (f : IoDie → IoDie) : State :=
  { s with mods := s.mods.map fun (p : Nat × Module) => (p.1, { p.2 with io := f p.2.io }) }

/-- Steps of each cell, and of each module (log 4, DEDUCED). -/
def State.cellChores (s : State) (f : Nat → Nat → Cell → List Chore) : List Chore :=
  s.mods.flatMap fun p => p.2.cells.flatMap fun q => f p.1 q.1 q.2

def State.ioChores (s : State) (f : Nat → IoDie → List Chore) : List Chore := s.mods.flatMap fun p => f p.1 p.2.io

def chore (i : Instr) (m u j : Nat) : Chore := (i, ⟨m, u, j, 0, []⟩)

/-! ### Which step a message or a flit is -/

/-- The step of a message that is neither a packet nor a request, nor what the copy engine takes. -/
def noticeStep (x : Msg) : Option Instr :=
  match x.body with
  | .error .. => some .errorResponse
  | .ack .. => some .landedAck
  | .held .. => some .held
  | .nack .. => some .nack
  | .watch .. => some .watch
  | .watchError .. => some .errorResponse
  | .release _ => some .release
  | .busy .. => some .busy
  | .query .. => some .query
  | .queryAnswer .. => some .queryAnswer
  | .credit .. => some .creditArrival
  | .close .. => some .closeNotice
  | .dead .. => some .deadNotice
  | .weight .. => some .weightArrival
  | .openNote .. => some .openNotice
  | .bindNote .. => some .bindNotice
  | .endNote .. => some .endNotice
  | .unitReport .. => some .unitReport
  | .fire .. => some .fireNotice
  | .cancelNote .. => some .cancelNotice
  | .unitQuery .. => some .unitWaitAnswer
  | .unitAnswer .. => some .unitWaitAnswer
  | .configAck _ => some .configAck
  | .configFail .. => some .configFailure
  | .startNote _ => some .startNotice
  | _ => none

/-- Credits count from the start of the cycle in which they arrive (R279). -/
def earlyStep (x : Msg) : Option Instr := if noticeStep x = some .creditArrival then some .creditArrival else none

/-- The other notices and answers come with the arrivals of the cycle. -/
def lateStep (x : Msg) : Option Instr := if noticeStep x = some .creditArrival then none else noticeStep x

/-- The step of a request. -/
def requestStep (s : State) (x : Msg) (r : Req) : Instr :=
  if s.carried x r then .carriedRequestArrival
  else
    match r.kind with
    | .write => if r.copy || s.isLocal x r then .copySectorPerform else .remoteStorePerform
    | .read _ => .remoteReadPerform
    | .atomic _ => .remoteAtomicPerform

/-- The step of a flit, by its KIND and CTYPE; one of a reserved CTYPE is ignored, as is an IDLE flit; TRAIN flits are taken
as their stage begins (R309). -/
def flitStep (s : State) (f : Flit) : Option Instr :=
  match ctypeOf ((s.flitWords f.body).headD 0) with
  | none => some .linkPacketReceive
  | some 1 => some .linkAck
  | some 2 => some .linkNak
  | some 4 => some .timeFlit
  | some 5 => some .isolateFlit
  | some _ => none

/-- The flits that have arrived and are ignored are gone. -/
def State.ignoreFlits (s : State) : State :=
  { s with flits := s.flits.filter fun f => decide (s.cycle < f.due) || (flitStep s f).isSome }

/-- Writes of control registers by a request, in the order of their words. -/
def regChores (x : Msg) (r : Req) : List Chore :=
  if 0x700000 ≤ r.off ∧ r.kind = .write then
    r.words.map fun p => chore (regEvent (p.1 - 0x700000) p.2) x.mod x.dst.unit 0
  else []

/-- Writes of control registers that have been performed. -/
def State.writeChores (s : State) : List Chore :=
  s.cellChores fun m u c => c.regWrites.map fun p => chore (regEvent (p.1 - 0x700000) p.2) m u 0

/-! ### Before the issue decisions -/

/-- What the cycle finds of the counters and of TOKEXP (R372, R407). -/
def Cell.beginCycle (c : Cell) : Cell :=
  { c with cntsWas := c.cnts, cntsNew := ⟨0, 0, 0, 0, 0, 0, 0, 0⟩, tokexpNow := c.tokexp }

/-- A forward of a stage has read it. -/
def Ingress.settle (x : Ingress) (cycle : Nat) : Ingress := { x with busy := x.busy.filter fun b => cycle ≤ b.2 }

/-- The deliveries that are due reach their registers (R84). -/
def Cell.deliverDue (c : Cell) (cycle : Nat) : Cell :=
  let due := c.deliveries.filter fun d => decide (d.due ≤ cycle)
  due.foldl
    (fun c d =>
      { c.onStrand d.k (fun st => st.deliver d.op d.reg d.val d.notes) with
        recs := c.recs.map fun (p : Nat × RecEntry) =>
          (p.1, { p.2 with saved := p.2.saved.map fun st => st.deliver d.op d.reg d.val d.notes }) })
    { c with deliveries := c.deliveries.filter fun d => decide (cycle < d.due) }

def Cell.sampleAll (c : Cell) (cycle : Nat) : Cell := { c with ins := c.ins.map fun (p : Nat × InChan) => (p.1, p.2.sample cycle) }

def Cell.applyWeights (c : Cell) (cycle : Nat) : Cell :=
  { c with
    ins := c.ins.map fun (p : Nat × InChan) => (p.1, p.2.applyWeight cycle)
    outs := c.outs.map fun (p : Nat × OutChan) => (p.1, p.2.applyWeight cycle) }

/-- The requests of a cell whose back-off has ended, and its waits and strands whose time is up. -/
def expiryChores (cycle m u : Nat) (c : Cell) : List Chore :=
  (c.ops.flatMap fun o => (o.out.filter fun q => q.retries cycle).map fun q =>
      ((.nackBackoffExpiry, ⟨m, u, o.op, q.req.sector, []⟩) : Chore)) ++
    (List.range c.waits.length).reverse.flatMap (fun j =>
      [chore .watchRetryExpiry m u j, chore .watchTimeout m u j, chore .queryTimeout m u j]) ++
    [0, 1, 2, 3].map fun k => chore .tbwaitTimeout m u k

/-- The records of a cell that may end. -/
def endChores (m u : Nat) (c : Cell) : List Chore := c.recs.map fun p => chore .recordEnd m u p.1

/-! ### After them -/

/-- The steps of an array in a cycle: the drain unit reads before the adders add, and the expander starts (R215, R220). -/
def arrayChores (m u : Nat) (c : Cell) : List Chore :=
  if c.arr.drains.isEmpty ∧ c.arr.flight.isEmpty ∧ c.arr.wlds.isEmpty then []
  else
    [chore .drainRow m u 0, chore .drainRow m u 0] ++ c.arr.flight.map (fun _ => chore .arrayRowAccumulate m u 0) ++
      [chore .wldExpansionStart m u 0]

/-- Every bind of a cell whose descriptor has been read. -/
def State.endBinds (s : State) (m u : Nat) : State :=
  ((s.cell m u).binds.filter fun j => j.ends s.cycle && !(s.cell m u).underRepair j.off 256).foldl (fun s j => s.endBind m u j) s

/-- The answers and the local copy sectors that a cell takes as engine writes (R204). -/
def engineChores (s : State) : List Chore :=
  s.arrivals.filterMap fun x =>
    match x.body with
    | .response .. => some (onMsg .responseArrival x)
    | .queueAns .. => some (onMsg .queueAnswer x)
    | .request r => if s.isLocal x r then some (onMsg .copySectorPerform x) else none
    | _ => none

/-- Packets, then remote requests in source order, each with its writes of control registers (R204, R266). -/
def remoteChores (s : State) : List Chore :=
  (s.arrivals.filterMap fun x =>
    match x.body with
    | .packet .. => some (onMsg (if x.dst.unit = ioUnit then .egressPacketWrite else .packetArrival) x)
    | _ => none) ++
  s.arrivals.flatMap fun x =>
    match x.body with
    | .request r => if s.isLocal x r then [] else onMsg (requestStep s x r) x :: regChores x r
    | _ => []

/-- What the outside does in this cycle, and the writes of Spire cores to the management window (log 2, DESIGN CHOICE)
(log 56, DESIGN CHOICE). -/
def State.outside (s : State) : List Chore :=
  (s.inputs.filter fun i => decide (i.cycle ≤ s.cycle)).map (fun i => (i.instr, i.focus)) ++
    s.mods.flatMap fun p => p.2.io.writes.map fun w => (mgmtEvent w.1 w.2, (⟨p.1, 1024, w.1, w.2.toNat, []⟩ : Focus))

/-- The queue commands that arrive, pops or pushes, in source order. -/
def State.queueCmds (s : State) (push : Bool) : List Chore :=
  s.arrivals.filterMap fun x =>
    match x.body with
    | .queueCmd p .. => if p == push then some (onMsg .queueCommandPerform x) else none
    | _ => none

/-- Fault entries that are held, in source order (R331) (log 35, DEDUCED). -/
def State.faultChores (s : State) : List Chore :=
  s.mods.flatMap fun p =>
    (p.2.cells.flatMap fun q => q.2.faults.map fun _ => chore .faultEntryAppend p.1 q.1 0) ++
      p.2.io.held.map fun _ => chore .faultEntryAppend p.1 ioUnit 0

/-- The order of R330 and R331; other writes and inputs follow. -/
def queueChores (s : State) : List Chore :=
  let out := s.outside
  out.filter (fun c => c.1 == .queueHeadWrite) ++ s.queueCmds false ++ s.faultChores ++
    out.filter (fun c => c.1 == .queueNotify) ++ s.queueCmds true ++
    out.filter fun c => c.1 != .queueHeadWrite && c.1 != .queueNotify

/-- What the outside has done is done (log 52, DEDUCED). -/
def State.dropOutside (s : State) : State :=
  { s with inputs := s.inputs.filter fun i => decide (s.cycle < i.cycle) }.eachIo fun io => { io with writes := [] }

/-- Images that have come, the lowest link first (R418). -/
def imageChores (s : State) : List Chore :=
  (sortBy (fun x : Msg => x.strand) (s.net.filter fun x => x.arrived s.cycle)).filterMap fun x =>
    match x.body with
    | .image true _ => some (onMsg .bootImageArrival x)
    | .image false _ => some (onMsg .placementImage x)
    | _ => none

/-- What an I/O die does by itself. -/
def ioSteps (m : Nat) (io : IoDie) : List Chore :=
  io.unitWaits.map (fun _ => chore .unitWaitAnswer m ioUnit 0) ++
    io.ingress.map (fun p => chore .ingressStageForward m ioUnit p.1) ++
    [chore .selfTestDone m ioUnit 0, chore .bootVerifyDone m ioUnit 0] ++
    io.unready.map (fun p => chore .functionReady m ioUnit p.1) ++
    [chore .checkpointDone m ioUnit 0, chore .attestationDone m ioUnit 0, chore .powerCapCheck m ioUnit 0]

/-- What a cell does at the end of its cycle. -/
def lateSteps (m u : Nat) (c : Cell) : List Chore :=
  c.ins.map (fun p => chore .controllerPeriodEnd m u p.1) ++ c.recs.map (fun p => chore .prioAging m u p.1) ++
    [chore .repairDone m u 0]

/-- The barriers of a unit at the end of a cycle. -/
def State.settleBarriers (s : State) (m u : Nat) : State :=
  s.onCell m u fun c => c.endBarriers s.cycle ((s.cyc m).setWidth 32)

/-- Flits, be they idle ones, reach an UP end while its far end is UP (R313). -/
def State.hearLinks (s : State) : State :=
  let hears (p : Plug) : Bool :=
    (s.link p.m p.link).state == .up && (s.farEnd p).any fun q => (s.link q.m q.link).state == .up
  { s with mods := s.mods.map fun (p : Nat × Module) =>
      (p.1, { p.2 with io := { p.2.io with links := p.2.io.links.map fun (q : Nat × Link) =>
        (q.1, if hears ⟨p.1, q.1⟩ then { q.2 with lastRx := s.cycle } else q.2) } }) }

/-- Every link sends what it may. -/
def State.pumpLinks (s : State) : State :=
  (s.mods.flatMap fun p => p.2.io.links.map fun q => (p.1, q.1)).foldl (fun s p => s.pumpLink p.1 p.2) s

def linkSteps (m : Nat) (io : IoDie) : List Chore :=
  io.links.flatMap fun p =>
    [chore .ackTimer m ioUnit p.1, chore .timeFlitTimer m ioUnit p.1, chore .linkSilenceTimeout m ioUnit p.1,
      chore .retrainTimeout m ioUnit p.1]

/-! ### The stages -/

/-- What Spire firmware does by itself, in RUN (R413, R426). -/
def State.firmware (s : State) (m : Nat) : State :=
  if (s.mod m).io.boot = .run then
    (((s.pumpReplies m).pollQueues m).serveQueues m).onMod m fun x => { x with io := x.io.applyFixes s.cycle }
  else s

/-- The requests and notices that firmware serves in this cycle, with what the policy of the home module says (R413). -/
def State.serviceChores (s : State) : List Chore :=
  s.ioChores fun m io =>
    if io.boot = .run then
      (io.servesNow s.cycle).filterMap fun q =>
        match io.queueHead q with
        | none => none
        | some ws =>
          match (ws.getD 0 0).toNat / 2 ^ 24 with
          | 0x10 => some (.raRequestService, ⟨m, ioUnit, q, (Config.raPolicy m ws s.cycle).toNat, []⟩)
          | 0x12 => some (chore .migrationNoticeService m ioUnit q)
          | _ => none
    else []

/-- What a stage does at its beginning, beside the steps that it looks at. -/
def prepare (n : Nat) (s : State) : State :=
  let now := s.cycle
  match n with
  | 0 =>
    ((s.takeTrains.ignoreFlits.eachCell Cell.beginCycle).eachUnit fun s m u => s.joinAll m u).eachIo fun io =>
      { io with
        ceilNow := io.pceil
        ingress := io.ingress.map fun (p : Nat × Ingress) => (p.1, p.2.settle now) }
  | 1 => s.eachCell fun c => (c.deliverDue now).applyWeights now
  | 2 => s.eachCell fun c => c.sampleAll now
  | 3 => s.eachCell fun c => (c.noteEligible now).notePreq
  | 4 => (s.eachCell fun c => c.startArmings now).eachUnit fun s m u => s.feed m u
  | 5 => (s.eachUnit fun s m u => s.runPushes m u).eachCell fun c => c.startBinds now
  | 6 => s.eachUnit fun s m u => ((s.endBinds m u).pumpEngine m u).pumpQueues m u
  | 9 => (s.eachIo IoDie.settleRoutes).switchAll
  | 10 => s.dropOutside.mods.foldl (fun s p => ((s.firmware p.1).moveTransfer p.1).forwardImages p.1) s.dropOutside
  | 11 => (s.eachCell fun c => (c.startCtx now).freezeControllers now).eachUnit fun s m u => s.settleBarriers m u
  | 12 => s.hearLinks.sendTrains.pumpLinks
  | _ => s

/-- The steps that a stage looks at (log 4, DEDUCED). -/
def chores (n : Nat) (s : State) : List Chore :=
  match n with
  | 0 =>
    (s.flits.filter fun f => decide (f.due ≤ s.cycle)).filterMap
        (fun f => (flitStep s f).map fun i => chore i f.to'.m ioUnit f.id) ++
      (s.arrivals.filterMap fun x => (earlyStep x).map fun i => onMsg i x) ++ s.cellChores (expiryChores s.cycle)
  | 1 =>
    s.cellChores fun m u c =>
      [chore .wldComplete m u 0, chore .mswapFlip m u 0] ++ c.arr.armings.map (fun _ => chore .chainParametersRead m u 0) ++
        c.ins.flatMap (fun p => p.2.claims.map fun _ => chore .spopDelivery m u p.1) ++ [chore .contextSaveComplete m u 0] ++
        ([0, 1, 2, 3].filter fun k => (c.restored s.cycle k).isSome).map fun k => chore .contextRestore m u k
  | 3 => s.cellChores fun m u _ => [0, 1, 2, 3].flatMap fun k => [chore .recordStart m u k, chore .contextRestore m u k]
  | 4 => s.cellChores arrayChores
  | 5 =>
    s.cellChores fun m u c =>
      c.pushes.map (fun j => chore .pushComplete m u j.op) ++ c.rels.map fun j => chore .srelRelease m u j.op
  | 6 => engineChores s
  | 7 => remoteChores s ++ s.arrivals.filterMap fun x => (lateStep x).map fun i => onMsg i x
  | 8 => s.writeChores ++ s.cellChores fun m u c => 
      c.hold.map (fun p => chore .holdEntryExpiry m u p.1) ++
        if c.hold.isEmpty then [] else [chore .holdEntryPerform m u 0]
  | 9 => s.writeChores ++ queueChores s
  | 10 => imageChores s ++ s.serviceChores ++ s.ioChores ioSteps
  | 11 => s.cellChores fun m u c => endChores m u c ++ lateSteps m u c
  | 12 => s.ioChores linkSteps
  | _ => []

/-- Stages 0 to 3 come before the issue decisions, 4 to 12 after them (log 4, DEDUCED). -/
def nextPhase (n : Nat) : Phase := if n = 3 then .issue 0 else if 12 ≤ n then .refill else .stage (n + 1)

/-- A stage begins (log 4, DEDUCED). -/
def beginStage (n : Nat) (s : State) : State :=
  let t := prepare n s
  { t with todo := chores n t, phase := nextPhase n }

/-- The issue decision of the `k`-th unit. -/
def issueUnit (k : Nat) (s : State) : State :=
  match s.units[k]? with
  | none => { s with phase := .stage 4 }
  | some (m, u) =>
    let (t, b) := s.decideIssue m u
    match b with
    | some b => { t with phase := .open' (k + 1) b, todo := [chore .resultLanding m u b.k] }
    | none => { t with phase := .issue (k + 1) }

/-- The end of a cycle: counters advance, and PWR is averaged (R402, R414). -/
def tick (s : State) : State :=
  { s with
    cycle := s.cycle + 1
    phase := .stage 0
    mods := s.mods.map fun (p : Nat × Module) =>
      let io := if p.2.io.boot == .run then p.2.io.tickCyc else p.2.io
      (p.1, { p.2 with io := if s.cycle % 65536 = 65535 then { io with pwr := Config.power p.1 s.cycle } else io }) }

/-- One step of the agenda, when no bundle is open (log 2, DESIGN CHOICE) (log 4, DEDUCED) (log 54, DESIGN CHOICE). -/
def agendaStep (s : State) : Out :=
  if s.mods.isEmpty then .fault .emptyChain
  else
    match s.todo with
    | (i, f) :: r =>
      match exec i { s with todo := r, focus := f } with
      | .next t => .next t
      | _ => .next { s with todo := r }
    | [] =>
      match s.phase with
      | .stage n => .next (beginStage n s)
      | .issue k => .next (issueUnit k s)
      | .open' k b => .next { s with phase := .issue k, cur := some b }
      | .refill => exec .pacingBucketRefill s
      | .tick => .next (tick s)

end Sys2Proof.Machine
end

