-- ==== Sys2Proof/Machine/Step.lean ====
section
/-! DEFINITION. One step of the machine, and the placing of one instruction where the next step fetches. -/

namespace Sys2Proof.Machine

/-- A descriptor that declares every register of every file (log 2, DESIGN CHOICE). -/
def openDesc : Desc := { Desc.zero with smax := 63, vmax := 63, qmax := 7, hmax := 15 }

/-- One step: the next syllable of the open bundle, or the next step of the cycle's agenda. -/
def step (s : State) : Host.Outcome State Fault Refusal :=
  match s.cur with
  | some b => exec (fetchSyl s b) (fetched s b)
  | none => agendaStep s

/-- The machine with one syllable stored where `step` fetches next: at the open bundle's next address, or, where no bundle
is open, in a bundle opened on strand 0 of cell 0 of module 0, whose record declares every register
(log 2, DESIGN CHOICE). -/
def State.withFetchWord (s : State) (nbits w : Nat) : State :=
  let word : Word := BitVec.ofNat 32 (w % 2 ^ nbits)
  match s.cur with
  | some b => s.onCell b.m b.u fun c => { c with mem := memWrite c.mem (fetchAddr c.spire b) (leBytes 4 word.toNat) }
  | none =>
    let s := s.onCell 0 0 fun c =>
      let c := { c.onRecord 0 (fun r => { r with state := .running, desc := openDesc }) with
        mem := memWrite c.mem (0x600000 + 4 * (c.strand 0).pc.toNat) (leBytes 4 word.toNat) }
      c.onStrand 0 fun st => { st with mode := .running, entry := 0 }
    { s with cur := some ⟨0, 0, 0, (s.strand 0 0 0).pc, []⟩ }

end Sys2Proof.Machine
end

