-- ==== Sys2Proof/Safety.lean ====
section
/-! DEFINITION. The terms in which claims speak of a run: an opened bundle that may issue, what its issue leaves, a trap
taken, a machine whose memories are in canonical form. -/

namespace Sys2Proof.Machine

/-- What the first syllable `i` of the next bundle of strand `k` sees: its operands are read with `View.rs`, `View.rq`,
`View.rv` and `View.rh` (R81, R90, R94). -/
def State.sees (s : State) (m u k : Nat) (i : Instr) : View := View.of s (s.nextBundle m u k) i

/-- The operands of strand `k` by the names of a syllable: s0 reads 0, q0 all ones, and the rotating names turn with RRB. -/
def State.rs (s : State) (m u k : Nat) (r : BitVec 6) : Word :=
  if r = 0 then 0 else (s.strand m u k).s.getD (physS (s.strand m u k).rrb r.toNat) 0

def State.rq (s : State) (m u k : Nat) (n : Nat) : Word :=
  if n = 0 then 0xFFFFFFFF else (s.strand m u k).q.getD (physQ (s.strand m u k).rrb n) 0

def State.rv (s : State) (m u k : Nat) (r : BitVec 6) : VReg :=
  (s.strand m u k).v.getD (physV (s.strand m u k).rrb r.toNat) VReg.zero

def State.rh (s : State) (m u k : Nat) (n : Nat) : Handle := (s.strand m u k).h.getD n Handle.zero

/-- The physical registers of scalar, predicate and vector names in strand `k`. -/
def State.ps (s : State) (m u k : Nat) (r : BitVec 6) : Nat := physS (s.strand m u k).rrb r.toNat
def State.pq (s : State) (m u k : Nat) (n : Nat) : Nat := physQ (s.strand m u k).rrb n
def State.pv (s : State) (m u k : Nat) (r : BitVec 6) : Nat := physV (s.strand m u k).rrb r.toNat

/-- The checks of a plain access of `n` bytes at offset `off` through handle `hn` (EA of R89). -/
def State.ea (s : State) (m u k hn : Nat) (off : Int) (n : Nat) (kind : Access) : Ea :=
  (s.sees m u k (.nop true)).ea hn off n kind

/-- The descriptor of the record that strand `k` runs. -/
def State.desc (s : State) (m u k : Nat) : Desc := ((s.cell m u).record (s.strand m u k).entry).desc

/-- A bundle of strand `k` has been opened and has no syllable yet. -/
structure State.Opened (s : State) (m u k : Nat) : Prop where
  cur : s.cur = some (s.nextBundle m u k)
  strand : k < 4

/-- The register names of a syllable are declared by the record, or the unit is a Spire core, which declares nothing
(R103, R123). -/
def State.DeclaresS (s : State) (m u k : Nat) (rs : List (BitVec 6)) : Prop :=
  (s.cell m u).spire = true ∨ ∀ r ∈ rs, r.toNat ≤ (s.desc m u k).smax

def State.DeclaresQ (s : State) (m u k : Nat) (ns : List Nat) : Prop :=
  (s.cell m u).spire = true ∨ ∀ n ∈ ns, n ≤ (s.desc m u k).qmax

def State.DeclaresV (s : State) (m u k : Nat) (rs : List (BitVec 6)) : Prop :=
  (s.cell m u).spire = true ∨ ∀ r ∈ rs, r.toNat ≤ (s.desc m u k).vmax

def State.DeclaresH (s : State) (m u k : Nat) (ns : List Nat) : Prop :=
  (s.cell m u).spire = true ∨ ∀ n ∈ ns, n ≤ (s.desc m u k).hmax

/-- No scalar register that a syllable reads or names waits for a delivery, and no delivery to one that it reads left an
error or another note behind (R84). -/
structure State.Settled (s : State) (m u k : Nat) (reads names : List Nat) : Prop where
  pend : ∀ p ∈ (s.strand m u k).pend, p.reg ∉ reads ∧ p.reg ∉ names
  notes : ∀ d ∈ (s.strand m u k).delivered, d.reg ∉ reads

/-- The opened bundle may issue with a scalar syllable that reads the scalars `reads` and writes or waits for the scalars
`dests`: the names are declared, the registers are settled, and the landing queue has room (R83, R84, R103). -/
structure State.Ready (s : State) (m u k : Nat) (reads dests : List (BitVec 6)) : Prop where
  opened : s.Opened m u k
  declared : s.DeclaresS m u k (dests ++ reads)
  settled : s.Settled m u k (reads.map (s.ps m u k)) (dests.map (s.ps m u k))
  room : (s.strand m u k).landing.length < 32

/-- A result of the opened bundle that reaches register `r` after `lat` beats (R80). -/
def State.result (s : State) (m u k : Nat) (r : Reg) (val : Val) (lat : Nat) : Landing :=
  ⟨r, val, (s.strand m u k).beat + lat, s.seq, 0, 0, 0, none⟩

/-- What an issued bundle leaves alone: other modules, the module's I/O die, other cells and the cell's other strands. The
bundle is closed and counted. -/
structure Elsewhere (s t : State) (m u k : Nat) : Prop where
  machine : t = { s with cur := none, last := .issued, seq := s.seq + 1, mods := t.mods }
  modules : ∀ m', m' ≠ m → t.mod m' = s.mod m'
  io : (t.mod m).io = (s.mod m).io
  cells : ∀ u', u' ≠ u → t.cell m u' = s.cell m u'
  strands : ∀ k', k' ≠ k → t.strand m u k' = s.strand m u k'

/-- The opened bundle issued, one syllable long, and left its cell as `c` is: its results `ls` are in flight, a beat has
passed, fetch is at the next address; no register has changed, no special register, no trap level. A wait of the strand on a
foreign token is over. -/
structure IssuedIn (s t : State) (m u k : Nat) (c : Cell) (ls : List Landing) : Prop where
  elsewhere : Elsewhere s t m u k
  cell : t.cell m u = { c with strands := (t.cell m u).strands, waits := (c.endWait (.strand k)).waits }
  strand : t.strand m u k = { s.strand m u k with
    landing := (s.strand m u k).landing ++ ls
    pc := (s.strand m u k).pc + 1
    beat := (s.strand m u k).beat + 1
    waiting := .none }

/-- The same where nothing else of the cell has changed: no byte of memory, no accumulator, no engine. -/
abbrev Issued (s t : State) (m u k : Nat) (ls : List Landing) : Prop := IssuedIn s t m u k (s.cell m u) ls

/-- `exec` of `i`, as the last syllable of the opened bundle and its only one, issues, and its results are `ls`. -/
def State.Sends (s : State) (m u k : Nat) (i : Instr) (ls : List Landing) : Prop :=
  ∃ t, exec i s = .next t ∧ Issued s t m u k ls

/-- The same with one result: `val` reaches register `r` after `lat` beats. -/
def State.Gives (s : State) (m u k : Nat) (i : Instr) (r : Reg) (val : Val) (lat : Nat) : Prop :=
  s.Sends m u k i [s.result m u k r val lat]

/-- The same for a scalar register by its name. -/
def State.GivesS (s : State) (m u k : Nat) (i : Instr) (d : BitVec 6) (x : Word) (lat : Nat) : Prop :=
  s.Gives m u k i (.s (s.ps m u k d)) (.word x) lat

/-- A memory access at cell offset `c` may go ahead: no engine command in flight holds it, no error is planted in the cell,
and it is not a Spire core's window onto the module's registers (R199, R383, R414). -/
structure State.Reaches (s : State) (m u : Nat) (kind : Access) (c n : Nat) : Prop where
  free : (s.cell m u).held kind c n = false
  plants : (s.cell m u).flips = []
  plain : (s.cell m u).spire = true → c + n ≤ 2 ^ 20

/-- The taint that a load of bytes [c, c + n) lands with (R119, R180). -/
def State.taintOf (s : State) (m u c n : Nat) : Option (BitVec 8) :=
  if (s.cell m u).corrupt c n then some 0xC0 else none

/-- The detector of the SHARED region that holds a written byte names the writing context (R202). -/
def Cell.wrote (c : Cell) (k off : Nat) : Cell :=
  match c.raceAt off with
  | some r => { c with races := c.races.map fun x =>
      if x.off = r.off then { x with wr := some ((c.strand k).recid.toNat, k), wrel := none } else x }
  | none => c

/-- `exec` of `i` issues, sends `ls` off, and leaves its cell as `c`. -/
def State.Leaves (s : State) (m u k : Nat) (i : Instr) (c : Cell) (ls : List Landing) : Prop :=
  ∃ t, exec i s = .next t ∧ IssuedIn s t m u k c ls

/-- `exec` of `i` issues, sends nothing off, and writes `bytes` at cell offset `off`: each byte of memory reads as before
but those. The words wholly written are sound again, and the detector notes the writer. -/
def State.Stores (s : State) (m u k : Nat) (i : Instr) (off : Nat) (bytes : List Byte) : Prop :=
  ∃ t, exec i s = .next t ∧ IssuedIn s t m u k (((s.cell m u).storeBytes off bytes).wrote k off) [] ∧
    ∀ x, memByte (t.cell m u).mem x =
      if off ≤ x ∧ x < off + bytes.length then bytes.getD (x - off) 0 else memByte (s.cell m u).mem x

/-! ### Vector results (R127 to R132) -/

/-- The opened bundle may issue with a vector syllable whose vector names are `vecs`, all in the cluster of `d`, whose scalar
operands are `reads` and `names`, under predicate `q` in mode `w` (R103, R123, R130, R133). -/
structure State.ReadyV (s : State) (m u k : Nat) (vecs : List (BitVec 6)) (d : BitVec 6) (q : BitVec 3) (w : BitVec 2)
    (reads names : List (BitVec 6)) : Prop where
  ready : s.Ready m u k reads names
  cell : (s.cell m u).spire = false
  declaredV : s.DeclaresV m u k vecs
  declaredQ : s.DeclaresQ m u k [q.toNat]
  cluster : ∀ r ∈ vecs, clusterOf r.toNat = clusterOf d.toNat
  mode : w.toNat ≤ 1

/-- A source passes the tag check: it is RAW or has the tag that the instruction requires (R126). -/
abbrev VReg.Has (x : VReg) (tag : BitVec 3) : Prop := x.tag = 0 ∨ x.tag = tag

/-- A result with tag `tag` may be merged into vd: all lanes are written, or masked lanes become 0, or vd has the tag
(R128). -/
def State.Merges (s : State) (m u k : Nat) (d : BitVec 6) (q : BitVec 3) (w : BitVec 2) (tag : BitVec 3) : Prop :=
  q = 0 ∨ w = 1 ∨ tag = 0 ∨ (s.rv m u k d).Has tag

/-- Lane `j` of a vector result: `f j` under the governing predicate, else 0 in mode zero and the old lane in mode merge. -/
def State.laneOf (s : State) (m u k : Nat) (d : BitVec 6) (q : BitVec 3) (w : BitVec 2) (f : Nat → Word) (j : Nat) : Word :=
  if (s.rq m u k q.toNat).getLsbD j then f j else if w = 1 then 0 else (s.rv m u k d).lanes.getD j 0

/-- The flags, and the counts, of the active lanes together (R135, R136). -/
def State.flagsOf (s : State) (m u k : Nat) (q : BitVec 3) (g : Nat → FpFlags) : FpFlags :=
  (List.range 32).foldl (fun x j => if (s.rq m u k q.toNat).getLsbD j then x ||| g j else x) 0

def State.countOf (s : State) (m u k : Nat) (q : BitVec 3) (g : Nat → Nat) : Nat :=
  (List.range 32).foldl (fun x j => if (s.rq m u k q.toNat).getLsbD j then x + g j else x) 0

/-- `exec` of `i` issues, and its result in vd has tag `tag` and the lanes `f` where they are active (R131). -/
def State.GivesV (s : State) (m u k : Nat) (i : Instr) (d : BitVec 6) (q : BitVec 3) (w : BitVec 2) (tag : BitVec 3)
    (lat : Nat) (f : Nat → LaneOut) : Prop :=
  s.Sends m u k i [{ s.result m u k (.v (s.pv m u k d))
      (.vec ⟨Vector.ofFn fun j : Fin 32 => s.laneOf m u k d q w (fun j => (f j).val) j, tag⟩) lat with
    flags := s.flagsOf m u k q fun j => (f j).flags
    cvtSat := s.countOf m u k q fun j => (f j).cvt
    nanScale := s.countOf m u k q fun j => (f j).nan }]

/-- `exec` of `i` issues, and predicate `d` takes in each active lane what `f` gives (R132). -/
def State.GivesP (s : State) (m u k : Nat) (i : Instr) (d : BitVec 6) (q : BitVec 3) (w : BitVec 2) (lat : Nat)
    (f : Nat → Bool × FpFlags) : Prop :=
  ∃ x : Word, s.Sends m u k i [{ s.result m u k (.q (s.pq m u k d.toNat)) (.word x) lat with
      flags := s.flagsOf m u k q fun j => (f j).2 }] ∧
    ∀ j < 32, x.getLsbD j =
      if (s.rq m u k q.toNat).getLsbD j then (f j).1 else w = 0 && (s.rq m u k d.toNat).getLsbD j

/-! ### Commands (R70): the whole next state of a bundle whose only syllable commands a unit -/

/-- The strand after its bundle of one syllable has issued. -/
def State.went (s : State) (m u k : Nat) : Strand :=
  { s.strand m u k with pc := (s.strand m u k).pc + 1, beat := (s.strand m u k).beat + 1, waiting := .none }

/-- Its cell: a wait of the strand on a foreign token is over. -/
def State.wentCell (s : State) (m u k : Nat) : Cell := ((s.cell m u).endWait (.strand k)).setStrand k (s.went m u k)

/-- The number of the command that the opened bundle gives. -/
def State.op (s : State) : Nat := s.seq + 2

/-- The machine after a bundle with one command: the bundle is closed and counted, the command has taken the operation
numbers up to `s.seq + n`, and of all cells that of the strand alone has changed, as `f` says. -/
def State.left (s : State) (m u k n : Nat) (f : Cell → Cell) : State :=
  { s with cur := none, last := .issued, seq := s.seq + n }.setCell m u (f (s.wentCell m u k))

/-- `exec` of `i` issues with one command, which changes the strand's cell as `f` says and nothing else. -/
def State.Runs (s : State) (m u k : Nat) (i : Instr) (f : Cell → Cell) : Prop := exec i s = .next (s.left m u k 2 f)

/-- The machine after the opened bundle has not issued: its strand waits as `w` says, from the cycle of the first try on. -/
def State.stalled (s : State) (m u k : Nat) (w : Waits) : State :=
  { s with cur := none, last := .stalled }.setCell m u ((s.cell m u).setStrand k
    { s.strand m u k with waiting := { w with first := some (w.first.getD s.cycle) } })

/-- LTOK takes a token with latency 1 (R257, R260). -/
def State.landsTok (s : State) (m u k : Nat) (tok : Word) (c : Cell) : Cell :=
  c.onStrand k fun st => { st with landing := st.landing ++ [s.result m u k (.sp 4) (.word tok) 1] }

/-- Register `t` waits for the command's result; none for t = 0 (R63, R84). -/
def State.asks (s : State) (m u k : Nat) (t : BitVec 6) (c : Cell) : Cell :=
  if s.ps m u k t = 0 then c
  else c.onStrand k fun st => { st with pend := st.pend ++ [⟨s.ps m u k t, s.op⟩] }

/-- The command is answered with a word at the start of the next cycle. -/
def State.answers (s : State) (m u k : Nat) (t : BitVec 6) (x : Word) (notes : List Note) (c : Cell) : Cell :=
  if s.ps m u k t = 0 then c
  else
    { s.asks m u k t c with
      deliveries := c.deliveries ++ [⟨s.cycle + 1, k, s.op, s.ps m u k t, x, notes⟩] }

/-- The command claims ranges on the scoreboard (R198). -/
def State.claims (s : State) (k : Nat) (reads writes : List (Nat × Nat)) (c : Cell) : Cell :=
  { c with scb := c.scb ++ [⟨s.op, k, reads, writes, reads, writes, s.op⟩] }

/-- The ranges that a command names pass their checks (R184, R202, R235). -/
def State.Admits (s : State) (m u k : Nat) (off n : Nat) (write wld : Bool) : Prop :=
  (s.sees m u k (.nop true)).engineRange off n write wld = []

/-- The token register that a syllable names: none for 0 (R63). -/
def tokenRegs (t : BitVec 6) : List (BitVec 6) := if t = 0 then [] else [t]

/-- The writes of a command are noted at the detectors of their regions, those that write anything (R202). -/
def Cell.wroteRange (c : Cell) (k : Nat) (ws : List (Nat × Nat)) : Cell :=
  ws.foldl (fun c w => if w.2 = 0 then c else c.wrote k w.1) c

/-- No error of an earlier command waits to be raised (R234, R265). -/
def State.NoErrors (s : State) (m u k : Nat) : Prop := (s.strand m u k).errs = []

/-! ### Traps (R168, R169) -/

/-- The strand after a trap of its bundle: the bank of the level above takes the cause, the value, the bundle's address, the
position, RRB and the taint, what was in flight becomes replay entries, and fetch goes to the handler of the cause. -/
def Strand.atTrap (st : Strand) (cycle slot : Nat) (cause : BitVec 8) (val : Word) : Strand :=
  let fill (b : TrapBank) : TrapBank :=
    { b with
      cause := cause, pc := st.pc, val := val, adv := false, taint := st.taint, slot := BitVec.ofNat 3 slot, rrb := st.rrb
      replay := st.landing.map fun l => { l with due := l.due - st.beat } }
  { st with
    bank1 := if st.tl = 0 then fill st.bank1 else st.bank1
    bank2 := if st.tl = 0 then st.bank2 else fill st.bank2
    tl := st.tl + 1
    landing := []
    pc := BitVec.ofNat 15 (st.tvec.toNat * 64 + 64 * cause.toNat)
    idleUntil := cycle + 3
    waiting := .none }

/-- The machine after a trap at level 0 or 1 of the syllable at position `slot`. Nothing else of the bundle takes place. -/
def State.trapped (s : State) (m u k slot : Nat) (cause : BitVec 8) (val : Word) : State :=
  { s with cur := none, last := .trapped }.setCell m u
    (((s.cell m u).endWait (.strand k)).setStrand k ((s.strand m u k).atTrap s.cycle slot cause val))

/-- `exec` of `i`, the one syllable of its bundle, takes a trap at level 0 or 1. -/
def State.Traps (s : State) (m u k : Nat) (i : Instr) (cause : BitVec 8) (val : Word) : Prop :=
  exec i s = .next (s.trapped m u k 0 cause val)

/-! ### The machine's own steps -/

/-- `exec` of the step `i` changes unit `u` of module `m` as `f` says, and nothing else of the machine. -/
def State.Changes (s : State) (m u : Nat) (i : Instr) (f : Cell → Cell) : Prop :=
  exec i s = .next (s.setCell m u (f (s.cell m u)))

/-- The focus names message `x`, which says `b` and has arrived at its unit. -/
def State.Brings (s : State) (x : Msg) (b : Body) : Prop := s.arrival s.focus.j = some x ∧ x.body = b

/-- The step `i` takes message `x` away and changes its unit as `f` says, and nothing else of the machine. -/
def State.Takes (s : State) (x : Msg) (i : Instr) (f : Cell → Cell) : Prop :=
  exec i s = .next ((s.dropMsg x.id).setCell x.mod x.dst.unit (f (s.cell x.mod x.dst.unit)))

/-- The step `i` changes the I/O die of module `m` as `f` says, and nothing else of the machine. -/
def State.DieChanges (s : State) (m : Nat) (i : Instr) (f : IoDie → IoDie) : Prop :=
  exec i s = .next (s.onMod m fun x => { x with io := f x.io })

/-- The focus is the host's write of word `w` at an offset of module `m`'s windows (R320, R324). -/
def State.HostWrites (s : State) (m off : Nat) (w : Word) : Prop :=
  s.focus.m = m ∧ s.focus.u = hostUnit ∧ s.focus.j = off ∧ BitVec.ofNat 32 s.focus.v = w

/-- The next write of a control register of the unit that the focus names is that of word `w` at register offset `o`; `r` are
the later ones (R353). -/
def State.RegWrites (s : State) (m u o : Nat) (w : Word) (r : List (Nat × Word)) : Prop :=
  s.focus.m = m ∧ s.focus.u = u ∧ u < 1024 ∧ (s.cell m u).regWrites = (0x700000 + o, w) :: r

/-! ### Values of number formats, exactly -/

/-- An FP32 word that is neither an infinity nor a NaN (R37). -/
def f32Finite (w : Word) : Prop := w.toNat / 2 ^ 23 % 256 ≠ 255

/-- A NaN, and one that signals (R36, R37). -/
abbrev f32Nan (w : Word) : Prop := 0x7F800000 < w.toNat % 2 ^ 31
abbrev f32Signals (w : Word) : Prop := f32Nan w ∧ w.getLsbD 22 = false

/-- The value of a finite FP32 word in units of 2^-149, the least subnormal (R37). -/
def f32Units (w : Word) : Int :=
  let e := w.toNat / 2 ^ 23 % 256
  let mag : Int := if e = 0 then (w.toNat % 2 ^ 23 : Nat) else (2 ^ 23 + w.toNat % 2 ^ 23 : Nat) * 2 ^ (e - 1)
  if w.getLsbD 31 then -mag else mag

/-- The word `r` with flags `fl` is the value `x / n`, in units of 2^-149, rounded once to FP32 (R35, R38): to nearest, no
finite word lies nearer, and of two as near the even one is taken; the directed modes give the nearest word on their side. The
inexact flag says whether the value changed, and a value beyond the range gives an infinity with overflow. -/
def f32Rounds (rm : BitVec 2) (x : Int) (n : Nat) (r : Word) (fl : FpFlags) : Prop :=
  let off (c : Word) : Int := f32Units c * n - x
  (f32Finite r →
    (rm = 0 → ∀ c, f32Finite c → (off r).natAbs ≤ (off c).natAbs ∧
      ((off c).natAbs = (off r).natAbs → f32Units c = f32Units r ∨ r.getLsbD 0 = false)) ∧
    (rm = 1 → 0 ≤ f32Units r * x ∧ (f32Units r * n).natAbs ≤ x.natAbs ∧
      ∀ c, f32Finite c → (f32Units c * n).natAbs ≤ x.natAbs → (f32Units c).natAbs ≤ (f32Units r).natAbs) ∧
    (rm = 2 → 0 ≤ off r ∧ ∀ c, f32Finite c → 0 ≤ off c → off r ≤ off c) ∧
    (rm = 3 → off r ≤ 0 ∧ ∀ c, f32Finite c → off c ≤ 0 → off c ≤ off r) ∧
    (fl.getLsbD 0 = true ↔ off r ≠ 0)) ∧
  (¬ f32Finite r → r = (if x < 0 then 0xFF800000 else 0x7F800000) ∧ fl = 5) ∧
  (rm = 0 → (f32Finite r ↔ x.natAbs < (2 ^ 25 - 1) * 2 ^ 252 * n))

/-- The value of an E4M3 byte that is no NaN in units of 2^-9 (R43). -/
def e4m3Units (b : Byte) : Int :=
  let e := b.toNat / 8 % 16
  let mag : Int := if e = 0 then (b.toNat % 8 : Nat) else (8 + b.toNat % 8 : Nat) * 2 ^ (e - 1)
  if b.getLsbD 7 then -mag else mag

/-- A block scale with E from 1 to 254, and its value in units of 2^-149 (R48). -/
def scalePlain (w : Word) : Prop := 1 ≤ w.toNat / 2 ^ 12 ∧ w.toNat / 2 ^ 12 ≤ 254
def scaleUnits (w : Word) : Nat := (4096 + w.toNat % 4096) * 2 ^ (w.toNat / 2 ^ 12 + 10)

/-! ### The machine -/

/-- Every memory is in its canonical form: addresses rise, and no byte that is listed is 0. -/
def State.Canonical (s : State) : Prop :=
  (∀ m u, memWf (s.cell m u).mem = true) ∧ ∀ m, memWf (s.mod m).io.hostMem = true

end Sys2Proof.Machine
end

