-- ==== Sys2Proof/Certificates/Slice0/Obligations.lean ====
section
/-! DEFINITION. The statements about the machine, from the rules of the spec. -/

open Sys2Proof Sys2Proof.Machine

/-! ### Encoding and decoding (R61 to R64, R73 to R79) -/

/-- R62, R74 to R79: words laid out from the rules' encoding tables, at least one for each of the ten formats. -/
def Obligations.DecodesWords : Prop :=
  decode 0x80000000 = .nop true ∧
  decode (BitVec.ofNat 32 (2 ^ 31 + 0x01 * 2 ^ 23 + 3 * 2 ^ 17 + 4 * 2 ^ 11 + 5 * 2 ^ 5)) = .add true 3 4 5 ∧
  decode (BitVec.ofNat 32 (0x17 * 2 ^ 23 + 9 * 2 ^ 17 + 2 * 2 ^ 11 + 0x7FF)) = .addi false 9 2 0x7FF ∧
  decode (BitVec.ofNat 32 (0x22 * 2 ^ 23 + 63 * 2 ^ 17 + 0x1FFFF)) = .li false 63 0x1FFFF ∧
  decode (BitVec.ofNat 32 (0x44 * 2 ^ 23 + 7 * 2 ^ 17 + 5 * 2 ^ 13 + 6 * 2 ^ 7 + 0x7F)) = .ldw false 7 5 6 0x7F ∧
  decode (BitVec.ofNat 32 (0x48 * 2 ^ 23 + 33 * 2 ^ 17 + 1 * 2 ^ 13 + 2 * 2 ^ 7 + 2 * 2 ^ 4 + 3)) = .vld false 33 1 2 2 3 ∧
  decode (BitVec.ofNat 32 (0x80 * 2 ^ 23 + 1 * 2 ^ 17 + 2 * 2 ^ 11 + 3 * 2 ^ 5 + 4 * 2 ^ 2 + 1)) = .vaddI false 1 2 3 4 1 ∧
  decode (BitVec.ofNat 32 (2 ^ 31 + 0x60 * 2 ^ 23 + 0x1FFFE)) = .br true 0x1FFFE ∧
  decode (BitVec.ofNat 32 (0xC2 * 2 ^ 23 + 1 * 2 ^ 17 + 2 * 2 ^ 11 + 3 * 2 ^ 6 + 4)) = .wld false 1 2 3 4 ∧
  decode (BitVec.ofNat 32 (0x52 * 2 ^ 23 + 8 * 2 ^ 17 + 6 * 2 ^ 13 + 10 * 2 ^ 7 + 12 * 2)) = .amoadd false 8 6 10 12 ∧
  decode (BitVec.ofNat 32 (2 ^ 31 + 0x6E * 2 ^ 23 + 0x2A)) = .trap true 0x2A ∧
  decode (BitVec.ofNat 32 (0x3F * 2 ^ 23)) = .reservedEncoding (BitVec.ofNat 32 (0x3F * 2 ^ 23)) ∧
  decode (BitVec.ofNat 32 (0x01 * 2 ^ 23 + 1)) = .reservedEncoding (BitVec.ofNat 32 (0x01 * 2 ^ 23 + 1))

/-- Decoding an encoded syllable gives it back, with every operand at every value that its row admits. -/
def Obligations.DecodeOfEncode : Prop :=
  ∀ i : Instr, i.isSyllable = true → i.wellFormed = true → decode (encode i) = i

/-- Every word is a syllable, and encoding what it decodes to gives it back: no bit of a word is dropped. -/
def Obligations.EncodeOfDecode : Prop := ∀ w : Word, (decode w).isSyllable = true ∧ encode (decode w) = w

/-! ### Bundles, results and steps (R61, R65 to R72, R80 to R83, R434) -/

/-- R61: a step with a bundle open runs the syllable at the bundle's next address, in the I-store of a cell or, by the model's
choice (log entry 11), in the SRAM of a Spire core. A step with no bundle open runs the next step of the agenda, or, of an
agenda that is done, opens the bundle that has been chosen. -/
def Obligations.StepRunsDecoded : Prop :=
  (∀ (s : State) (b : Bundle) (i : Instr), s.cur = some b → (s.cell b.m b.u).flips = [] →
    decode (memWord (s.cell b.m b.u).mem
      ((if (s.cell b.m b.u).spire then 0 else 0x600000) + 4 * (b.pc.toNat + b.syls.length))) = i → step s = exec i s) ∧
  (∀ (s t : State) (i : Instr) (f : Focus) (r : List (Instr × Focus)), s.cur = none → s.mods ≠ [] → s.todo = (i, f) :: r →
    exec i { s with todo := r, focus := f } = .next t → step s = .next t) ∧
  (∀ (s : State) (n : Nat) (b : Bundle), s.cur = none → s.mods ≠ [] → s.todo = [] → s.phase = .open' n b →
    step s = .next { s with phase := .issue n, cur := some b })

/-- A chain that holds a module never stops: every step gives a next state. -/
def Obligations.StepAlwaysAnswers : Prop := ∀ s : State, s.mods ≠ [] → ∃ t, step s = .next t

/-- Every step keeps every memory, of cells, of Spire cores and of hosts, in its canonical form. -/
def Obligations.StepKeepsMemoryCanonical : Prop :=
  ∀ s t : State, s.Canonical → step s = .next t → t.Canonical

/-- The memories are in their canonical form after reset. -/
def Obligations.ResetCanonical : Prop := State.reset.Canonical

/-- R33, R155, R156, R241, R360, R415: what reset leaves, where the spec gives a value: no store holds a byte, no strand runs,
the module waits for its self-test, FPC.E4M3SAT is 1, TOKEXP is 0x0020_0000, AGELIM 4096, CEIL 256, and nothing is in
flight. That an idle strand's FPC, FPF, RRB and LTOK hold their values of a record's start is the model's choice (log 7). -/
def Obligations.ResetValues : Prop :=
  let s := State.reset
  s.cycle = 0 ∧ s.cur = none ∧ s.net = [] ∧ (s.mod 0).io.boot = .reset ∧ (s.mod 0).io.pceil = 256 ∧
    (∀ u < 1024, (s.cell 0 u).mem = [] ∧ (s.cell 0 u).tokexp = 0x00200000 ∧ (s.cell 0 u).agelim = 4096 ∧
      ∀ k < 4, (s.strand 0 u k).mode = .idle ∧ (s.strand 0 u k).tl = 0 ∧ (s.strand 0 u k).fpc = 8 ∧
        (s.strand 0 u k).fpf = 0 ∧ (s.strand 0 u k).rrb = 0 ∧ (s.strand 0 u k).ltok = 0)

/-- R61, R65, R68, R80: a syllable whose E bit is 0 joins the open bundle and changes nothing else, so that every syllable of
a bundle reads what its strand held before the bundle: two syllables of one bundle that exchange two registers both read the old
values, and both results are in flight. That a step runs one syllable is the model's choice (log 55). -/
def Obligations.BundleReadsBeforeWrites : Prop :=
  (∀ (s : State) (b : Bundle) (i : Instr), i.isSyllable = true → (encode i).getLsbD 31 = false → s.cur = some b →
    b.syls.length + 1 < 8 → b.pc.toNat + b.syls.length + 1 < 32768 →
    ∃ y : Syl, exec i s = .next { s with cur := some { b with syls := b.syls ++ [y] } }) ∧
  ∀ (s : State) (m u k : Nat) (a b : BitVec 6), s.Ready m u k [a, b] [a, b] → s.ps m u k a ≠ s.ps m u k b →
    (s.strand m u k).landing.length < 31 → (s.strand m u k).pc.toNat < 32766 →
    ∃ s₁ t, exec (.ori false a b 0) s = .next s₁ ∧ exec (.ori true b a 0) s₁ = .next t ∧
      (t.strand m u k).landing = (s.strand m u k).landing ++
        [s.result m u k (.s (s.ps m u k a)) (.word (s.rs m u k b)) 1,
          s.result m u k (.s (s.ps m u k b)) (.word (s.rs m u k a)) 1] ∧
      (t.strand m u k).s = (s.strand m u k).s ∧ (t.strand m u k).pc = (s.strand m u k).pc + 2 ∧
      (t.strand m u k).beat = (s.strand m u k).beat + 1

/-- R83, R84, R434: a bundle that reads or names a pending register stalls without a beat, before the checks that need register
values; a delivery that is due reaches its register, which is pending no more, with what the delivery leaves for the bundle that
reads it; and where a bundle's result would not fit in the landing queue, an empty bundle takes its place, which counts a beat and
changes nothing else. The stall is stated for instructions of classes S, M, C and E. -/
def Obligations.PendingRegisters : Prop :=
  (∀ (s : State) (m u k : Nat) (d a b t : BitVec 6) (h : BitVec 4) (i : BitVec 7) (o : BitVec 17) (n : BitVec 5),
    s.Opened m u k → s.DeclaresS m u k [d, a, b, t] → s.DeclaresH m u k [h.toNat] →
    let pending (r : BitVec 6) : Prop := ∃ p ∈ (s.strand m u k).pend, p.reg = s.ps m u k r
    let stalls (j : Instr) : Prop := exec j s = .next (s.stalled m u k (s.strand m u k).waiting)
    (pending d ∨ pending a ∨ pending b → stalls (.add true d a b) ∧ stalls (.div true d a b)) ∧
    (pending d ∨ pending a → stalls (.addi true d a 0) ∧ stalls (.ldw true d h a i) ∧ stalls (.stw true d h a i)) ∧
    (pending a → stalls (.bz true a o) ∧ stalls (.twt true a)) ∧
    (pending d → stalls (.li true d o)) ∧
    (t ≠ 0 → pending a ∨ pending b ∨ pending t → stalls (.tjoin true a b t)) ∧
    (t ≠ 0 → pending t → n.toNat ≤ 15 → (s.cell m u).spire = false → stalls (.spop true n t))) ∧
  (∀ (s : State) (m u : Nat) (d : Delivery), s.cur = none → s.todo = [] → s.phase = .stage 1 →
    (s.cell m u).deliveries = [d] → d.due ≤ s.cycle → d.k < 4 →
    let st := s.strand m u d.k
    (∃ p ∈ st.pend, p.op = d.op ∧ p.reg = d.reg) → ∃ t, step s = .next t ∧ (t.cell m u).deliveries = [] ∧
      t.strand m u d.k = { st with
        s := if d.reg = 0 then st.s else st.s.setIfInBounds d.reg d.val
        pend := st.pend.filter fun p => !(p.op == d.op && p.reg == d.reg)
        delivered := st.delivered.filter (fun x => x.reg != d.reg) ++
          if d.notes = [] then [] else [⟨d.reg, d.op, d.notes⟩] }) ∧
  ∀ (s : State) (m u k : Nat) (d a b : BitVec 6), s.Opened m u k → s.DeclaresS m u k [d, a, b] →
    s.Settled m u k [s.ps m u k a, s.ps m u k b] [s.ps m u k d] → (s.strand m u k).landing.length = 32 →
    let st := s.strand m u k
    exec (.add true d a b) s = .next ({ s with cur := none, last := .empty }.setCell m u ((s.cell m u).setStrand k
      { st with beat := st.beat + 1, waiting := { st.waiting with first := some (st.waiting.first.getD s.cycle) } }))

/-- R80, R90, R94, R119, R135, R155, R156, R157, R342, R430: a result that is due lands in its register, and leaves the queue. s0
and q0 take no value, while the flags and counts of the result join all the same, by the model's reading (log 14); a special
register takes the fields that can be written; XDATA writes the word of the translation set that it was issued for, and TOKEXP the
cell's register; the flags of an FP result join FPF. Where a load has consumed an uncorrectable word, the strand is tainted, and the
tag of the iteration's first taint stays. -/
def Obligations.ResultsLand : Prop :=
  ∀ (s : State) (m u k : Nat) (l : Landing) (r : List Landing),
    s.focus.m = m → s.focus.u = u → s.focus.j = k → k < 4 →
    let st := s.strand m u k
    let c := s.cell m u
    st.landing = l :: r → l.due ≤ st.beat → (∀ x ∈ r, st.beat < x.due) →
    let rest := { st with landing := r }
    let counts (n : Counters) : Counters :=
      { n with
        cvtSat8 := BitVec.ofNat 16 (min 0xFFFF (n.cvtSat8.toNat + l.cvtSat))
        nanScale := BitVec.ofNat 16 (min 0xFFFF (n.nanScale.toNat + l.nanScale)) }
    let leaves (c' : Cell) : Prop := exec .resultLanding s = .next (s.setCell m u
      { c'.onStrand k (fun x => { x with fpf := x.fpf ||| l.flags }) with cnts := counts c.cnts, cntsNew := counts c.cntsNew })
    let lands (reg : Reg) (val : Val) (st' : Strand) : Prop := l.reg = reg → l.val = val → leaves (c.setStrand k st')
    (l.taint = none →
      (∀ (n i w : Nat) (x : Word) (y : VReg) (h : Handle),
        lands (.s n) (.word x) { rest with s := if n = 0 then st.s else st.s.setIfInBounds n x } ∧
        lands (.q n) (.word x) { rest with q := if n = 0 then st.q else st.q.setIfInBounds n x } ∧
        lands (.v n) (.vec y) { rest with v := st.v.setIfInBounds n y } ∧
        lands (.h n) (.handle h) { rest with h := st.h.setIfInBounds n h } ∧
        lands (.sp 0) (.word x) { rest with lc := x } ∧ lands (.sp 1) (.word x) { rest with rrb := x.setWidth 3 } ∧
        lands (.sp 2) (.word x) { rest with fpc := x.setWidth 4 } ∧ lands (.sp 3) (.word x) { rest with fpf := x.setWidth 5 } ∧
        lands (.sp 4) (.word x) { rest with ltok := x } ∧ lands (.sp 10) (.word x) { rest with sdctrap := x.getLsbD 1 } ∧
        lands (.pr 0) (.word x) { rest with tvec := BitVec.ofNat 9 (x.toNat / 64) } ∧
        lands (.pr 1) (.word x) { rest with bank1 := { st.bank1 with cause := x.setWidth 8 } } ∧
        lands (.pr 2) (.word x) { rest with bank1 := { st.bank1 with pc := x.setWidth 15 } } ∧
        lands (.pr 3) (.word x) { rest with bank1 := { st.bank1 with val := x } } ∧
        lands (.pr 4) (.word x) { rest with bank1 := { st.bank1 with adv := x.getLsbD 7, rrb := x.setWidth 3 } } ∧
        lands (.pr 5) (.word x) { rest with bank1 := { st.bank1 with save := x } } ∧
        lands (.pr 6) (.word x) { rest with bank2 := { st.bank2 with cause := x.setWidth 8 } } ∧
        lands (.pr 7) (.word x) { rest with bank2 := { st.bank2 with pc := x.setWidth 15 } } ∧
        lands (.pr 8) (.word x) { rest with bank2 := { st.bank2 with val := x } } ∧
        lands (.pr 9) (.word x) { rest with bank2 := { st.bank2 with adv := x.getLsbD 7, rrb := x.setWidth 3 } } ∧
        lands (.pr 10) (.word x) { rest with bank2 := { st.bank2 with save := x } } ∧
        lands (.pr 11) (.word x) { rest with xword := BitVec.ofNat 2 (x.toNat / 256), xidx := x.setWidth 8 } ∧
        (l.reg = .pr 13 → l.val = .word x → leaves { c.setStrand k rest with tokexp := x }) ∧
        (l.reg = .xd i w → l.val = .word x → leaves ((c.setStrand k rest).writeX i w x))) ∧
      lands .iter (.loopStep false false) { rest with taint := false, etag := 0 } ∧
      lands .iter (.loopStep true false) { rest with taint := false, etag := 0, rrb := st.rrb - 1, iter := st.iter + 1 } ∧
      lands .iter (.loopStep true true)
        { rest with taint := false, etag := 0, rrb := st.rrb - 1, lc := st.lc - 1, iter := st.iter + 1 }) ∧
    ∀ g, l.taint = some g →
      let keeps : Prop := st.taint = true ∧ ¬ (st.taintAt.1 = st.beat ∧ l.seq < st.taintAt.2)
      let tainted (st' : Strand) : Strand := { st' with taint := true, etag := g, taintAt := (st.beat, l.seq) }
      ∀ (n : Nat) (x : Word) (y : VReg),
        (keeps → lands (.s n) (.word x) { rest with s := if n = 0 then st.s else st.s.setIfInBounds n x } ∧
          lands (.v n) (.vec y) { rest with v := st.v.setIfInBounds n y }) ∧
        (¬ keeps → lands (.s n) (.word x) (tainted { rest with s := if n = 0 then st.s else st.s.setIfInBounds n x }) ∧
          lands (.v n) (.vec y) (tainted { rest with v := st.v.setIfInBounds n y }))

/-! ### Traps (R64, R72, R103, R107, R126, R133, R154, R157, R166 to R175) -/

/-- R64, R166, R168, R169: a syllable of a reserved encoding, or with a field outside its values, raises ILLEGAL_OP with
the word as TVAL. R65, R66, R71: a bundle of three class S syllables, one whose two syllables have the same destination
and latency, and one without a last syllable among its first eight raise ILLEGAL_BUNDLE, with the position of the later
syllable, or 8, as TVAL. That a framing failure has SLOT 0 and goes before the other rules is the model's reading (log
16). -/
def Obligations.IllFormedTraps : Prop :=
  (∀ (s : State) (m u k : Nat) (i : Instr), s.Opened m u k → (s.strand m u k).tl ≠ 2 → i.isSyllable = true →
    (encode i).getLsbD 31 = true → (i.wellFormed = false ∨ ∃ w, i = .reservedEncoding w) →
    s.Traps m u k i causeIllegalOp (encode i)) ∧
  (∀ (s : State) (m u k : Nat) (d a b : BitVec 6), s.Opened m u k → (s.strand m u k).tl ≠ 2 →
    (s.strand m u k).pc.toNat < 32760 →
    (∃ s₁, exec (.add false d a b) s = .next s₁ ∧
      exec (.sub true d b a) s₁ = .next (s.trapped m u k 1 causeIllegalBundle 1)) ∧
    (∃ s₁ s₂, exec (.nop false) s = .next s₁ ∧ exec (.nop false) s₁ = .next s₂ ∧
      exec (.nop true) s₂ = .next (s.trapped m u k 2 causeIllegalBundle 2))) ∧
  ∀ (s : State) (b : Bundle) (i : Instr), s.cur = some b → i.isSyllable = true → (encode i).getLsbD 31 = false →
    (s.strand b.m b.u b.k).tl ≠ 2 → b.pc = (s.strand b.m b.u b.k).pc → b.k < 4 →
    (8 ≤ b.syls.length + 1 ∨ 32768 ≤ b.pc.toNat + b.syls.length + 1) →
    exec i s = .next (s.trapped b.m b.u b.k 0 causeIllegalBundle 8)

/-- R167, R169: trap and ebrk. R168, R175: a trap at level 2 kills the context: the record of a cell's strand takes status
KILLED, and the strand is idle, with nothing in flight. No byte of memory changes. -/
def Obligations.TrapsEnter : Prop :=
  (∀ (s : State) (m u k : Nat) (n : BitVec 23), s.Ready m u k [] [] → (s.strand m u k).tl ≠ 2 →
    s.Traps m u k (.trap true n) 0x40 (n.setWidth 32) ∧ s.Traps m u k (.ebrk true n) 0x41 (n.setWidth 32)) ∧
  (∀ (s : State) (m u k : Nat) (n : BitVec 23), s.Opened m u k → u < 1024 → (s.strand m u k).tl = 2 →
    (s.strand m u k).mode = .running →
    ∃ t, exec (.trap true n) s = .next t ∧ t.cur = none ∧ t.seq = s.seq ∧ (t.cell m u).mem = (s.cell m u).mem ∧
      (t.strand m u k).mode = .idle ∧ (t.strand m u k).landing = [] ∧ (t.strand m u k).pend = [] ∧
      ((t.cell m u).record (s.strand m u k).entry).status = .killed ∧
      ((t.cell m u).record (s.strand m u k).entry).ending = some .killed)

/-- R157, R172, R290, R292: at trap level 0 the privileged instructions raise PRIV. -/
def Obligations.PrivilegeTraps : Prop :=
  ∀ (s : State) (m u k : Nat) (d a b : BitVec 6) (n : BitVec 11) (o : BitVec 1) (c : BitVec 4) (x : BitVec 5) (t : BitVec 6),
    s.Opened m u k → (s.strand m u k).tl = 0 → (s.strand m u k).pend = [] → n.toNat ≤ 13 →
    let priv (i : Instr) : Prop := s.Traps m u k i 0x05 0
    priv (.mfc true d n) ∧ priv (.mtc true a n) ∧ priv (.rtt true) ∧
      ((s.cell m u).spire = false → t ≠ 0 → x.toNat ≤ 15 → priv (.sset true a o c t) ∧ priv (.rctl true a b x))

/-- R72, R103, R123, R126, R133: on add, por, vadd.f and vmov, a scalar, predicate or vector operand above its
declaration, in each position, a source with another tag, and operands of two clusters trap, with the register's number as
TVAL. Of several operands above their declarations the destination is reported first, then the sources in their order, by the
model's choice (log 16). -/
def Obligations.OperandTraps : Prop :=
  ∀ (s : State) (m u k : Nat) (d a b : BitVec 6) (q : BitVec 3) (w : BitVec 2), (s.strand m u k).tl ≠ 2 →
    let above (max : Nat) (i : Instr) : Prop :=
      (max < d.toNat → s.Traps m u k i 0x06 (d.setWidth 32)) ∧
      (d.toNat ≤ max → max < a.toNat → s.Traps m u k i 0x06 (a.setWidth 32)) ∧
      (d.toNat ≤ max → a.toNat ≤ max → max < b.toNat → s.Traps m u k i 0x06 (b.setWidth 32))
    (s.Opened m u k → (s.cell m u).spire = false →
      above (s.desc m u k).smax (.add true d a b) ∧
      (d.toNat ≤ 7 → a.toNat ≤ 7 → b.toNat ≤ 7 → above (s.desc m u k).qmax (.por true d a b)) ∧
      (clusterOf a.toNat = clusterOf d.toNat → clusterOf b.toNat = clusterOf d.toNat → w.toNat ≤ 1 →
        s.DeclaresQ m u k [q.toNat] → above (s.desc m u k).vmax (.vaddF true d a b q w))) ∧
    (s.ReadyV m u k [d, a, b] d q w [] [] →
      (¬ (s.rv m u k a).Has 2 → s.Traps m u k (.vaddF true d a b q w) 0x04 (a.setWidth 32)) ∧
      ((s.rv m u k a).Has 2 → ¬ (s.rv m u k b).Has 2 → s.Traps m u k (.vaddF true d a b q w) 0x04 (b.setWidth 32))) ∧
    (s.Opened m u k → (s.cell m u).spire = false → clusterOf a.toNat ≠ clusterOf d.toNat → w.toNat ≤ 1 →
      s.Traps m u k (.vmov true d a q w) 0x03 (a.setWidth 32))

/-- R172, R170: rtt above level 0 lands every result in flight, in the order of the due beats, and then returns to the level
below: the bank's RRB and address as they then stand, 2 idle cycles, and the replay entries in flight again, a beat less far where
ADV says that the handler has done a beat's work. A scalar result and one that an mtc has sent to the address of the bank are said
in full. -/
def Obligations.RttReturns : Prop :=
  ∀ (s : State) (m u k : Nat), s.Ready m u k [] [] → (s.strand m u k).tl ≠ 0 →
    let st := s.strand m u k
    let last := st.landing.foldl (fun n l => max n l.due) (st.beat + 1)
    let leave (x : Strand) : Strand :=
      let b := if st.tl = 1 then x.bank1 else x.bank2
      { x with
        bank1 := if st.tl = 1 then { b with replay := [] } else x.bank1
        bank2 := if st.tl = 1 then x.bank2 else { b with replay := [] }
        tl := st.tl - 1
        rrb := b.rrb
        pc := b.pc
        idleUntil := s.cycle + 3
        landing := b.replay.map fun l => { l with due := st.beat + 1 + l.due - (if b.adv then 1 else 0) } }
    (s.Runs m u k (.rtt true) fun c => (c.landUpTo k last).onStrand k leave) ∧
    (st.landing = [] → s.Runs m u k (.rtt true) fun c => c.onStrand k leave) ∧
    ∀ (l : Landing) (x : Word), st.landing = [l] → l.val = .word x → l.taint = none → l.cvtSat = 0 → l.nanScale = 0 →
      let lands (f : Strand → Strand) : Prop := s.Runs m u k (.rtt true) fun c => (c.onStrand k fun y =>
        { f y with landing := [], fpf := y.fpf ||| l.flags }).onStrand k leave
      (∀ n, n ≠ 0 → l.reg = .s n → lands fun y => { y with s := y.s.setIfInBounds n x }) ∧
      (l.reg = .pr 2 → lands fun y => { y with bank1 := { y.bank1 with pc := x.setWidth 15 } }) ∧
      (l.reg = .pr 7 → lands fun y => { y with bank2 := { y.bank2 with pc := x.setWidth 15 } })

/-! ### Class S (R104 to R113, R153 to R160) -/

/-- R105: the register-register operations. R108: the six conditions of cmp, and ILLEGAL_OP for a condition code above 5. -/
def Obligations.ScalarTwoSource : Prop :=
  (∀ (s : State) (m u k : Nat) (d a b : BitVec 6), s.Ready m u k [a, b] [d] →
    let x := s.rs m u k a
    let y := s.rs m u k b
    let n := y.toNat % 32
    let gives (i : Instr) (z : Word) : Prop := s.GivesS m u k i d z 1
    gives (.add true d a b) (x + y) ∧ gives (.sub true d a b) (x - y) ∧ gives (.and true d a b) (x &&& y) ∧
      gives (.or true d a b) (x ||| y) ∧ gives (.xor true d a b) (x ^^^ y) ∧ gives (.andn true d a b) (x &&& ~~~y) ∧
      s.GivesS m u k (.mul true d a b) d (x * y) 3 ∧
      gives (.shl true d a b) (x <<< n) ∧ gives (.shr true d a b) (x >>> n) ∧
      gives (.sra true d a b) (x.sshiftRight n) ∧ gives (.rot true d a b) (x.rotateLeft n) ∧
      gives (.min true d a b) (if x.toInt ≤ y.toInt then x else y) ∧
      gives (.max true d a b) (if x.toInt ≤ y.toInt then y else x) ∧
      gives (.minU true d a b) (if x.toNat ≤ y.toNat then x else y) ∧
      gives (.maxU true d a b) (if x.toNat ≤ y.toNat then y else x)) ∧
  (∀ (s : State) (m u k : Nat) (d a b : BitVec 6), s.Ready m u k [a, b] [d] →
    let x := s.rs m u k a
    let y := s.rs m u k b
    let gives (c : BitVec 5) (p : Prop) [Decidable p] : Prop :=
      s.GivesS m u k (.cmp true d a b c) d (if p then 1 else 0) 1
    gives 0 (x = y) ∧ gives 1 (x ≠ y) ∧ gives 2 (x.toInt < y.toInt) ∧ gives 3 (x.toInt ≤ y.toInt) ∧
      gives 4 (x.toNat < y.toNat) ∧ gives 5 (x.toNat ≤ y.toNat) ∧
      ∀ c : BitVec 5, 6 ≤ c.toNat → (s.strand m u k).tl ≠ 2 →
        s.Traps m u k (.cmp true d a b c) 0x01 (encode (.cmp true d a b c)))

/-- R106, R107: the high half of a product, quotients and remainders; a zero divisor raises INT_DIVZ with the dividend as TVAL, and
the codes of mulh other than 0 and 1 raise ILLEGAL_OP. -/
def Obligations.MultiplyDivide : Prop :=
  ∀ (s : State) (m u k : Nat) (d a b : BitVec 6), s.Ready m u k [a, b] [d] →
    let x := s.rs m u k a
    let y := s.rs m u k b
    s.GivesS m u k (.mulh true d a b) d (BitVec.ofInt 32 (x.toInt * y.toInt / 2 ^ 32)) 3 ∧
      s.GivesS m u k (.mulhU true d a b) d (BitVec.ofNat 32 (x.toNat * y.toNat / 2 ^ 32)) 3 ∧
      (y ≠ 0 →
        s.GivesS m u k (.div true d a b) d (BitVec.ofInt 32 (x.toInt.tdiv y.toInt)) 12 ∧
        s.GivesS m u k (.rem true d a b) d (BitVec.ofInt 32 (x.toInt.tmod y.toInt)) 12 ∧
        s.GivesS m u k (.divU true d a b) d (BitVec.ofNat 32 (x.toNat / y.toNat)) 12 ∧
        s.GivesS m u k (.remU true d a b) d (BitVec.ofNat 32 (x.toNat % y.toNat)) 12) ∧
      ((s.strand m u k).tl ≠ 2 →
        (y = 0 →
          s.Traps m u k (.div true d a b) 0x10 x ∧ s.Traps m u k (.divU true d a b) 0x10 x ∧
          s.Traps m u k (.rem true d a b) 0x10 x ∧ s.Traps m u k (.remU true d a b) 0x10 x) ∧
        ∀ c : BitVec 5, 2 ≤ c.toNat →
          let w : Word := 1#1 ++ 0x0C#8 ++ d ++ a ++ b ++ c
          decode w = .reservedEncoding w ∧ s.Traps m u k (.reservedEncoding w) 0x01 w)

/-- R109, R110: moves, bit counts, fields, and nop (R74). -/
def Obligations.MovesAndBitFields : Prop :=
  ∀ (s : State) (m u k : Nat) (d a b : BitVec 6) (p : BitVec 5),
    let x := s.rs m u k a
    let y := s.rs m u k b
    let z := s.rs m u k d
    let w := min (y.toNat % 64) 32
    (s.Ready m u k [] [] → s.Sends m u k (.nop true) []) ∧
      (s.Ready m u k [a] [d] →
        s.GivesS m u k (.clz true d a) d (BitVec.ofNat 32 (if x = 0 then 32 else 31 - Nat.log2 x.toNat)) 1 ∧
        s.GivesS m u k (.popc true d a) d (BitVec.ofNat 32 ((List.range 32).countP fun i => x.getLsbD i)) 1) ∧
      (s.Ready m u k [a, b] [d] →
        s.GivesS m u k (.bext true d a b p) d (BitVec.ofNat 32 (x.toNat / 2 ^ p.toNat % 2 ^ w)) 1) ∧
      (s.Ready m u k [d, a, b] [d] →
        s.GivesS m u k (.cmov true d a b) d (if y = 0 then z else x) 1 ∧
        ∃ r : Word, s.GivesS m u k (.bins true d a b p) d r 1 ∧
          ∀ i < 32, r.getLsbD i =
            if p.toNat ≤ i ∧ i < p.toNat + w then x.getLsbD (i - p.toNat) else z.getLsbD i)

/-- R111, R112: the immediate forms, and li and lih. -/
def Obligations.ScalarImmediates : Prop :=
  ∀ (s : State) (m u k : Nat) (d a : BitVec 6) (i : BitVec 11) (j : BitVec 17),
    let x := s.rs m u k a
    let y : Word := i.signExtend 32
    let gives (i : Instr) (z : Word) : Prop := s.GivesS m u k i d z 1
    (s.Ready m u k [a] [d] →
      gives (.addi true d a i) (x + y) ∧ gives (.andi true d a i) (x &&& y) ∧ gives (.ori true d a i) (x ||| y) ∧
      gives (.xori true d a i) (x ^^^ y) ∧
      (i.toNat ≤ 31 → gives (.shli true d a i) (x <<< i.toNat) ∧ gives (.shri true d a i) (x >>> i.toNat) ∧
        gives (.srai true d a i) (x.sshiftRight i.toNat)) ∧
      s.GivesS m u k (.muli true d a i) d (BitVec.ofInt 32 (x.toInt * i.toInt)) 3 ∧
      gives (.cmpeqi true d a i) (if x = y then 1 else 0) ∧
      gives (.cmplti true d a i) (if x.toInt < i.toInt then 1 else 0) ∧
      gives (.cmpltui true d a i) (if x.toNat < y.toNat then 1 else 0) ∧
      (32 ≤ i.toNat → (s.strand m u k).tl ≠ 2 →
        s.Traps m u k (.shli true d a i) 0x01 (encode (.shli true d a i)) ∧
        s.Traps m u k (.shri true d a i) 0x01 (encode (.shri true d a i)) ∧
        s.Traps m u k (.srai true d a i) 0x01 (encode (.srai true d a i)))) ∧
    (s.Ready m u k [] [d] → gives (.li true d j) (j.signExtend 32)) ∧
    (s.Ready m u k [d] [d] → gives (.lih true d j) (j ++ (s.rs m u k d).setWidth 15))

/-- R113: the predicate operations; a predicate name reads its slot, and q0 all ones (R94, R95). -/
def Obligations.PredicateResults : Prop :=
  ∀ (s : State) (m u k : Nat) (d a b : BitVec 6) (c : BitVec 6), d.toNat ≤ 7 → a.toNat ≤ 7 → b.toNat ≤ 7 →
    let x := s.rq m u k a.toNat
    let y := s.rq m u k b.toNat
    let gives (i : Instr) (z : Word) : Prop := s.Gives m u k i (.q (s.pq m u k d.toNat)) (.word z) 1
    (s.Ready m u k [] [] → s.DeclaresQ m u k [d.toNat, a.toNat, b.toNat] →
      gives (.pand true d a b) (x &&& y) ∧ gives (.por true d a b) (x ||| y) ∧ gives (.pxor true d a b) (x ^^^ y) ∧
        gives (.pandn true d a b) (x &&& ~~~y)) ∧
    (s.Ready m u k [c] [] → s.DeclaresQ m u k [d.toNat] → gives (.pfs true d c) (s.rs m u k c)) ∧
    (s.Ready m u k [] [c] → s.DeclaresQ m u k [a.toNat] →
      s.GivesS m u k (.pts true c a) c x 1 ∧
      s.GivesS m u k (.pcnt true c a) c (BitVec.ofNat 32 ((List.range 32).countP fun i => x.getLsbD i)) 1 ∧
      ∃ n ≤ 32, s.GivesS m u k (.pfirst true c a) c (BitVec.ofNat 32 n) 1 ∧
        (∀ i < n, x.getLsbD i = false) ∧ (n < 32 → x.getLsbD n = true))

/-- R153, R155, R157: mfs reads the numbered register as it stands at issue. PRIO and WGT come from the record; on a Spire
core, which runs under no record, their values are the model's choice (log entry 7). R154, R156, R157: mfc above TL 0 reads
the numbered privileged register of its strand, or of its cell. R160, R403: the identity words, and rdcyc. -/
def Obligations.SpecialReads : Prop :=
  (∀ (s : State) (m u k : Nat) (d : BitVec 6), s.Ready m u k [] [d] →
    let st := s.strand m u k
    let r := (s.cell m u).record st.entry
    let gives (n : BitVec 11) (x : Word) : Prop := s.GivesS m u k (.mfs true d n) d x 2
    gives 0 st.lc ∧ gives 1 (st.rrb.setWidth 32) ∧ gives 2 (st.fpc.setWidth 32) ∧ gives 3 (st.fpf.setWidth 32) ∧
      gives 4 st.ltok ∧ gives 5 st.iter ∧ gives 6 (st.recid.setWidth 32) ∧
      ((s.cell m u).spire = false →
        gives 7 (BitVec.ofNat 32 (r.desc.ceil * 2 ^ 16 + r.prioDecl * 2 ^ 8 + r.prioEff)) ∧
        gives 8 (BitVec.ofNat 32 (r.desc.weight * 2 ^ 16 + s.weightEff m u k))) ∧
      gives 9 (st.tl.setWidth 32) ∧
      gives 10 (BitVec.ofNat 32 (st.etag.toNat * 2 ^ 16 + k * 2 ^ 6 + (s.cell m u).spire.toNat * 2 ^ 5 +
        st.preq.toNat * 2 ^ 4 + st.sdctrap.toNat * 2 + st.taint.toNat)) ∧
      gives 11 st.spill) ∧
  (∀ (s : State) (m u k : Nat) (d : BitVec 6), s.Ready m u k [] [d] → (s.strand m u k).tl ≠ 0 →
    let st := s.strand m u k
    let gives (n : BitVec 11) (x : Word) : Prop := s.GivesS m u k (.mfc true d n) d x 2
    let bank (n : BitVec 11) (b : TrapBank) : Prop :=
      gives n (b.cause.setWidth 32) ∧ gives (n + 1) (b.pc.setWidth 32) ∧ gives (n + 2) b.val ∧
      gives (n + 3) (BitVec.ofNat 32 (b.replay.length * 2 ^ 8 + b.adv.toNat * 2 ^ 7 + b.taint.toNat * 2 ^ 6 +
        b.slot.toNat * 2 ^ 3 + b.rrb.toNat)) ∧ gives (n + 4) b.save
    gives 0 (BitVec.ofNat 32 (st.tvec.toNat * 2 ^ 6)) ∧ bank 1 st.bank1 ∧ bank 6 st.bank2 ∧
      gives 11 (BitVec.ofNat 32 (st.xword.toNat * 2 ^ 8 + st.xidx.toNat)) ∧
      gives 12 (let e := (s.cell m u).xentry st.xidx.toNat
        if st.xword = 0 then e.flags else if st.xword = 1 then e.tag else e.frame) ∧
      gives 13 (s.cell m u).tokexp) ∧
  (∀ (s : State) (m u k : Nat) (d : BitVec 6), s.Ready m u k [] [d] →
    let gives (n : BitVec 11) (x : Nat) : Prop := s.GivesS m u k (.rdid true d n) d (BitVec.ofNat 32 x) 1
    gives 1 (s.chip m) ∧ gives 4 k ∧ gives 5 0x00010000 ∧
      (u < 1024 → gives 0 (s.chip m * 2 ^ 22 + u / 256 * 2 ^ 20 + u % 256 * 2 ^ 12 + k * 2 ^ 10) ∧ gives 2 (u / 256) ∧
        gives 3 (u % 256)) ∧
      (1024 ≤ u → u < 1032 →
        gives 0 (s.chip m * 2 ^ 22 + (0x80 + (u - 1024)) * 2 ^ 12) ∧ gives 2 4 ∧ gives 3 (u - 1024)) ∧
      s.GivesS m u k (.rdcyc true d) d ((s.cyc m).setWidth 32) 1 ∧
      ∀ n : BitVec 11, 6 ≤ n.toNat → (s.strand m u k).tl ≠ 2 →
        s.Traps m u k (.rdid true d n) 0x01 (encode (.rdid true d n)))

/-- R153, R155, R157, R158: mts to a register with a writable field sends the word off, to reach it at the next beat, for
every word whose reserved bits are 0. R154, R156, R157: mtc above TL 0 sends the word off, to reach the register at the next
beat: for XDATA, the word of the translation-set entry that XIDX selects at issue, unless R355 refuses the write. -/
def Obligations.SpecialWrites : Prop :=
  (∀ (s : State) (m u k : Nat) (a : BitVec 6) (n : BitVec 11), s.Ready m u k [a] [] →
    let x := s.rs m u k a
    ((n = 0 ∨ n = 4 ∨ n = 1 ∧ x.toNat < 8 ∨ n = 2 ∧ x.toNat < 16 ∨ n = 3 ∧ x.toNat < 32 ∨
        n = 10 ∧ x &&& 0xFF00FF0C = 0) →
      s.Gives m u k (.mts true a n) (.sp n.toNat) (.word x) 1)) ∧
  (∀ (s : State) (m u k : Nat) (a : BitVec 6) (n : BitVec 11), s.Ready m u k [a] [] → (s.strand m u k).tl ≠ 0 →
    let x := s.rs m u k a
    let st := s.strand m u k
    (n = 0 ∧ x &&& 0xFFFF803F = 0 ∨ (n = 1 ∨ n = 6) ∧ x.toNat < 2 ^ 8 ∨ (n = 2 ∨ n = 7) ∧ x.toNat < 2 ^ 15 ∨
        (n = 3 ∨ n = 5 ∨ n = 8 ∨ n = 10) ∨ (n = 4 ∨ n = 9) ∧ x.toNat < 2 ^ 14 ∨ n = 11 ∧ x.toNat < 3 * 2 ^ 8 ∨
        n = 13 ∧ 0x10000 ≤ x.toNat →
      s.Gives m u k (.mtc true a n) (.pr n.toNat) (.word x) 1) ∧
    (((s.cell m u).xentry st.xidx.toNat).refuses (s.chip m) u st.xword.toNat x (!(s.cell m u).spire) = false →
      s.Gives m u k (.mtc true a 12) (.xd st.xidx.toNat st.xword.toNat) (.word x) 1))

/-! ### Class M (R89, R114 to R116, R184 to R196) -/

/-- R100, R184, R186: the order of the checks of a plain access, for an access through a page handle or a window handle
of a cell: each check that fails gives its trap if none before it fails. That the permit is tried before the regions in
the BOUNDS step is the model's reading (log 17). R182, R184: the region check itself, whatever the record declares;
R202: when the detector of a SHARED region sees a race. -/
def Obligations.AccessChecks : Prop :=
  (∀ (s : State) (m u k hn n : Nat) (off : Int) (kind : Access),
    (s.cell m u).spire = false →
    let h := s.rh m u k hn
    let ea := s.ea m u k hn off n kind
    let limit : Int := if h.win then h.w2.toNat else 65536
    let c := if h.win then h.w1.toNat + off.toNat else h.w3.toNat * 65536 % 2 ^ 23 + off.toNat
    let bound := !(s.strand m u k).sibling
    let at' : Word := BitVec.ofInt 32 off
    (h.valid = false → ea = .trap (trapReq (if h.rev then causeHandleRevoked else causeHandleInvalid) (BitVec.ofNat 32 hn))) ∧
    (h.valid = true → h.aper ≠ 0 → ea = .trap (trapReq causeNonlocal (BitVec.ofNat 32 hn))) ∧
    (h.valid = true → h.aper = 0 → (off < 0 ∨ limit < off + n ∨ kind ≠ .store ∧ h.permR = false) →
      ea = .trap (trapReq causeBounds at')) ∧
    (h.valid = true → h.aper = 0 → 0 ≤ off → off + n ≤ limit → (kind = .store ∨ h.permR = true) →
      (∀ cause, regionCheck (s.desc m u k) bound kind c n = some cause → ea = .trap (trapReq cause at')) ∧
      (regionCheck (s.desc m u k) bound kind c n = none →
        (off.toNat % n ≠ 0 → ea = .trap (trapReq causeMisalign at')) ∧
        (off.toNat % n = 0 →
          (kind ≠ .load ∧ h.permW = false ∨ kind = .atomic ∧ h.permLa = false →
            ea = .trap (trapReq causePermitW at')) ∧
          ((kind = .load ∨ h.permW = true) → (kind = .atomic → h.permLa = true) →
            (kind ≠ .load → h.disc = true → ea = .trap (trapReq causeDiscardWrite at')) ∧
            ((kind = .load ∨ h.disc = false) →
              (∀ r, (s.cell m u).raceAt c = some r →
                r.conflict ((s.strand m u k).recid.toNat, k) (s.strand m u k).lacq = true →
                ea = .trap (trapReq causeMmRace at')) ∧
              ((∀ r, (s.cell m u).raceAt c = some r →
                  r.conflict ((s.strand m u k).recid.toNat, k) (s.strand m u k).lacq = false) →
                ea = .ok c h.disc (h.mig && kind != .load)))))))) ∧
  (∀ (d : Desc) (bound : Bool) (kind : Access) (c n : Nat),
    let holds (r : Region) : Prop := r.off ≤ c ∧ c + n ≤ r.off + r.size
    let admits (r : Region) : Prop :=
      match r.cls with
      | .priv => bound = true
      | .shared => True
      | .inbox => kind ≠ .store
      | .weight => kind = .load
    let carve := d.wbase + d.spoff
    let inCarve : Prop := carve ≤ c ∧ c + n ≤ carve + d.spill
    let apart (a size : Nat) : Prop := n = 0 ∨ size = 0 ∨ c + n ≤ a ∨ a + size ≤ c
    (∀ pre r post, d.regions = pre ++ r :: post → holds r → (∀ x ∈ pre, ¬ holds x) →
      (admits r → regionCheck d bound kind c n = none) ∧ (¬ admits r → regionCheck d bound kind c n = some causeBounds)) ∧
    ((∀ r ∈ d.regions, ¬ holds r) →
      (inCarve → regionCheck d bound kind c n = if bound then none else some causeBounds) ∧
      (¬ inCarve → (∀ r ∈ d.regions, apart r.off r.size) → apart carve d.spill →
        regionCheck d bound kind c n = some causeDecl) ∧
      (¬ inCarve → ((∃ r ∈ d.regions, ¬ apart r.off r.size) ∨ ¬ apart carve d.spill) →
        regionCheck d bound kind c n = some causeBounds))) ∧
  ∀ (r : Race) (ctx : Nat × Nat) (lacq : Nat),
    r.conflict ctx lacq = true ↔ ∃ w, r.wr = some w ∧ w ≠ ctx ∧ ∀ released, r.wrel = some released → lacq ≤ released

/-- R186, R188, R119: a scalar load lands the bytes at its address, extended, after 3 beats; with a taint where the code of
its word is uncorrectable. R186: a load of a discarded page lands zeros, without a taint, and counts in DISC_READ. R187,
R188, R202: a scalar store writes the low bytes of its register, the lowest first, and no other byte. -/
def Obligations.ScalarLoadsAndStores : Prop :=
  (∀ (s : State) (m u k : Nat) (d : BitVec 6) (h : BitVec 4) (a : BitVec 6) (i : BitVec 7) (c : Nat) (mig : Bool),
    s.Ready m u k [a] [d] → s.DeclaresH m u k [h.toNat] →
    let mem := (s.cell m u).mem
    let off (n : Nat) : Int := (s.rs m u k a + i.signExtend 32 * BitVec.ofNat 32 n).toInt
    let half : BitVec 16 := memByte mem (c + 1) ++ memByte mem c
    let word : Word := memByte mem (c + 3) ++ memByte mem (c + 2) ++ memByte mem (c + 1) ++ memByte mem c
    let sends (j : Instr) (n : Nat) (x : Word) : Prop :=
      s.ea m u k h.toNat (off n) n .load = .ok c false mig → s.Reaches m u .load c n →
      s.Sends m u k j [{ s.result m u k (.s (s.ps m u k d)) (.word x) 3 with taint := s.taintOf m u c n }]
    sends (.ldb true d h a i) 1 ((memByte mem c).signExtend 32) ∧
      sends (.ldbu true d h a i) 1 ((memByte mem c).setWidth 32) ∧
      sends (.ldh true d h a i) 2 (half.signExtend 32) ∧ sends (.ldhu true d h a i) 2 (half.setWidth 32) ∧
      sends (.ldw true d h a i) 4 word) ∧
  (∀ (s : State) (m u k : Nat) (d : BitVec 6) (h : BitVec 4) (a : BitVec 6) (i : BitVec 7) (c : Nat) (mig : Bool),
    s.Ready m u k [a] [d] → s.DeclaresH m u k [h.toNat] →
    let off (n : Nat) : Int := (s.rs m u k a + i.signExtend 32 * BitVec.ofNat 32 n).toInt
    let cell := s.cell m u
    let zero (j : Instr) (n : Nat) : Prop :=
      s.ea m u k h.toNat (off n) n .load = .ok c true mig → s.Reaches m u .load c n →
      s.Leaves m u k j (cell.count fun n => { n with discRead := countUp n.discRead })
        [s.result m u k (.s (s.ps m u k d)) (.word 0) 3]
    zero (.ldb true d h a i) 1 ∧ zero (.ldbu true d h a i) 1 ∧ zero (.ldh true d h a i) 2 ∧
      zero (.ldhu true d h a i) 2 ∧ zero (.ldw true d h a i) 4) ∧
  (∀ (s : State) (m u k : Nat) (d : BitVec 6) (h : BitVec 4) (a : BitVec 6) (i : BitVec 7) (c : Nat),
    s.Ready m u k [d, a] [] → s.DeclaresH m u k [h.toNat] →
    let off (n : Nat) : Int := (s.rs m u k a + i.signExtend 32 * BitVec.ofNat 32 n).toInt
    let x := s.rs m u k d
    let b (j : Nat) : Byte := x.extractLsb' (8 * j) 8
    let stores (j : Instr) (n : Nat) (bytes : List Byte) : Prop :=
      s.ea m u k h.toNat (off n) n .store = .ok c false false → s.Reaches m u .store c n → s.Stores m u k j c bytes
    stores (.stb true d h a i) 1 [b 0] ∧ stores (.sth true d h a i) 2 [b 0, b 1] ∧
      stores (.stw true d h a i) 4 [b 0, b 1, b 2, b 3])

/-- R190 to R193: the vector loads: lane j of the result is the word at the lane's address, and the tag is the
instruction's. With tag SCL this is stated for words below 2^20. R190 to R193: the vector stores. vst writes the 128 bytes
from its address; the strided and scattered forms write one word per lane, and where two lanes write one byte, it keeps the
value of the higher lane. -/
def Obligations.VectorLoadsAndStores : Prop :=
  (∀ (s : State) (m u k : Nat) (d : BitVec 6) (h : BitVec 4) (a : BitVec 6) (tag : BitVec 3) (i : BitVec 4)
    (c : Nat → Nat) (mig : Nat → Bool),
    s.DeclaresH m u k [h.toNat] → s.DeclaresV m u k [d] → (s.cell m u).spire = false →
    let mem := (s.cell m u).mem
    let base : Int := (s.rs m u k a + i.signExtend 32 * 128).toInt
    let stride : Int := (s.rs m u k (a + 1)).toInt
    let lanes : Vector Word 32 := Vector.ofFn fun j : Fin 32 => memWord mem (c j)
    let fits : Prop := tag = 7 → ∀ j < 32, (memWord mem (c j)).toNat < 2 ^ 20
    let clean : Prop := ∀ j < 32, (s.cell m u).corrupt (c j) 4 = false
    let free (n : Nat) : Prop := ∀ j < 32, (s.cell m u).held .load (c j) n = false
    let gives (j : Instr) (lat : Nat) : Prop := s.Gives m u k j (.v (s.pv m u k d)) (.vec ⟨lanes, tag⟩) lat
    let each (f : Nat → Int) : Prop := ∀ j < 32, s.ea m u k h.toNat (f j) 4 .load = .ok (c j) false (mig j)
    fits → clean → (s.cell m u).flips = [] →
      (s.Ready m u k [a] [] → s.ea m u k h.toNat base 128 .load = .ok (c 0) false (mig 0) → (∀ j, c j = c 0 + 4 * j) →
        (s.cell m u).held .load (c 0) 128 = false → gives (.vld true d h a tag i) 4) ∧
      (s.Ready m u k [a] [] → s.ea m u k h.toNat base 4 .load = .ok (c 0) false (mig 0) → (∀ j, c j = c 0) →
        free 4 → gives (.vldb true d h a tag i) 4) ∧
      (s.Ready m u k [a, a + 1] [] → a.toNat % 2 = 0 →
        each (fun j => (BitVec.ofInt 32 (base + j * stride)).toInt) → free 4 → gives (.vlds true d h a tag i) 4) ∧
      (s.Ready m u k [] [] → s.DeclaresV m u k [a] → clusterOf a.toNat = clusterOf d.toNat →
        let x := s.rv m u k a
        (x.tag = 0 ∨ x.tag = 1) → each (fun j => (x.lanes.getD j 0 + i.signExtend 32 * 128).toInt) → free 4 →
        gives (.vgth true d h a tag i) 6)) ∧
  (∀ (s : State) (m u k : Nat) (d : BitVec 6) (h : BitVec 4) (a : BitVec 6) (tag : BitVec 3) (i : BitVec 4) (c : Nat → Nat),
    s.DeclaresH m u k [h.toNat] → s.DeclaresV m u k [d] → (s.cell m u).spire = false →
    let x := s.rv m u k d
    let base : Int := (s.rs m u k a + i.signExtend 32 * 128).toInt
    let stride : Int := (s.rs m u k (a + 1)).toInt
    let each (f : Nat → Int) : Prop :=
      ∀ j < 32, s.ea m u k h.toNat (f j) 4 .store = .ok (c j) false false ∧ (s.cell m u).held .store (c j) 4 = false
    let lane (t : State) : Prop :=
      Elsewhere s t m u k ∧
      t.cell m u = { s.cell m u with
        strands := (t.cell m u).strands
        waits := ((s.cell m u).endWait (.strand k)).waits
        mem := (t.cell m u).mem
        bad := (t.cell m u).bad
        flips := (t.cell m u).flips
        races := (t.cell m u).races } ∧
      t.strand m u k = { s.strand m u k with
        pc := (s.strand m u k).pc + 1, beat := (s.strand m u k).beat + 1, waiting := .none } ∧
      (∀ b, (∀ j < 32, ¬ (c j ≤ b ∧ b < c j + 4)) → memByte (t.cell m u).mem b = memByte (s.cell m u).mem b) ∧
      ∀ j < 32, ∀ b, c j ≤ b → b < c j + 4 → (∀ l, j < l → l < 32 → ¬ (c l ≤ b ∧ b < c l + 4)) →
        memByte (t.cell m u).mem b = (x.lanes.getD j 0).extractLsb' (8 * (b - c j)) 8
    (tag = 0 ∨ x.tag = 0 ∨ x.tag = tag) →
      (s.Ready m u k [a] [] → s.ea m u k h.toNat base 128 .store = .ok (c 0) false false →
        (s.cell m u).held .store (c 0) 128 = false →
        ∃ bytes, bytes.length = 128 ∧ (∀ b < 128, bytes.getD b 0 = (x.lanes.getD (b / 4) 0).extractLsb' (8 * (b % 4)) 8) ∧
          s.Stores m u k (.vst true d h a tag i) (c 0) bytes) ∧
      (s.Ready m u k [a, a + 1] [] → a.toNat % 2 = 0 →
        each (fun j => (BitVec.ofInt 32 (base + j * stride)).toInt) →
        ∃ t, exec (.vsts true d h a tag i) s = .next t ∧ lane t) ∧
      (s.Ready m u k [] [] → s.DeclaresV m u k [a] → clusterOf a.toNat = clusterOf d.toNat →
        let y := s.rv m u k a
        (y.tag = 0 ∨ y.tag = 1) → each (fun j => (y.lanes.getD j 0 + i.signExtend 32 * 128).toInt) →
        ∃ t, exec (.vsct true d h a tag i) s = .next t ∧ lane t))

/-- R194, R195: a local atomic lands the old word after 5 beats and writes the new one at its address, in one step. -/
def Obligations.LocalAtomics : Prop :=
  ∀ (s : State) (m u k : Nat) (d : BitVec 6) (h : BitVec 4) (a b : BitVec 6) (c : Nat),
    s.Ready m u k [a, b] [d] → s.DeclaresH m u k [h.toNat] →
    s.ea m u k h.toNat (s.rs m u k a).toInt 4 .atomic = .ok c false false → s.Reaches m u .atomic c 4 →
    let old := memWord (s.cell m u).mem c
    let y := s.rs m u k b
    let z := s.rs m u k d
    let result := { s.result m u k (.s (s.ps m u k d)) (.word old) 5 with taint := s.taintOf m u c 4 }
    let writes (i : Instr) (x : Word) : Prop :=
      s.Leaves m u k i ((s.cell m u).storeBytes c (leBytes 4 x.toNat)) [result]
    writes (.amoadd true d h a b) (old + y) ∧ writes (.amoand true d h a b) (old &&& y) ∧
      writes (.amoor true d h a b) (old ||| y) ∧ writes (.amoxor true d h a b) (old ^^^ y) ∧
      writes (.amomin true d h a b) (if old.toInt ≤ y.toInt then old else y) ∧
      writes (.amomax true d h a b) (if old.toInt ≤ y.toInt then y else old) ∧
      writes (.amoswp true d h a b) y ∧ writes (.amofadd true d h a b) (fpAddRNE old y) ∧
      (s.Ready m u k [a, b, d] [d] →
        (old = z → writes (.amocas true d h a b) y) ∧
        (old ≠ z → s.Sends m u k (.amocas true d h a b) [result]))

/-- R114 to R116: xlat lands a page handle made of the lowest entry that is valid and has the page's tag; hinv lands its
handle with V and REV clear; hchk lands the handle's first word. R101: a write of a translation-set entry revokes every
handle that was made from it, in every strand, and leaves the other handles. -/
def Obligations.HandleInstructions : Prop :=
  (∀ (s : State) (m u k : Nat) (d a b : BitVec 6) (j : Nat) (x : XEntry),
    let hi := s.rs m u k a
    let lo := s.rs m u k b
    let page := hi.toNat % 2 ^ 16 * 2 ^ 16 + lo.toNat / 2 ^ 16
    let old := s.rh m u k d.toNat
    (s.Ready m u k [a, b] [] → d.toNat ≤ 15 → s.DeclaresH m u k [d.toNat] → (j, x) ∈ (s.cell m u).xset →
      x.flags.getLsbD 31 = true → x.tag.toNat = page →
      (∀ p ∈ (s.cell m u).xset.takeWhile (fun p => p.1 != j), p.2.flags.getLsbD 31 = false ∨ p.2.tag.toNat ≠ page) →
      (∀ p ∈ (s.cell m u).xset, p.1 = j → p.2 = x) →
      s.Gives m u k (.xlat true d a b) (.h d.toNat)
        (.handle ⟨0x80000000 ||| (x.flags &&& 0x1FE00000) ||| BitVec.ofNat 32 j, hi &&& 0xFFFF, lo &&& 0xFFFF0000, x.frame⟩) 6) ∧
    (s.Ready m u k [] [] → d.toNat ≤ 15 → s.DeclaresH m u k [d.toNat] →
      s.Gives m u k (.hinv true d) (.h d.toNat) (.handle { old with w0 := old.w0 &&& 0x3FFFFFFF }) 1) ∧
    (s.Ready m u k [] [d] → a.toNat ≤ 15 → s.DeclaresH m u k [a.toNat] →
      s.GivesS m u k (.hchk true d a) d (s.rh m u k a.toNat).w0 1)) ∧
  ∀ (c : Cell) (i w : Nat) (x : Word) (k : Nat),
    let t := c.writeX i w x
    t.xentry i = (c.xentry i).write w x ∧ (∀ j, j ≠ i → t.xentry j = c.xentry j) ∧
    (t.strand k).h = (c.strand k).h.map fun h =>
      if h.w0.getLsbD 31 = true ∧ h.w0.getLsbD 29 = false ∧ h.w0.toNat % 256 = i then
        { h with w0 := (h.w0 &&& 0x7FFFFFFF) ||| 0x40000000 }
      else h

/-- R196: a fence whose kind and scope leave nothing to wait for issues: a release gives the detectors of the context its
cycle, an acquire gives the strand its cycle, and nothing else changes. Which operations die and chain scope cover, and that
a waiting error traps before them, is the model's reading (log 20). -/
def Obligations.FenceCompletes : Prop :=
  ∀ (s : State) (m u k : Nat) (kind : BitVec 2) (scope : BitVec 3),
    s.Ready m u k [] [] → kind.toNat ≤ 2 → scope.toNat ≤ 4 →
    let v := s.sees m u k (.nop true)
    (kind ≠ 1 → v.readsOpen scope.toNat = false) → (kind ≠ 0 → v.writesOpen scope.toNat = false) →
    (scope = 4 → v.tokensOpen = false) → (s.strand m u k).errs = [] →
    ∃ t, exec (.fence true kind scope) s = .next t ∧ Elsewhere { s with seq := s.seq + 1 } t m u k ∧
      t.cell m u = { s.cell m u with
        strands := (t.cell m u).strands
        waits := ((s.cell m u).endWait (.strand k)).waits
        races := if kind ≠ 0 ∧ scope ≠ 0 then (s.cell m u).races.map fun r =>
            if r.wr = some ((s.strand m u k).recid.toNat, k) ∧ r.wrel = none then { r with wrel := some s.cycle } else r
          else (s.cell m u).races } ∧
      t.strand m u k = { s.strand m u k with
        pc := (s.strand m u k).pc + 1
        beat := (s.strand m u k).beat + 1
        waiting := .none
        lacq := if kind ≠ 1 ∧ scope ≠ 0 then s.cycle else (s.strand m u k).lacq }

/-! ### Class V (R120 to R150) -/

/-- R127, R131, R137: the integer lanes, and the bitwise forms, whose tag is the join of their operands'. -/
def Obligations.VectorIntegerLanes : Prop :=
  ∀ (s : State) (m u k : Nat) (d a b : BitVec 6) (q : BitVec 3) (w : BitVec 2) (tag : BitVec 3),
    s.ReadyV m u k [d, a, b] d q w [] [] →
    let x := s.rv m u k a
    let y := s.rv m u k b
    let gives (i : Instr) (tag : BitVec 3) (f : Word → Word → Word) : Prop :=
      s.GivesV m u k i d q w tag 2 fun j => ⟨f (x.lanes.getD j 0) (y.lanes.getD j 0), 0, 0, 0⟩
    (x.Has 1 → y.Has 1 → s.Merges m u k d q w 1 →
      gives (.vaddI true d a b q w) 1 (fun x y => x + y) ∧ gives (.vsubI true d a b q w) 1 (fun x y => x - y) ∧
      gives (.vmulI true d a b q w) 1 (fun x y => x * y) ∧
      gives (.vminI true d a b q w) 1 (fun x y => if x.toInt ≤ y.toInt then x else y) ∧
      gives (.vmaxI true d a b q w) 1 (fun x y => if x.toInt ≤ y.toInt then y else x) ∧
      gives (.vshl true d a b q w) 1 (fun x y => x <<< (y.toNat % 32)) ∧
      gives (.vshr true d a b q w) 1 (fun x y => x >>> (y.toNat % 32)) ∧
      gives (.vsra true d a b q w) 1 (fun x y => x.sshiftRight (y.toNat % 32))) ∧
    ((x.tag = 0 ∧ y.tag = tag ∨ x.tag = tag ∧ y.Has tag) → s.Merges m u k d q w tag →
      gives (.vand true d a b q w) tag (fun x y => x &&& y) ∧ gives (.vor true d a b q w) tag (fun x y => x ||| y) ∧
      gives (.vxor true d a b q w) tag (fun x y => x ^^^ y))

/-- R132, R138: the compares write a predicate; an FP32 compare with a NaN is false, and only a signalling one sets NV. -/
def Obligations.VectorCompares : Prop :=
  ∀ (s : State) (m u k : Nat) (d a b : BitVec 6) (q : BitVec 3) (w : BitVec 2),
    s.ReadyV m u k [a, b] a q w [] [] → d.toNat ≤ 7 → s.DeclaresQ m u k [d.toNat] →
    let x := s.rv m u k a
    let y := s.rv m u k b
    let ftz := (s.strand m u k).fpc.getLsbD 2
    let int (i : Instr) (f : Word → Word → Bool) : Prop :=
      s.GivesP m u k i d q w 2 fun j => (f (x.lanes.getD j 0) (y.lanes.getD j 0), 0)
    let fp (i : Instr) (f : Machine.Num → Machine.Num → Bool) : Prop :=
      s.GivesP m u k i d q w 4 fun j =>
        let x := f32Num ftz (x.lanes.getD j 0)
        let y := f32Num ftz (y.lanes.getD j 0)
        (!x.isNan && !y.isNan && f x y, if x = .nan true ∨ y = .nan true then flagNV else 0)
    (x.Has 1 → y.Has 1 →
      int (.vceqI true d a b q w) (fun x y => x = y) ∧ int (.vcltI true d a b q w) (fun x y => x.toInt < y.toInt) ∧
      int (.vcltuI true d a b q w) (fun x y => x.toNat < y.toNat)) ∧
    (x.Has 2 → y.Has 2 →
      fp (.vceqF true d a b q w) numEq ∧ fp (.vcltF true d a b q w) numLt ∧
      fp (.vcleF true d a b q w) fun x y => numLt x y || numEq x y)

/-- R36, R135, R139: the FP32 lanes. Each takes RM and FTZ of the bundle's FPC; vmin.f and vmax.f, vrcp.f, vrsq.f, vexp2.f
and vlog2.f take no rounding mode, and vabs.f and vneg.f change bit 31 alone. How far 2^x and log2 are computed before they
are rounded is the model's (log 10). -/
def Obligations.VectorFpLanes : Prop :=
  ∀ (s : State) (m u k : Nat) (d a b : BitVec 6) (q : BitVec 3) (w : BitVec 2),
    let x := s.rv m u k a
    let y := s.rv m u k b
    let z := s.rv m u k d
    let rm : BitVec 2 := (s.strand m u k).fpc.setWidth 2
    let ftz := (s.strand m u k).fpc.getLsbD 2
    let fp (r : Word × FpFlags) : LaneOut := ⟨r.1, r.2, 0, 0⟩
    let two (i : Instr) (lat : Nat) (f : Word → Word → Word × FpFlags) : Prop :=
      s.GivesV m u k i d q w 2 lat fun j => fp (f (x.lanes.getD j 0) (y.lanes.getD j 0))
    let one (i : Instr) (lat : Nat) (f : Word → Word × FpFlags) : Prop :=
      s.GivesV m u k i d q w 2 lat fun j => fp (f (x.lanes.getD j 0))
    let fma (i : Instr) (sub : Bool) : Prop := s.GivesV m u k i d q w 2 5 fun j =>
      fp (fpFma rm ftz sub (z.lanes.getD j 0) (x.lanes.getD j 0) (y.lanes.getD j 0))
    x.Has 2 → s.Merges m u k d q w 2 →
    (s.ReadyV m u k [d, a, b] d q w [] [] → y.Has 2 →
      two (.vaddF true d a b q w) 4 (fpAdd rm ftz) ∧ two (.vsubF true d a b q w) 4 (fpSub rm ftz) ∧
      two (.vmulF true d a b q w) 4 (fpMul rm ftz) ∧ two (.vdivF true d a b q w) 14 (fpDiv rm ftz) ∧
      two (.vminF true d a b q w) 4 (fpMinMax ftz false) ∧ two (.vmaxF true d a b q w) 4 (fpMinMax ftz true) ∧
      (z.Has 2 → fma (.vfmaF true d a b q w) false ∧ fma (.vfmsF true d a b q w) true)) ∧
    (s.ReadyV m u k [d, a] d q w [] [] →
      one (.vsqrtF true d a q w) 14 (fpSqrt rm ftz) ∧ one (.vrcpF true d a q w) 6 (fpRcp ftz) ∧
      one (.vrsqF true d a q w) 6 (fpRsq ftz) ∧ one (.vexp2F true d a q w) 8 (fpExp2 ftz) ∧
      one (.vlog2F true d a q w) 8 (fpLog2 ftz) ∧
      one (.vabsF true d a q w) 4 (fun x => (x &&& 0x7FFFFFFF, 0)) ∧
      one (.vnegF true d a q w) 4 (fun x => (x ^^^ 0x80000000, 0)))

/-- R140 to R142, R149: the conversions between formats, the packs, which replace one part of each lane and keep the others
where vd has the packed tag or RAW, the unpacks, and the block scale. -/
def Obligations.VectorConversions : Prop :=
  ∀ (s : State) (m u k : Nat) (d a b : BitVec 6) (n : BitVec 2) (p : BitVec 1) (q : BitVec 3) (w : BitVec 2),
    let x := s.rv m u k a
    let y := s.rv m u k b
    let z := s.rv m u k d
    let rm : BitVec 2 := (s.strand m u k).fpc.setWidth 2
    let ftz := (s.strand m u k).fpc.getLsbD 2
    let sat := (s.strand m u k).fpc.getLsbD 3
    let part (x : Word) (n w : Nat) : Nat := x.toNat / 2 ^ (w * n) % 2 ^ w
    let conv (i : Instr) (want tag : BitVec 3) (f : Word → LaneOut) : Prop :=
      x.Has want → s.Merges m u k d q w tag → s.GivesV m u k i d q w tag 3 fun j => f (x.lanes.getD j 0)
    let pack (i : Instr) (want tag : BitVec 3) (n w' : Nat) (f : Word → Nat × FpFlags × Nat) : Prop :=
      x.Has want → s.Merges m u k d q w tag → ∃ g : Nat → Word,
        (s.GivesV m u k i d q w tag 3 fun j =>
          ⟨g j, (f (x.lanes.getD j 0)).2.1, (f (x.lanes.getD j 0)).2.2, 0⟩) ∧
        ∀ j < 32, ∀ l < 32 / w', part (g j) l w' =
          if l = n then (f (x.lanes.getD j 0)).1 else if z.Has tag then part (z.lanes.getD j 0) l w' else 0
    (s.ReadyV m u k [d, a] d q w [] [] →
      conv (.vcvtFI true d a q w) 1 2 (fun x => ⟨(fpOfInt rm x).1, (fpOfInt rm x).2, 0, 0⟩) ∧
      conv (.vcvtIF true d a q w) 2 1 (fun x => ⟨(fpToInt rm ftz x).1, (fpToInt rm ftz x).2, 0, 0⟩) ∧
      conv (.vupE4m3 true d a n q w) 4 2 (fun x => ⟨fpOfE4m3 (BitVec.ofNat 8 (part x n.toNat 8)), 0, 0, 0⟩) ∧
      conv (.vupI8 true d a n q w) 3 1 (fun x => ⟨(BitVec.ofNat 8 (part x n.toNat 8)).signExtend 32, 0, 0, 0⟩) ∧
      conv (.vupBf16 true d a p q w) 5 2
        (fun x => ⟨(fpOfBf16 (BitVec.ofNat 16 (part x p.toNat 16))).1, (fpOfBf16 (BitVec.ofNat 16 (part x p.toNat 16))).2, 0, 0⟩) ∧
      pack (.vpkE4m3 true d a n q w) 2 4 n.toNat 8
        (fun x => ((fpToE4m3 ftz sat x).1.toNat, (fpToE4m3 ftz sat x).2.1, (fpToE4m3 ftz sat x).2.2.toNat)) ∧
      pack (.vpkI8 true d a n q w) 1 3 n.toNat 8
        (fun x => ((BitVec.ofInt 8 (max (-128) (min 127 x.toInt))).toNat, 0, 0)) ∧
      pack (.vpkBf16 true d a p q w) 2 5 p.toNat 16 (fun x => ((fpToBf16 ftz x).1.toNat, (fpToBf16 ftz x).2, 0))) ∧
    (s.ReadyV m u k [d, a, b] d q w [] [] → x.Has 7 → y.Has 2 → s.Merges m u k d q w 2 →
      (∀ j < 32, (s.rq m u k q.toNat).getLsbD j = true → (x.lanes.getD j 0).toNat < 2 ^ 20) →
      s.GivesV m u k (.vbscl true d a b q w) d q w 2 6 fun j =>
        let r := fpBlockScale rm ftz (x.lanes.getD j 0) (y.lanes.getD j 0)
        ⟨r.1, r.2.1, 0, r.2.2.toNat⟩)

/-- R41, R143: a reduction takes the tree of five levels over the lanes, in which a masked lane is the identity, and writes
its result to every active lane. R144 to R148: permutes, moves and tags. The result of a permute has the tag of va; vxm
alone may cross clusters. -/
def Obligations.VectorReductionsAndMoves : Prop :=
  (∀ (s : State) (m u k : Nat) (d a : BitVec 6) (q : BitVec 3) (w : BitVec 2),
    s.ReadyV m u k [d, a] d q w [] [] →
    let x := s.rv m u k a
    let rm : BitVec 2 := (s.strand m u k).fpc.setWidth 2
    let ftz := (s.strand m u k).fpc.getLsbD 2
    let gives (i : Instr) (tag : BitVec 3) (unit : Word) (f : Word → Word → Word × FpFlags) : Prop :=
      x.Has tag → s.Merges m u k d q w tag →
      ∃ (v : Nat → Nat → Word) (g : Nat → Nat → FpFlags),
        (∀ j < 32, v 0 j = if (s.rq m u k q.toNat).getLsbD j then x.lanes.getD j 0 else unit) ∧ (∀ j < 32, g 0 j = 0) ∧
        (∀ n < 5, ∀ j < 2 ^ (4 - n), v (n + 1) j = (f (v n (2 * j)) (v n (2 * j + 1))).1 ∧
          g (n + 1) j = (f (v n (2 * j)) (v n (2 * j + 1))).2 ||| g n (2 * j) ||| g n (2 * j + 1)) ∧
        s.Sends m u k i [{ s.result m u k (.v (s.pv m u k d))
            (.vec ⟨Vector.ofFn fun j : Fin 32 => s.laneOf m u k d q w (fun _ => v 5 0) j, tag⟩) 6 with flags := g 5 0 }]
    gives (.vredaddF true d a q w) 2 0 (fpAdd rm ftz) ∧ gives (.vredmaxF true d a q w) 2 0xFF800000 (fpMinMax ftz true) ∧
      gives (.vredaddI true d a q w) 1 0 (fun x y => (x + y, 0)) ∧
      gives (.vredmaxI true d a q w) 1 0x80000000 (fun x y => (if x.toInt ≤ y.toInt then y else x, 0))) ∧
  (∀ (s : State) (m u k : Nat) (d a b n : BitVec 6) (tag : BitVec 3) (q : BitVec 3) (w : BitVec 2),
    let x := s.rv m u k a
    let y := s.rv m u k b
    let z := s.rv m u k d
    let plain (f : Nat → Word) (j : Nat) : LaneOut := ⟨f j, 0, 0, 0⟩
    let gives (i : Instr) (lat : Nat) (f : Nat → Word) : Prop :=
      s.Merges m u k d q w x.tag → s.GivesV m u k i d q w x.tag lat (plain f)
    (s.ReadyV m u k [d, a, b] d q w [] [] →
      (y.Has 1 → gives (.vperm true d a b q w) 3 fun j => x.lanes.getD ((y.lanes.getD j 0).toNat % 32) 0) ∧
      ((x.tag = 0 ∧ y.tag = tag ∨ x.tag = tag ∧ y.Has tag) →
        s.Sends m u k (.vsel true d a b q) [s.result m u k (.v (s.pv m u k d)) (.vec ⟨Vector.ofFn fun j : Fin 32 =>
          if (s.rq m u k q.toNat).getLsbD j then x.lanes.getD j 0 else y.lanes.getD j 0, tag⟩) 2])) ∧
    (s.ReadyV m u k [d, a] d q w [] [] →
      (n.toNat ≤ 31 → gives (.vbcast true d a n q w) 3 fun _ => x.lanes.getD n.toNat 0) ∧
      (n ≠ 32 → gives (.vslide true d a n q w) 3 fun j =>
        if 0 ≤ (j : Int) + n.toInt ∧ (j : Int) + n.toInt ≤ 31 then x.lanes.getD ((j : Int) + n.toInt).toNat 0 else 0) ∧
      gives (.vmov true d a q w) 2 fun j => x.lanes.getD j 0) ∧
    (s.ReadyV m u k [d] d q w [] [] → s.DeclaresV m u k [d, a] → gives (.vxm true d a q w) 3 fun j => x.lanes.getD j 0) ∧
    (s.ReadyV m u k [d] d q w [a, b] [] → s.GivesV m u k (.vins true d a b q w) d q w z.tag 2 (plain fun j =>
      if j = (s.rs m u k b).toNat % 32 then s.rs m u k a else z.lanes.getD j 0)) ∧
    (s.ReadyV m u k [d] d q w [a] [] → s.GivesV m u k (.vsplat true d a q w) d q w 0 2 (plain fun _ => s.rs m u k a)) ∧
    (s.ReadyV m u k [d] d q w [] [] →
      s.GivesV m u k (.vtag true d tag q w) d q w tag 1 (plain fun j => z.lanes.getD j 0) ∧
      (s.Merges m u k d q w 1 → s.GivesV m u k (.viota true d q w) d q w 1 2 (plain fun j => BitVec.ofNat 32 j))) ∧
    (s.ReadyV m u k [a] a 0 0 [b] [n] →
      s.GivesS m u k (.vext true n a b) n (x.lanes.getD ((s.rs m u k b).toNat % 32) 0) 2) ∧
    (s.ReadyV m u k [a] a 0 0 [] [n] → s.GivesS m u k (.vgtag true n a) n (x.tag.setWidth 32) 1))

/-! ### Control flow and records (R161 to R165, R338 to R350) -/

/-- R77, R161, R162: branches. The target counts from the bundle's address; a taken branch costs 2 idle cycles; call lands the
address after its bundle in s63. -/
def Obligations.Branches : Prop :=
  ∀ (s : State) (m u k : Nat) (a : BitVec 6) (o : BitVec 17),
    let st := s.strand m u k
    let target : BitVec 15 := BitVec.ofInt 15 (st.pc.toNat + o.toInt)
    let taken (i : Instr) (to' : BitVec 15) (ls : List Landing) : Prop := s.Runs m u k i fun c => c.onStrand k fun x =>
      { x with landing := x.landing ++ ls, pc := to', idleUntil := s.cycle + 3 }
    let falls (i : Instr) : Prop := s.Sends m u k i []
    let next : Word := (st.pc + 1).setWidth 32
    (s.Ready m u k [] [] → taken (.br true o) target []) ∧
    (s.Ready m u k [a] [] →
      (s.rs m u k a = 0 → taken (.bz true a o) target [] ∧ falls (.bnz true a o)) ∧
      (s.rs m u k a ≠ 0 → falls (.bz true a o) ∧ taken (.bnz true a o) target []) ∧
      taken (.jr true a) ((s.rs m u k a).setWidth 15) []) ∧
    (s.Ready m u k [] [] → a.toNat ≤ 7 → s.DeclaresQ m u k [a.toNat] →
      (s.rq m u k a.toNat = 0xFFFFFFFF → taken (.bqa true a o) target [] ∧ falls (.bqn true a o)) ∧
      (s.rq m u k a.toNat = 0 → falls (.bqa true a o) ∧ taken (.bqn true a o) target []) ∧
      (s.rq m u k a.toNat ≠ 0xFFFFFFFF → s.rq m u k a.toNat ≠ 0 → falls (.bqa true a o) ∧ falls (.bqn true a o))) ∧
    (s.Ready m u k [] [63] → taken (.call true o) target [s.result m u k (.s 63) (.word next) 1])

/-- R342, R281, R296, R275: loop. It is ILLEGAL_OP above trap level 0, in a sibling and on a Spire core, and at level 2 it
kills the record. In a strand that runs its record it stops for a cancelled record; traps for a dead end; ends the kernel when LC
is 0, or at an EOS packet; parks for a record of higher priority; starts the next iteration when the trigger has a packet and
every need is met; else parks for another record of the strand that is eligible; and else waits, marked in the out-channels
that it waits for, or in all of the record's when its trigger is empty. The order of the cases where two hold is the
model's reading (log 18), and so are the marks of a loop that waits for both (log 33). -/
def Obligations.LoopCases : Prop :=
  ∀ (s : State) (m u k : Nat), s.Ready m u k [] [] →
    let st := s.strand m u k
    let c := s.cell m u
    let r := c.record st.entry
    let d := r.desc
    let parks : Prop := exec (.loop true) s = .next ({ s with cur := none, last := .parked }.setCell m u
      { c.setStrand k { st with mode := .engine, waiting := .none } with ctxQueue := c.ctxQueue ++ [CtxJob.save k st.entry] })
    (st.tl ≠ 2 → (c.spire = true ∨ st.tl ≠ 0 ∨ st.sibling = true) →
      s.Traps m u k (.loop true) 0x01 (encode (.loop true))) ∧
    (st.tl = 2 → u < 1024 → st.mode = .running → ∃ t, exec (.loop true) s = .next t ∧ (t.cell m u).mem = c.mem ∧
      (t.strand m u k).mode = .idle ∧ ((t.cell m u).record st.entry).status = .killed) ∧
    (c.spire = false → st.sibling = false → st.tl = 0 →
    (r.cancelled = true →
      exec (.loop true) s = .next ({ s with cur := none, last := .stopped }.setCell m u (c.stopCancelled k))) ∧
    (r.cancelled = false →
      (∀ n, c.deadEnd d = some n → s.Traps m u k (.loop true) 0x33 (BitVec.ofNat 32 n)) ∧
      (c.deadEnd d = none →
        let ends := if d.arrival then c.trigOf d = .eos else st.lc = 0
        let other : Prop := ∃ p ∈ c.recs, p.1 ≠ st.entry ∧ p.2.strand = k ∧ c.eligible p.2 = true
        (ends → s.Runs m u k (.loop true) fun c => c.onStrand k fun x =>
          { x with
            landing := x.landing ++ [s.result m u k .iter (.loopStep false false) 1]
            pc := d.epi
            idleUntil := if st.pc + 1 = d.epi then x.idleUntil else s.cycle + 3 }) ∧
        (¬ ends → st.preq = true → parks) ∧
        (¬ ends → st.preq = false → c.trigOf d ≠ .empty → c.shortOf d = [] →
          s.Runs m u k (.loop true) fun c => (c.onStrand k fun x =>
            { x with
              landing := x.landing ++ [s.result m u k .iter (.loopStep true (!d.arrival)) 1]
              pc := d.ker
              idleUntil := s.cycle + 3 }).onRecord st.entry fun r => r.iterate s.cycle) ∧
        (¬ ends → st.preq = false → (c.trigOf d = .empty ∨ c.shortOf d ≠ []) → other → parks) ∧
        (¬ ends → st.preq = false → (c.trigOf d = .empty ∨ c.shortOf d ≠ []) → ¬ other →
          let starved : Bool := c.trigOf d == .empty
          exec (.loop true) s = .next ({ s with cur := none, last := .stalled }.setCell m u
            ({ c with outs := c.outs.map fun (p : Nat × OutChan) => (p.1, { p.2 with
                pblk := p.2.pblk || (c.shortOf d).contains p.1
                pstv := p.2.pstv || (starved && p.2.owner == st.recid) }) }.setStrand k
              { st with
                waiting := { st.waiting with first := some (st.waiting.first.getD s.cycle) }
                fbcWait := if starved then st.fbcWait else some s.cycle }))))))

/-- R163 to R165, R351: wait, halt and yield. A wait on a unit that has fired is over and is an acquire; a wait above level
0 asks the I/O die once, and stays. A bound strand's halt waits for its siblings. halt and yield act on their strand alone.
That the halt bundle itself stalls for them is the model's reading (log 21). -/
def Obligations.WaitHaltYield : Prop :=
  ∀ (s : State) (m u k : Nat) (a : BitVec 6),
    let st := s.strand m u k
    let c := s.cell m u
    let x := s.rs m u k a
    let level := x.toNat / 2 ^ 16 % 4
    (s.Ready m u k [a] [] → (c.spire = true ∨ (c.record st.entry).cancelled = false) →
      ((level = 0 ∧ (∀ e, c.entryOf (x.setWidth 16) = some e → (c.record e).state = .ended) ∨
          level ≠ 0 ∧ ∃ w, st.waiting.unit = some w ∧ w.answered = true) →
        s.Runs m u k (.wait true a) fun c => c.onStrand k fun y => { y with lacq := s.cycle }) ∧
      (level ≠ 0 → st.waiting.unit = none →
        exec (.wait true a) s = .next ((s.stalled m u k { st.waiting with unit := some ⟨s.cycle, none, false, false⟩ }).send m u k
          ⟨s.chip m, ioUnit⟩ 6 (.unitQuery level (x.toNat % 65536) k s.cycle)))) ∧
    (s.Ready m u k [] [] → c.spire = false → st.tl = 0 → st.sibling = false → c.siblings st.entry ≠ [] →
      exec (.halt true) s = .next (s.stalled m u k st.waiting)) ∧
    (s.Ready m u k [] [] → st.pend = [] → c.busy st.recid.toNat (some k) = false →
      (c.spire = true → s.Runs m u k (.halt true) fun c => c.onStrand k fun y => { y with mode := .stopped }) ∧
      (c.spire = false → st.tl = 0 → st.sibling = false → c.siblings st.entry = [] →
        s.Runs m u k (.halt true) fun c => c.onStrand k fun y => { y with halted := true }) ∧
      (c.spire = false → st.tl = 0 → st.sibling = true →
        s.Runs m u k (.halt true) fun c => c.onStrand k fun y => y.retire .idle)) ∧
    (s.Ready m u k [] [] →
      (isSpire u = true → s.Runs m u k (.yield true) id) ∧
      (isSpire u = false → s.Runs m u k (.yield true) fun c => c.onStrand k fun y =>
        { y with deficit := 0, yielded := some s.cycle }))

/-- R338, R340, R343, R349, R350: spawn starts the lowest idle strand or raises SPAWN_BUSY; bind reads a descriptor; unbind frees an
entry or raises an engine error; cancel and prio act on records. By the model's choice a sibling's acquire cycle is its start
(log 24), and a bind whose sd is s0 waits like any other (log 15). R333, R338, R339: what a bind leaves and answers: the lowest
FREE entry, or the ENDED one that ended earliest, holds the record under its next generation, its channel ends are open, and no
other entry has changed; or the word of the first check that fails, and nothing has changed. Of the checks of overlaps and rates
some points are the model's reading (log 25), and that an end whose peer cannot be reached opens DEAD (log 38). -/
def Obligations.RecordInstructions : Prop :=
  (∀ (s : State) (m u k : Nat) (a d : BitVec 6) (o : BitVec 17) (l : BitVec 11),
    let st := s.strand m u k
    let c := s.cell m u
    let x := s.rs m u k a
    let r := c.record st.entry
    let regs := (List.range 8).map fun i => a + BitVec.ofNat 6 i
    let target : BitVec 15 := BitVec.ofInt 15 (st.pc.toNat + o.toInt)
    (c.spire = false →
      (∀ j, s.Ready m u k regs [] → a.toNat ≤ 56 → j < 4 → j ≠ k → c.strandFree j = true →
        (∀ i < j, c.strandFree i = false) →
        s.Runs m u k (.spawn true a o) fun c => c.setStrand j
          { Strand.begin r.desc st.recid st.entry (s.cycle + 2) with
            sibling := true, pc := target, fpc := st.fpc, tvec := st.tvec, idleUntil := s.cycle + 2
            s := Vector.ofFn fun i : Fin 64 =>
              if i.val ≠ 0 ∧ a.toNat ≤ i.val ∧ i.val < a.toNat + 8 then s.rs m u k (BitVec.ofNat 6 i.val)
              else (launchScalars r.desc).getD i.val 0 }) ∧
      (s.Ready m u k regs [] → a.toNat ≤ 56 → st.tl ≠ 2 → (∀ i < 4, c.strandFree i = false) →
        s.Traps m u k (.spawn true a o) 0x30 (target.setWidth 32)) ∧
      (s.Ready m u k [a] [d] → x.toNat % 256 = 0 → s.Admits m u k x.toNat 256 false false → c.scb.length < 32 →
        s.Runs m u k (.bind true d a) fun c => s.claims k [(x.toNat, 256)] []
          { (c.release k s.cycle).onStrand k fun y => { y with pend := y.pend ++ [⟨s.ps m u k d, s.op⟩] } with
            binds := c.binds ++ [⟨s.op, k, st.entry, x.toNat, s.ps m u k d, none⟩] }) ∧
      (s.Ready m u k [a] [] →
        (c.entryOf (x.setWidth 16) = none → s.Runs m u k (.unbind true a) id) ∧
        (∀ e, c.entryOf (x.setWidth 16) = some e →
          ((c.record e).state = .running ∨ (c.record e).state = .parked → st.tl ≠ 2 →
            s.Traps m u k (.unbind true a) 0x32 (BitVec.ofNat 32 (0x05010000 + e))) ∧
          ((c.record e).state = .bound → (c.record e).ending.getD .cancelled = .cancelled → ∃ t, exec (.unbind true a) s = .next t ∧ (t.cell m u).mem = c.mem ∧
            (t.cell m u).record e = { RecEntry.free with gen := (c.record e).gen } ∧
            ∃ x ∈ t.net, x.dst = ⟨s.chip m, ioUnit⟩ ∧
              x.body = .endNote 1 (c.record e).placement 2 (c.record e).phase (c.record e).job) ∧
          ((c.record e).state = .ended → ∃ t, exec (.unbind true a) s = .next t ∧
            Elsewhere { s with seq := s.seq + 1 } t m u k ∧ (t.cell m u).mem = c.mem ∧
            (t.cell m u).record e = { RecEntry.free with gen := (c.record e).gen } ∧
            ∀ e', e' ≠ e → (t.cell m u).record e' = c.record e')))) ∧
    (s.Ready m u k [a] [] → l.toNat ≤ 3 →
      (l = 0 → ∀ e, c.entryOf (x.setWidth 16) = some e →
        let cancels (f : RecEntry → RecEntry) : Prop := s.Runs m u k (.cancel true a l) fun c => c.onRecord e f
        ((c.record e).state = .bound → cancels fun r => { r with ending := some (r.ending.getD .cancelled) }) ∧
        ((c.record e).state = .parked → cancels fun r =>
          { r with ending := some (r.ending.getD .cancelled), saved := none }) ∧
        ((c.record e).state = .running → cancels fun r => { r with cancelled := true }) ∧
        ((c.record e).state = .ended → s.Runs m u k (.cancel true a l) id)) ∧
      (l = 0 → c.entryOf (x.setWidth 16) = none → s.Runs m u k (.cancel true a l) id) ∧
      (l ≠ 0 → exec (.cancel true a l) s = .next ((s.left m u k 2 id).send m u 0 ⟨s.chip m, ioUnit⟩ 6 (.cancelNote l.toNat (x.toNat % 65536) false)))) ∧
    (s.Ready m u k [a] [] →
      (c.spire = true → s.Sends m u k (.prio true a) []) ∧
      (c.spire = false → s.Runs m u k (.prio true a) fun c => c.onRecord st.entry fun r =>
        { r with
          prioDecl := min (x.toNat % 256) r.desc.ceil, prioEff := min (x.toNat % 256) r.desc.ceil, ageFrom := s.cycle }))) ∧
  (∀ (s : State) (m u : Nat) (raw : List Byte) (spire : Bool) (units : Nat × Nat × Nat),
    let c := s.cell m u
    let d := descOf raw
    let b := s.bindRecord m u raw spire units
    let is (e : Nat) (x : RecState) : Prop := (c.record e).state = x
    let word (status detail : Nat) : Word := BitVec.ofNat 32 (0x80000000 + status * 2 ^ 16 + detail)
    ((∀ e < 16, ¬ is e .free ∧ ¬ is e .ended) → b = (s, word 1 0)) ∧
    ∀ e < 16, (is e .free ∧ (∀ j < e, ¬ is j .free)) ∨ ((∀ j < 16, ¬ is j .free) ∧ is e .ended ∧
        ∀ j < 16, is j .ended → j ≠ e → (c.record e).endOrder < (c.record j).endOrder) →
      let ins := (List.range 16).filter fun n => d.inmask.getLsbD n
      let outs := (List.range 16).filter fun n => d.outmask.getLsbD n
      let busy (x : EndState) : Bool := x == .opened || x == .dead
      let checks : List (Nat × List Nat) :=
        [(2, badFields raw spire), (3, c.overlaps e d), (4, c.sharedLimit e d),
          (5, (ins.filter fun n => busy (c.inCh n).state) ++ (outs.filter fun n => busy (c.outCh n).state).map fun n => n + 16),
          (7, ins.filter fun n => !(c.inCh n).spanOk d),
          (8, ins.filter fun n =>
            let x := c.inCh n
            (x.rate0 &&& 0x6000FFC0) != 0 || (x.rate1 &&& 0xFE00FE00) != 0 ||
              x.rate0.getLsbD 31 && rateFault x.rate0 x.rate1 x.slots == 9),
          (6, s.unstable m u d)]
      (∀ pre status ds post detail, checks = pre ++ (status, ds) :: post → (∀ p ∈ pre, p.2 = []) → detail ∈ ds →
        (∀ x ∈ ds, detail ≤ x) → detail < 2 ^ 16 → b = (s, word status detail)) ∧
      ((∀ p ∈ checks, p.2 = []) →
        let gen := (c.record e).gen + 1
        let rid : BitVec 16 := BitVec.ofNat 16 (gen.toNat * 16 + e)
        let t := b.1.cell m u
        b.2 = rid.setWidth 32 ∧
        t.record e = { RecEntry.free with
          gen := gen, state := .bound, strand := d.strand, hold := d.hold, desc := d, prioDecl := d.prio, prioEff := d.prio
          ageFrom := s.cycle, placement := units.1, phase := units.2.1, job := units.2.2, imin := 0xFFFFFFFF } ∧
        (∀ j, j ≠ e → t.record j = c.record j) ∧ t.mem = c.mem ∧ t.strands = c.strands ∧
        (∀ n < 16,
          let x := t.inCh n
          (d.inmask.getLsbD n = false → x = c.inCh n) ∧
          (d.inmask.getLsbD n = true → ((peerAddr x.peer).1.chip = s.chip m → x.state = .opened) ∧
            (x.state = .opened ∨ x.state = .dead) ∧ x = { c.inCh n with
              owner := rid, state := x.state, occ := 0, popPtr := 0, relPtr := 0, popped := 0, arrived := [], claims := []
              wp := 256, wc := 256, wcNext := none, integ := 0, avg := 0, frozen := false, miss := false, sum := 0, frz := false
              start := s.cycle + 1, omin := 0, omax := 0, hist := List.replicate 16 0, binAt := none })) ∧
        ∀ n < 16,
          let y := t.outCh n
          (d.outmask.getLsbD n = false → y = c.outCh n) ∧
          (d.outmask.getLsbD n = true → ((peerAddr y.peer).1.chip = s.chip m → y.state = .opened) ∧
            (y.state = .opened ∨ y.state = .dead) ∧ y = { c.outCh n with
              owner := rid, state := y.state, fbc := y.slots, wptr := 0, weight := 256, weightNext := none, weighted := false
              peerSize := y.peerSize, pblk := false, pstv := false, blk := 0, blkAt := none }))) ∧
  ∀ (s : State) (m u : Nat) (j : BindJob),
    let c := s.cell m u
    let r := c.record j.entry
    let read := s.setCell m u { c with
      scb := c.scb.filter fun e => e.op != j.op
      binds := c.binds.filter fun x => x.op != j.op }
    let b := read.bindRecord m u (memBytes c.mem j.off 256) false (r.placement, r.phase, r.job)
    let t := s.endBind m u j
    c.flips = [] →
      t.cell m u = { b.1.cell m u with
        deliveries := (b.1.cell m u).deliveries ++ [⟨s.cycle + 1, j.k, j.op, j.t, b.2, []⟩] } ∧
      (b.2.getLsbD 31 = true → t.net = b.1.net) ∧
      (b.2.getLsbD 31 = false → ∃ y, t.net = b.1.net ++ [y] ∧ y.dst = ⟨s.chip m, 2048⟩ ∧ y.vc = 6 ∧
        y.body = .bindNote 1 r.placement)

/-! ### Class E (R210 to R295, R329, R376 to R378, R388 to R395, R407) -/

/-- R231, R236, R251, R252, R290, R407: the fields of descriptor sets and channel ends, and mstat: a write is there at the
end of the issue cycle, a read is delivered in the next cycle. Each field of the tables is the one that its number names, a
field read after a write is the value written, every other field is as before, and a field takes the values of its table; mstat
delivers its item as the cycle found it, and leaves what the cycle counts in a cleared one. That mstat reads a unit without
travel time is the model's reading (log 34), and so is ascl beyond the D-store (log 32); a PTRS whose popped count of 64 does
not fit its six bits (log 33) is left out. The fields of channel ends that sset writes read likewise as they were written, and new rate
words leave INTEG 0 and a producer weight of 256. -/
def Obligations.DescriptorFields : Prop :=
  ∀ (s : State) (m u k : Nat) (a b d t : BitVec 6) (f n : BitVec 5) (o : BitVec 1) (ch : BitVec 4),
    let c := s.cell m u
    let x := s.rs m u k a
    let y := s.rs m u k b
    let e := (s.strand m u k).entry
    let set := c.arr.setAt n.toNat
    let cd := c.cd n.toNat
    (c.spire = false → f.toNat ≤ 10 →
      (s.Ready m u k [a] [] →
        (matrixValue f.toNat x.toNat = true → s.Runs m u k (.mset true a f n) fun c =>
          { c with arr := { c.arr with sets := tput c.arr.sets n.toNat (set.put f.toNat x.toNat) } }) ∧
        (matrixValue f.toNat x.toNat = false → (s.strand m u k).tl ≠ 2 →
          s.Traps m u k (.mset true a f n) 0x01 (encode (.mset true a f n)))) ∧
      (s.Ready m u k [] [d] →
        s.Runs m u k (.mget true d f n) (s.answers m u k d (BitVec.ofNat 32 (set.get f.toNat)) []))) ∧
    (f.toNat ≤ 6 → s.NoErrors m u k →
      (s.Ready m u k [a] [] → copyValue f.toNat x = true → s.Runs m u k (.cset true a f n) fun c =>
        { c with cds := tput c.cds n.toNat (cd.put f.toNat x) }) ∧
      (s.Ready m u k [] [d] → s.Runs m u k (.cget true d f n) (s.answers m u k d (cd.get f.toNat) []))) ∧
    (c.spire = false → t ≠ 0 →
      (s.Ready m u k [a] [t] → s.NoErrors m u k → ∀ w,
        (if o = 1 then (c.outCh ch.toNat).field (x.toNat % 256) else (c.inCh ch.toNat).field (x.toNat % 256)) = some w →
        s.Runs m u k (.sget true a o ch t) (s.answers m u k t w [])) ∧
      (s.Ready m u k [a, b] [t] → n.toNat ≠ 15 → s.Runs m u k (.mstat true a b n t) fun c =>
        s.answers m u k t (mstatItem (s.cell m u) (s.mod m).io s.cycle e n.toNat y) []
          (if x.getLsbD 0 then c.mstatClear s.cycle e n.toNat y else c))) ∧
    -- the fields of the descriptor sets by their numbers, their values, and a field read after a write
    (∀ (z : MatrixSet) (f v : Nat), f ≤ 10 →
      z.get f = [z.wsrc, z.wfmt, z.wscl, z.ascl, z.rows, z.kblk, z.cols, z.chain, z.amode, z.chk, z.astr].getD f 0 ∧
      (∀ g ≤ 10, (z.put f v).get g = if g = f then v else z.get g) ∧
      (matrixValue f v = true ↔
        [v < 2 ^ 23 ∧ v % 128 = 0, v ≤ 3, v < 2 ^ 23 ∧ v % 128 = 0, v < 2 ^ 23 ∧ v % 4 = 0, 1 ≤ v ∧ v ≤ 64, 1 ≤ v ∧ v ≤ 255,
          1 ≤ v ∧ v ≤ 64, v ≤ 7, v ≤ 1, v ≤ 3, 64 ≤ v ∧ v ≤ 4096 ∧ v % 64 = 0].getD f False)) ∧
    (∀ (z : CopySet) (f : Nat) (w : Word), f ≤ 6 →
      z.get f = [z.sh, z.dh, z.len, z.tbar, z.andThen, z.carry, z.ord].getD f 0 ∧
      (∀ g ≤ 6, (z.put f w).get g = if g = f then w else z.get g) ∧
      (copyValue f w = true ↔
        [w.toNat < 16, w.toNat < 16, 1 ≤ w.toNat ∧ w.toNat ≤ 2097152, w.toNat < 64,
          w.toNat / 2 ^ 29 % 4 ≠ 3 ∧ w.getLsbD 23 = false, True, w.toNat ≤ 2].getD f False)) ∧
    -- the fields of channel ends
    (∀ (z : InChan) (f : Nat), z.popped ≤ 63 →
      let code := [EndState.unconf, .opened, .closed, .dead].idxOf z.state
      z.field f = [some (BitVec.ofNat 32 code), some (BitVec.ofNat 32 z.base), some (BitVec.ofNat 32 z.size),
        some (BitVec.ofNat 32 z.slots), some z.peer, some (if z.mode then 1 else 0), some (z.owner.setWidth 32), none,
        some z.rate0, some z.rate1, some (BitVec.ofNat 32 z.rtt), some z.seq, some (BitVec.ofNat 32 z.occ),
        some (BitVec.ofNat 32 (z.popped * 2 ^ 16 + z.popPtr * 2 ^ 8 + z.relPtr)),
        some (BitVec.ofNat 32 (z.wp * 2 ^ 16 + z.wc)), some (BitVec.ofInt 32 z.integ), some (BitVec.ofNat 32 z.avg),
        some ((if z.miss then 2 else 0) + (if z.frozen then 1 else 0))].getD f none) ∧
    (∀ (z : OutChan) (f : Nat),
      let code := [EndState.unconf, .opened, .closed, .dead].idxOf z.state
      z.field f = [some (BitVec.ofNat 32 code), none, none, some (BitVec.ofNat 32 z.slots), some z.peer,
        some (if z.mode then 1 else 0), some (z.owner.setWidth 32),
        some (BitVec.ofNat 32 ((if z.grouped then 16 else 0) + z.group)), none, none, none, some z.seq,
        some (BitVec.ofNat 32 z.fbc), some (BitVec.ofNat 32 z.wptr),
        some (if z.weighted then BitVec.ofNat 32 z.weight else 0x01000100)].getD f none) ∧
    -- their values, and a field read after a write
    (∀ (f : Nat) (w : Word), f ≤ 11 → f ≠ 0 → f ≠ 8 → f ≠ 9 → (channelValue f w.toNat w = true ↔
      [True, w.toNat < 2 ^ 21 ∧ w.toNat % 128 = 0, 1 ≤ w.toNat ∧ w.toNat ≤ 65536, 1 ≤ w.toNat ∧ w.toNat ≤ 64,
        (if w.toNat / 2 ^ 22 = 0x3FF then w &&& 0x00300380 = 0 else w &&& 0xFF0 = 0), w.toNat ≤ 1, w.toNat < 2 ^ 16,
        w.toNat < 2 ^ 5, True, True, w.toNat < 2 ^ 16, True].getD f False)) ∧
    (∀ (z : InChan) (f : Nat) (w : Word), f ∈ [1, 2, 3, 4, 5, 6, 10] → channelValue f w.toNat w = true →
      ∀ g, (z.put f w).field g = if g = f then some w else z.field g) ∧
    (∀ (z : OutChan) (f : Nat) (w : Word), f ∈ [3, 4, 5, 6, 7, 11] → channelValue f w.toNat w = true →
      ∀ g, (z.put f w).field g = if g = f then some w else z.field g) ∧
    (∀ (z : InChan) (r0 r1 : Word) (next : Option (Nat × Nat)) (now g : Nat),
      ({ z with rate0 := r0, rate1 := r1, integ := 0, sum := 0, frz := false, wp := 256, wcNext := next, start := now } : InChan).field g =
        if g = 8 then some r0 else if g = 9 then some r1
        else if g = 14 then some (BitVec.ofNat 32 (256 * 2 ^ 16 + z.wc)) else if g = 15 then some 0 else z.field g) ∧
    -- the items of mstat, as the cycle found them, and what a clear leaves of them
    (∀ i < 16, (y.toNat % 16 = i) → ∀ it, it ≠ 15 → it < 32 →
      let r := c.record e
      let z := c.inCh i
      let blk := c.outCh i
      let counters (x : Counters) : List (BitVec 16) :=
        [x.accSat, x.cvtSat8, x.nanScale, x.nanOut, x.infOut, x.wldRange, x.sdcMismatch, x.discRead]
      -- its value before the cycle, and whether the cycle counts into it
      let blkWas : Word × Bool := match blk.blkAt with
        | some (n, w) => if n = s.cycle then (w, true) else (blk.blk, false)
        | none => (blk.blk, false)
      let binWas (b : Nat) : Word × Bool := match z.binAt with
        | some (n, w) => if n = b then (w, true) else (z.hist.getD b 0, false)
        | none => (z.hist.getD b 0, false)
      mstatItem c (s.mod m).io s.cycle e it y =
        ((counters c.cntsWas).map (fun x => x.setWidth 32) ++ [c.cmax, c.cnan.setWidth 32, completion c (s.mod m).io y,
          [r.ilast, r.imin, r.imax, r.icnt].getD (y.toNat % 4) 0, BitVec.ofNat 32 z.omin, BitVec.ofNat 32 z.omax, blkWas.1, 0] ++
          (List.range 16).map fun b => (binWas b).1).getD it 0 ∧
      (it < 8 → ∃ x, c.mstatClear s.cycle e it y = { c with cnts := x } ∧
        counters x = (counters c.cnts).set it ((counters c.cntsNew).getD it 0)) ∧
      (it = 8 → c.mstatClear s.cycle e it y = { c with cmax := 0 }) ∧
      (it = 9 → c.mstatClear s.cycle e it y = { c with cnan := 0 }) ∧
      (it = 10 → c.mstatClear s.cycle e it y = c) ∧
      (it = 11 → c.mstatClear s.cycle e it y =
        { c with recs := tput c.recs e { r with ilast := 0, imin := 0xFFFFFFFF, imax := 0, icnt := 0 } }) ∧
      (it = 12 → c.mstatClear s.cycle e it y = { c with ins := tput c.ins i { z with omin := z.occ } }) ∧
      (it = 13 → c.mstatClear s.cycle e it y = { c with ins := tput c.ins i { z with omax := z.occ } }) ∧
      (it = 14 → c.mstatClear s.cycle e it y =
        { c with outs := tput c.outs i { blk with blk := if blkWas.2 then 1 else 0 } }) ∧
      (16 ≤ it → c.mstatClear s.cycle e it y =
        { c with ins := tput c.ins i { z with hist := z.hist.set (it - 16) (if (binWas (it - 16)).2 then 1 else 0) } }))

/-- R216 to R220, R232 to R241: the array commands. Each that passes its checks in the predicted state, with room in the
queue and on the scoreboard, enters the array with its operands as they stand at issue, and changes the prediction. What
counts as an entry of the queue is the model's reading (log 31), and so is the point of the channel checks (log 32). -/
def Obligations.ArrayCommands : Prop :=
  ∀ (s : State) (m u k : Nat) (a b : BitVec 6) (n : BitVec 5) (t : BitVec 6),
    let c := s.cell m u
    let st := s.strand m u k
    let arr := c.arr
    let set := arr.setAt n.toNat
    let x := s.rs m u k a
    let y := s.rs m u k b
    let row (r : Nat) := tget (0, 0, 0) arr.pred.rows r
    let chain := arr.chain set.chain
    let admits (ws : List (Nat × Nat)) (write wld : Bool) : Prop := ∀ w ∈ ws, s.Admits m u k w.1 w.2 write wld
    let fits : Prop := arr.pred.full.getD arr.pred.act false = true ∧
      ∀ r < set.rows, (row r).1 ≠ set.kblk ∧ ((row r).1 = 0 ∨ (row r).2 = (set.rows, set.amode))
    let pass (t : Nat) (drain : Option Nat) : PassCmd :=
      { op := s.op, k := k, recid := st.recid.toNat, t := t, issue := s.cycle, swap := false, set := n.toNat, a := x.toNat
        m := set, sdctrap := st.sdctrap, drainOp := drain, started := false, next := 0, nextAt := 0, done := 0, bad := false
        actTaint := false, err := none }
    let drain (op dst : Nat) (mmul : Bool) : DrainCmd :=
      { op := op, k := k, recid := st.recid.toNat, t := s.ps m u k t, issue := s.cycle, mmul := mmul, queued := !mmul
        set := n.toNat, rows := set.rows, cols := set.cols, chain := set.chain, nodes := liveNodes chain.nodes
        arming := chain.arming, dst := dst, sat := st.fpc.getLsbD 3
        push := ⟨if (c.record st.entry).desc.arrival then st.lastSeq else none, st.taint, st.etag, st.recid⟩
        next := 0, nextAt := 0, out := none, bad := false, actTaint := false, started := false, dropped := false, errs := [] }
    let sends (d : DrainCmd) : Prop := ∀ n, d.channel = some n → (c.outCh n).state = .opened ∧ (c.outCh n).owner = st.recid ∧
      outSize d.nodes ≤ (c.outCh n).peerSize ∧ (c.outCh n).grouped = false
    let ranges := [(x.toNat, set.astr * (set.rows - 1) + 64), (set.ascl, 4 * set.rows)]
    c.spire = false → s.NoErrors m u k → arr.queued < 16 →
    (let data : Word := BitVec.ofNat 32 set.wsrc + x
     let scl : Word := BitVec.ofNat 32 set.wscl + y
     let w : WldCmd :=
      { op := s.op, k := k, recid := st.recid.toNat, t := s.ps m u k t, issue := s.cycle, bank := 1 - arr.pred.act
        data := data.toNat, scales := scl.toNat, fmt := set.wfmt, cols := set.cols, chk := set.chk, endAt := none }
     s.Ready m u k [a, b] (tokenRegs t) → c.scb.length < 32 → data.toNat % 128 = 0 → scl.toNat % 128 = 0 →
      admits [(data.toNat, tileBytes set.wfmt), (scl.toNat, 256)] false true →
      s.Runs m u k (.wld true a b n t) fun c => s.claims k w.reads [] { s.asks m u k t c with
        arr := { arr with wlds := arr.wlds ++ [w], pred := arr.pred.load set.cols set.chk } }) ∧
    (s.Ready m u k [] (tokenRegs t) → c.scb.length < 32 →
      s.Runs m u k (.mswap true t) fun c => s.claims k [] [] { s.asks m u k t c with
        arr := { arr with
          passes := arr.passes ++
            [{ op := s.op, k := k, recid := st.recid.toNat, t := s.ps m u k t, issue := s.cycle, swap := true, set := 0, a := 0
               m := MatrixSet.reset, sdctrap := false, drainOp := none, started := false, next := 0, nextAt := 0, done := 0
               bad := false, actTaint := false, err := none }]
          pred := { arr.pred with act := 1 - arr.pred.act } } }) ∧
    (s.Ready m u k [a] (tokenRegs t) → c.scb.length < 32 → fits → admits ranges false false →
      s.Runs m u k (.macc true a n t) fun c => s.claims k ((pass (s.ps m u k t) none).reads 0) [] { s.asks m u k t c with
        arr := { arr with passes := arr.passes ++ [pass (s.ps m u k t) none], pred := arr.pred.pass set.rows set.amode } }) ∧
    (s.Ready m u k [a, b] (tokenRegs t) → c.scb.length < 31 → fits → (∀ r < set.rows, (row r).1 + 1 = set.kblk) →
      chain.armed = true → admits ranges false false →
      let d := drain (s.op + 1) y.toNat true
      admits (d.tileReads 0) false false → admits (d.writes 0) true false → sends d →
      exec (.mmul true a b n t) s = .next (s.left m u k 3 fun c =>
        let c := if s.ps m u k t = 0 then c
          else c.onStrand k fun st => { st with pend := st.pend ++ [⟨s.ps m u k t, s.op + 1⟩] }
        let p := pass 0 (some (s.op + 1))
        ({ c with
          arr := { arr with
            passes := arr.passes ++ [p], drains := arr.drains ++ [d]
            pred := (arr.pred.pass set.rows set.amode).drain set.rows }
          scb := c.scb ++ [⟨s.op, k, p.reads 0, [], p.reads 0, [], s.op⟩,
            ⟨s.op + 1, k, d.tileReads 0, d.writes 0, d.tileReads 0, d.writes 0, s.op + 1⟩] } : Cell).wroteRange k (d.writes 0))) ∧
    (s.Ready m u k [a] (tokenRegs t) → c.scb.length < 32 → (∀ r < set.rows, (row r).1 = set.kblk) → chain.armed = true →
      let d := drain s.op x.toNat false
      admits (d.tileReads 0) false false → admits (d.writes 0) true false → sends d →
      s.Runs m u k (.mdrain true a n t) fun c => (s.claims k (d.tileReads 0) (d.writes 0) { s.asks m u k t c with
        arr := { arr with drains := arr.drains ++ [d], pred := arr.pred.drain set.rows } }).wroteRange k (d.writes 0))

/-- R224, R241 to R243: mchain arms its chain with the descriptor's nodes and asks for the reads of their parameters, of
which nothing has been read yet, mchk sets CHK and delivers what it will do, and mfence waits until the strand's array
commands have completed. That mchain takes an entry of the array queue and mchk none is the model's reading (log 31). So is
code 0x07 (log 32). -/
def Obligations.ChainCheckFence : Prop :=
  ∀ (s : State) (m u k : Nat) (a b : BitVec 6) (n : BitVec 5) (t : BitVec 6),
    let c := s.cell m u
    let x := s.rs m u k a
    let loads := (s.rs m u k b).getLsbD 0
    let nodes := if loads then nodesOf (memBytes c.mem x.toNat 64) else (c.arr.chain n.toNat).nodes
    let reads := paramReads (liveNodes nodes)
    c.spire = false → s.NoErrors m u k →
    (s.Ready m u k [a, b] (tokenRegs t) → n.toNat ≤ 7 → chainFault nodes 0 .acc false = none →
      (loads = true → s.Admits m u k x.toNat 64 false false ∧ x.toNat % 64 = 0 ∧ c.held .load x.toNat 64 = false ∧
        c.drainWaits n.toNat = false ∧ c.flips = []) →
      (∀ r ∈ reads, s.Admits m u k r.1 r.2 false false) → c.scb.length < 32 → c.arr.queued < 16 →
        let old := c.arr.pars.filter fun p => c.arr.drains.any (fun d => d.arming == p.arming) ||
          c.arr.chains.any fun q => q.1 != n.toNat && q.2.arming == p.arming
        s.Runs m u k (.mchain true a b n t) fun c =>
          let arr := { c.arr with
            chains := tput c.arr.chains n.toNat ⟨nodes, true, s.op⟩
            pars := old ++ [⟨s.op, (liveNodes nodes).map fun _ => [], reads.isEmpty⟩]
            armings := if reads = [] then c.arr.armings
              else c.arr.armings ++ [⟨s.op, k, (s.strand m u k).recid.toNat, s.ps m u k t, liveNodes nodes, s.cycle, none⟩] }
          if reads = [] then s.answers m u k t 0 [] { c with arr := arr }
          else s.claims k reads [] { s.asks m u k t c with arr := arr }) ∧
    (s.Ready m u k [a] (tokenRegs t) →
      let set := c.arr.setAt n.toNat
      let chk := x.toNat % 4
      s.Runs m u k (.mchk true a n t) fun c => s.answers m u k t
        (BitVec.ofNat 32 (checkMode chk (c.arr.pred.mirror.getD c.arr.pred.act false) set.cols)) []
        { c with arr := { c.arr with sets := tput c.arr.sets n.toNat { set with chk := chk } } }) ∧
    (s.Ready m u k [] [] →
      (c.arrayIdle k = true → s.Runs m u k (.mfence true) id) ∧
      (c.arrayIdle k = false → exec (.mfence true) s = .next (s.stalled m u k (s.strand m u k).waiting)))

/-- R249 to R259, R365: cpy and cpyb. The command enters the engine with its handles as they stand at issue; LTOK takes its
token, or 0 for a copy within the cell, and a copy to another cell takes a token entry that waits for all of its sectors. A
discarded source reads zeros, and a discarded destination ends the copy with DISCARDED. A token that the copy carries is
stripped once landed, takes a slot while pending here, and is watched when it is foreign and the copy stays within the cell.
How far the range of cpyb goes is the model's reading (log 27). -/
def Obligations.Copies : Prop :=
  ∀ (s : State) (m u k : Nat) (a b : BitVec 6) (n : BitVec 5) (t : BitVec 6) (big : Bool),
    let v := s.sees m u k (.nop true)
    let c := s.cell m u
    let st := s.strand m u k
    let x := c.cd n.toNat
    let src := s.rh m u k x.sh.toNat
    let dst := s.rh m u k x.dh.toNat
    let p := src.target (s.addr m u) (s.rs m u k a).toNat
    let q := dst.target (s.addr m u) (s.rs m u k b).toNat
    let align := if big then 256 else 4
    let i : Instr := if big then .cpyb true a b n t else .cpy true a b n t
    s.Ready m u k [a, b] (tokenRegs t) → s.NoErrors m u k → s.DeclaresH m u k [x.sh.toNat, x.dh.toNat] →
    v.sideChecks x.sh.toNat (s.rs m u k a) x.len.toNat x.len.toNat align big false = [] →
    v.sideChecks x.dh.toNat (s.rs m u k b) x.len.toNat x.len.toNat align big true = [] →
    x.len.toNat % align = 0 → (big = true ∨ x.len.toNat ≤ 65536) → src.migrates false = false → dst.migrates true = false →
    c.ops.length < 32 → c.scb.length < 32 → (dst.aper ≠ 0 → x.andThen.getLsbD 31 = false) →
    ((dst.aper ≠ 0 → v.tokenFull x.carry dst.disc = false) → ∃ t' tok, exec i s = .next t' ∧ t'.last = .issued ∧
      (t'.cell m u).mem = c.mem ∧ (t'.strand m u k).landing = st.landing ++ [s.result m u k (.sp 4) (.word tok) 1] ∧
      (t'.strand m u k).pc = st.pc + 1 ∧ (t'.strand m u k).s = st.s ∧ (t'.strand m u k).q = st.q ∧
      (t'.strand m u k).h = st.h ∧ (t'.strand m u k).v = st.v) ∧
    (let near (w : Word) : Bool := tokenLocal (s.chip m) u w
    let o (entry : Option Nat) (tok : Word) (far : Option Addr) (carry : Word) : EngOp :=
      { op := s.op, k := k, recid := st.recid.toNat, kind := .copy, t := s.ps m u k t, entry := entry, token := tok
        relaxed := x.ord == 1, serial := x.ord == 2, src := if src.aper = 0 ∨ src.disc = true then none else some p.1, srcOff := p.2
        dst := far, dstOff := q.2, len := x.len.toNat, zeros := src.disc
        tbar := if x.tbar.getLsbD 5 then some (x.tbar.toNat % 32) else none, andThen := x.andThen, sb := s.rs m u k b, carry := carry
        next := 0, done := 0, nextAt := s.cycle, out := [], err := 0 }
    let reads : List (Nat × Nat) := if src.aper = 0 ∧ src.disc = false then [(p.2, x.len.toNat)] else []
    let counted (c : Cell) : Cell := if src.disc then c.count fun n => { n with discRead := countUp n.discRead } else c
    let gen (e : Nat) : BitVec 4 := if (c.token e).gen = 15 then 1 else (c.token e).gen + 1
    let tok (e : Nat) : Word := BitVec.ofNat 32 (s.chip m * 2 ^ 22 + u * 2 ^ 12 + (gen e).toNat * 2 ^ 8 + e)
    -- a carried token that has landed here is stripped; one that is pending here gives up a slot
    let carry : Word := if near x.carry = true ∧ c.tokenPending x.carry = false then 0 else x.carry
    let held := c.token (carry.toNat % 256)
    let slot := held.slots.findIdx fun z => z == none
    let tokens := if carry ≠ 0 ∧ near carry = true then
        tput c.tokens (carry.toNat % 256) { held with
          slots := held.slots.set slot (some ⟨q.1.chip * 4096 + q.1.unit, false⟩) } else c.tokens
    let entry (e : Nat) : TokEntry :=
      { TokEntry.free with
        state := .pending, gen := gen e, recid := st.recid.toNat, k := k, count := (x.len.toNat + 255) / 256, carry := carry }
    let local' (c : Cell) : Cell := s.claims k reads [(q.2, x.len.toNat)]
      { s.asks m u k t ((counted (s.landsTok m u k 0 c)).wroteRange k [(q.2, x.len.toNat)]) with
        ops := c.ops ++ [o none 0 none x.carry] }
    (dst.aper = 0 → (x.carry = 0 ∨ near x.carry = true) → s.Runs m u k i local') ∧
    (dst.aper = 0 → x.carry ≠ 0 → near x.carry = false →
      exec i s = .next ((s.left m u k 2 fun c =>
        { local' c with waits := c.waits ++ [⟨.copy s.op, x.carry, s.cycle, 0, .out⟩] }).send m u 0 (tokenOrigin x.carry) 5
          (.watch x.carry 0))) ∧
    (dst.aper ≠ 0 → v.tokenFull x.carry dst.disc = false →
      (dst.disc = false → c.spire = false → ∀ e, c.freeToken = some e →
        s.Runs m u k i fun c => s.claims k reads []
          { s.asks m u k t (counted (s.landsTok m u k (tok e) c)) with
            tokens := tput tokens e (entry e), ops := c.ops ++ [o (some e) (tok e) (some q.1) carry] }) ∧
      (dst.disc = false → c.spire = true →
        s.Runs m u k i fun c => s.claims k reads []
          { s.asks m u k t (counted (s.landsTok m u k 0 c)) with
            tokens := tokens, ops := c.ops ++ [o none 0 (some q.1) carry] }) ∧
      (dst.disc = true → c.spire = false → st.mode ≠ .idle → (∀ y ∈ c.ops, y.op ≠ s.op) → ∀ e, c.freeToken = some e →
        ∃ t', exec i s = .next t' ∧ t'.net = s.net ∧ (t'.cell m u).ops = c.ops ∧
          (t'.cell m u).scb = (c.scb.filter fun y => y.op != s.op) ∧ (t'.cell m u).mem = c.mem ∧
          (t'.cell m u).token e = { entry e with state := .landedErr, count := 0, err := 0x02020000, order := c.landings } ∧
          (t'.strand m u k).landing = st.landing ++ [s.result m u k (.sp 4) (.word (tok e)) 1] ∧
          (t'.strand m u k).errs = [⟨s.op, false, 0x32, 0x02020000, tok e, q.1.chip, q.1.unit⟩] ∧
          (t'.cell m u).deliveries = (if s.ps m u k t = 0 then c.deliveries else c.deliveries ++
            [⟨s.cycle + 1, k, s.op, s.ps m u k t, Config.errorValue s.op, [.trap s.op 0x32 0x02020000]⟩]))))

/-- R249, R250, R260 to R262: the one-sided operations on other cells. A write or an atomic takes a token entry, which LTOK
names; rst and rstc deliver the token at once; rld takes none. Nothing is written before the request arrives. That each
carried request needs a NONE slot is the model's reading (log 29). -/
def Obligations.OneSidedRemote : Prop :=
  ∀ (s : State) (m u k : Nat) (a b : BitVec 6) (r : BitVec 1) (h : BitVec 4) (t : BitVec 6),
    let v := s.sees m u k (.nop true)
    let c := s.cell m u
    let st := s.strand m u k
    let hh := s.rh m u k h.toNat
    let off := s.rs m u k a
    let y := s.rs m u k b
    let p := hh.target (s.addr m u) off.toNat
    s.NoErrors m u k → s.DeclaresH m u k [h.toNat] → hh.valid = true → hh.migrates true = false →
    c.ops.length < 32 → c.scb.length < 32 →
    (hh.aper ≠ 0 →
      let issues (i : Instr) : Prop := ∃ t' tok, exec i s = .next t' ∧ t'.last = .issued ∧ (t'.cell m u).mem = c.mem ∧
        (t'.strand m u k).landing = st.landing ++ [s.result m u k (.sp 4) (.word tok) 1] ∧
        (t'.strand m u k).pc = st.pc + 1 ∧ (t'.strand m u k).s = st.s ∧ (t'.strand m u k).h = st.h
      (v.handleChecks h.toNat off 4 4 false false true false = [] →
        (s.Ready m u k [a, b] (tokenRegs t) →
          (v.writesReserved .rst hh off y = true → st.tl ≠ 2 →
            s.Traps m u k (.rst true a b r h t) 0x01 (encode (.rst true a b r h t))) ∧
          (v.writesReserved .rst hh off y = false → v.tokenFull 0 hh.disc = false → issues (.rst true a b r h t))) ∧
        (s.Ready m u k [a, b, t] (tokenRegs t) →
          (v.writesReserved .rstc hh off y = true → st.tl ≠ 2 →
            s.Traps m u k (.rstc true a b r h t) 0x01 (encode (.rstc true a b r h t))) ∧
          (v.writesReserved .rstc hh off y = false → v.tokenFull (s.rs m u k t) hh.disc = false →
            issues (.rstc true a b r h t)))) ∧
      (v.handleChecks h.toNat off 4 4 false true true true = [] → s.Ready m u k [a, b] (tokenRegs t) →
        v.tokenFull 0 hh.disc = false →
        issues (.rfadd true a b r h t) ∧ issues (.radd true a b r h t) ∧ issues (.rmax true a b r h t) ∧
          issues (.rswp true a b r h t)) ∧
      (v.handleChecks h.toNat off 4 4 false true false false = [] → s.Ready m u k [a] [t] → t ≠ 0 → hh.disc = true →
        s.Runs m u k (.rld true a r h t) fun c => s.answers m u k t 0 []
          (c.count fun n => { n with discRead := countUp n.discRead }))) ∧
    (hh.disc = false →
    let base : EngOp :=
      { op := s.op, k := k, recid := st.recid.toNat, kind := .store, t := s.ps m u k t, entry := none, token := 0
        relaxed := r == 1, serial := false, src := none, srcOff := p.2, dst := none, dstOff := 0, len := 0, zeros := false
        tbar := none, andThen := 0, sb := 0, carry := 0, next := 1, done := 0, nextAt := s.cycle, out := [], err := 0 }
    let req (kind : ReqKind) (data : List Byte) (operand tok : Word) : Req :=
      { kind := kind, copy := false, ordered := r == 0, off := p.2, data := data, bad := [], operand := operand, carry := 0
        token := tok, op := s.op, sector := 0, sectors := 1, tbar := none, strand := k }
    (hh.aper ≠ 0 → c.spire = false →
      (v.handleChecks h.toNat off 4 4 false true false false = [] → s.Ready m u k [a] [t] → t ≠ 0 →
        s.Runs m u k (.rld true a r h t) fun c => s.claims k [] [] { s.asks m u k t c with
          ops := c.ops ++ [{ base with kind := .readWord, src := some p.1, out := [⟨req (.read 4) [] 0 0, p.1, s.cycle, 0, .ready⟩] }] }) ∧
      (∀ e, c.freeToken = some e →
        let gen : BitVec 4 := if (c.token e).gen = 15 then 1 else (c.token e).gen + 1
        let tok : Word := BitVec.ofNat 32 (s.chip m * 2 ^ 22 + u * 2 ^ 12 + gen.toNat * 2 ^ 8 + e)
        let enters (kind : EngKind) (what : ReqKind) (c' : Cell) : Cell :=
          s.claims k [] [] { c' with
            tokens := tput c.tokens e { TokEntry.free with
              state := .pending, gen := gen, recid := st.recid.toNat, k := k, count := 1 }
            ops := c.ops ++ [{ base with
              kind := kind, entry := some e, token := tok, dst := some p.1, dstOff := p.2
              out := [⟨req what (leBytes 4 y.toNat) y tok, p.1, s.cycle, 0, .ready⟩] }] }
        let tok' := s.landsTok m u k tok
        (v.handleChecks h.toNat off 4 4 false false true false = [] →
          (s.Ready m u k [a, b] (tokenRegs t) → s.Runs m u k (.rst true a b r h t) fun c =>
            enters .store .write (s.answers m u k t tok [] (tok' c))) ∧
          (s.Ready m u k [a, b, t] (tokenRegs t) → s.rs m u k t = 0 → s.Runs m u k (.rstc true a b r h t) fun c =>
            enters .store .write (s.answers m u k t tok [] (tok' c)))) ∧
        (v.handleChecks h.toNat off 4 4 false true true true = [] → s.Ready m u k [a, b] (tokenRegs t) →
          let atomic (i : Instr) (kind : RemoteKind) : Prop := s.Runs m u k i fun c =>
            enters .atomic (.atomic kind) (s.asks m u k t (tok' c))
          atomic (.rfadd true a b r h t) .rfadd ∧ atomic (.radd true a b r h t) .radd ∧
            atomic (.rmax true a b r h t) .rmax ∧ atomic (.rswp true a b r h t) .rswp))) ∧
    (v.sideChecks h.toNat off 4 128 128 false false = [] → s.Admits m u k y.toNat 128 true false → y.toNat % 128 = 0 →
      hh.migrates false = false → s.Ready m u k [a, b] [t] → b ≠ 0 → t ≠ 0 →
      s.Runs m u k (.rldBlock true a b r h t) fun c =>
        s.claims k (if hh.aper = 0 then [(p.2, 128)] else []) [(y.toNat, 128)]
          { s.asks m u k t (c.wroteRange k [(y.toNat, 128)]) with
            ops := c.ops ++ [{ base with
              kind := .readBlock, src := if hh.aper = 0 then none else some p.1, dstOff := y.toNat, len := 128, next := 0 }] }))

/-- R261, R263: a one-sided operation through a handle of the issuing cell is performed in its issue cycle: the word is
written or read there, LTOK takes the null token but for rld, and st is delivered in the next cycle. A local atomic on an
uncorrectable word taints the strand when that token lands, as a local amo does when its result lands; an rld does when st is
read (R430). -/
def Obligations.OneSidedLocal : Prop :=
  ∀ (s : State) (m u k : Nat) (a b : BitVec 6) (r : BitVec 1) (h : BitVec 4) (t : BitVec 6) (c : Nat),
    let cell := s.cell m u
    let hh := s.rh m u k h.toNat
    let y := s.rs m u k b
    let old := memWord cell.mem c
    let nullTok : Landing := { s.result m u k (.sp 4) (.word 0) 1 with taint := s.taintOf m u c 4 }
    let notes : List Note := if cell.corrupt c 4 then [.taint 0xC0] else []
    let ea (kind : Access) : Prop :=
      s.ea m u k h.toNat (s.rs m u k a).toInt 4 kind = .ok c false false ∧ cell.held kind c 4 = false
    s.NoErrors m u k → s.DeclaresH m u k [h.toNat] → hh.valid = true → hh.aper = 0 → (cell.spire = true → c < 2 ^ 20) →
    (s.Ready m u k [a] [t] → t ≠ 0 → ea .load → cell.flips = [] → s.Runs m u k (.rld true a r h t) (s.answers m u k t old notes)) ∧
    (ea .store →
      let stores (i : Instr) : Prop := s.Runs m u k i fun x =>
        s.answers m u k t 0 [] (((s.landsTok m u k 0 x).wrote k c).storeBytes c (leBytes 4 y.toNat))
      (s.Ready m u k [a, b] (tokenRegs t) → stores (.rst true a b r h t)) ∧
      (s.Ready m u k [a, b, t] (tokenRegs t) → s.rs m u k t = 0 → stores (.rstc true a b r h t))) ∧
    (s.Ready m u k [a, b] (tokenRegs t) → ea .atomic → cell.flips = [] →
      let atomic (i : Instr) (z : Word) : Prop := s.Runs m u k i fun x =>
        s.answers m u k t old []
          ((x.onStrand k fun st => { st with landing := st.landing ++ [nullTok] }).storeBytes c (leBytes 4 z.toNat))
      atomic (.rfadd true a b r h t) (fpAddRNE old y) ∧ atomic (.radd true a b r h t) (old + y) ∧
        atomic (.rmax true a b r h t) (if old.toInt ≤ y.toInt then y else old) ∧ atomic (.rswp true a b r h t) y)

/-- R360 to R363, R375 to R378: the token instructions. tchk of a token of this cell, or of the null token, delivers its
status; twt of a token that has landed is an acquire, and a twt of a pending one waits; tjoin of two pending tokens of this
cell takes a JOIN entry of count 2. That the join of two pending tokens on a Spire core, which has no token table, is a free
value is the model's choice (log 6). -/
def Obligations.TokenInstructions : Prop :=
  ∀ (s : State) (m u k : Nat) (a b t : BitVec 6),
    let c := s.cell m u
    let x := s.rs m u k a
    let y := s.rs m u k b
    let chip := s.chip m
    let done (x : Word) : Prop := x = 0 ∨ tokenLocal chip u x = true ∧ c.tokenPending x = false
    (s.Ready m u k [a] [t] → t ≠ 0 →
      (x = 0 ∨ tokenLocal chip u x = true →
        s.Runs m u k (.tchk true a t) (s.answers m u k t
          (if c.tokenPending x then 0 else if c.tokenErr x ≠ 0 then 3 else 1) [.concerns (c.tokensOf chip u x)])) ∧
      (x ≠ 0 → tokenLocal chip u x = false → exec (.tchk true a t) s = .next ((s.left m u k 2 fun c =>
        { s.asks m u k t c with waits := c.waits ++ [⟨.query k (s.ps m u k t) s.op, x, s.cycle, 0, .out⟩] }).send m u 0
          (tokenOrigin x) 5 (.query x s.op)))) ∧
    (s.Ready m u k [a] [] →
      (done x → s.NoErrors m u k → s.Runs m u k (.twt true a) fun c => c.onStrand k fun st => { st with lacq := s.cycle }) ∧
      (tokenLocal chip u x = true → c.tokenPending x = true →
        exec (.twt true a) s = .next (s.stalled m u k (s.strand m u k).waiting)) ∧
      (x ≠ 0 → tokenLocal chip u x = false →
        (∀ w, c.waitOf (.strand k) = some w → w.state = .landed → s.NoErrors m u k →
          s.Runs m u k (.twt true a) fun c => c.onStrand k fun st => { st with lacq := s.cycle }) ∧
        (c.waitOf (.strand k) = none → (s.strand m u k).waiting.engine = none →
          exec (.twt true a) s = .next (((s.stalled m u k
            { (s.strand m u k).waiting with engine := some ⟨s.cycle, none, false, false⟩ }).onCell m u fun c =>
              { c with waits := c.waits ++ [(⟨.strand k, x, s.cycle, 0, .out⟩ : TokenWait)] }).send m u 0 (tokenOrigin x) 5
                (.watch x 0))))) ∧
    (s.Ready m u k [a, b] [t] → t ≠ 0 →
      (done x → done y → s.Runs m u k (.tjoin true a b t) (s.answers m u k t 0 [])) ∧
      (done x → ¬ done y → s.Runs m u k (.tjoin true a b t) (s.answers m u k t y [])) ∧
      (¬ done x → done y → s.Runs m u k (.tjoin true a b t) (s.answers m u k t x [])) ∧
      (¬ done x → ¬ done y → c.spire = true → exec (.tjoin true a b t) s = .next { s.left m u k 2
        (s.answers m u k t (Config.spireJoin s.free) []) with free := s.free + 1 }) ∧
      (¬ done x → ¬ done y → c.spire = false → ∀ e, c.freeToken = some e →
        ∃ t', exec (.tjoin true a b t) s = .next t' ∧ t'.last = .issued ∧ (t'.cell m u).mem = c.mem ∧
          ((t'.cell m u).token e).state = .join ∧ ((t'.cell m u).token e).ina = x ∧ ((t'.cell m u).token e).inb = y) ∧
      (¬ done x → ¬ done y → c.spire = false → tokenLocal chip u x = true → tokenLocal chip u y = true →
        ∀ e, c.freeToken = some e →
        let gen : BitVec 4 := if (c.token e).gen = 15 then 1 else (c.token e).gen + 1
        s.Runs m u k (.tjoin true a b t) fun c =>
          { s.answers m u k t (BitVec.ofNat 32 (chip * 2 ^ 22 + u * 2 ^ 12 + gen.toNat * 2 ^ 8 + e)) [] c with
            tokens := tput c.tokens e { TokEntry.free with
              state := .join, gen := gen, recid := (s.strand m u k).recid.toNat, k := k, count := 2, ina := x, inb := y } }))

/-- R275 to R277, R286 to R292: the channel instructions: a push takes a buffer of each of its out-channels, in the slot that the
first one's pointer names (for the members of a group whose pointers differ this is the model's reading, log 33), and its packet's
payload is to be read; a pop claims the next slot; a release waits for earlier reads; sset writes a field and delivers the old
value, and where the field is STATE or a rate word it opens the end, unconfigures it or starts the controller afresh as the tables
say (what an opening resets is the model's reading, log 33); rctl starts the controller afresh. -/
def Obligations.ChannelInstructions : Prop :=
  ∀ (s : State) (m u k : Nat) (a b : BitVec 6) (n : BitVec 5) (o : BitVec 1) (ch : BitVec 4) (t : BitVec 6),
    let c := s.cell m u
    let st := s.strand m u k
    let x := s.rs m u k a
    let y := s.rs m u k b
    let len := y.toNat % 2 ^ 17
    let r := c.record st.entry
    let i := c.inCh n.toNat
    c.spire = false → s.NoErrors m u k →
    (s.Ready m u k [a, b] (tokenRegs t) → n.toNat ≤ 15 → s.Admits m u k x.toNat len false false → x.toNat % 4 = 0 →
      c.scb.length < 32 →
      let job (seq : Word) (tos : List PushTo) (mcast : Bool) : PushJob :=
        { op := s.op, k := k, recid := st.recid.toNat, t := s.ps m u k t, off := x.toNat, len := len, seq := seq
          eos := y.getLsbD 31, poison := st.taint, etag := st.etag, to' := tos, mcast := mcast, begun := false
          data := [], bad := false }
      let fromTrig : Option Word := if y.getLsbD 30 ∨ r.desc.arrival = false then none else st.lastSeq
      let reads : List (Nat × Nat) := if len = 0 then [] else [(x.toNat, len)]
      let to' (slot j : Nat) : PushTo :=
        let z := c.outCh j
        ⟨j, slot, z.peer, z.mode, z.pblk, z.pstv, false⟩
      let takes (slot : Nat) (own : Word) (z : OutChan) : OutChan :=
        { z with
          fbc := z.fbc - 1, wptr := (slot + 1) % z.slots, pblk := false, pstv := false
          seq := if fromTrig.isNone then own + 1 else z.seq }
      (let z := c.outCh n.toNat
       z.owner = st.recid → z.state = .opened → len ≤ z.peerSize → z.grouped = false → z.fbc ≠ 0 →
        s.Runs m u k (.spush true a b n t) fun c => s.claims k reads []
          { s.asks m u k t (c.release k s.cycle) with
            outs := tput c.outs n.toNat (takes z.wptr z.seq z)
            pushes := c.pushes ++ [job (fromTrig.getD z.seq) [to' z.wptr n.toNat] false] }) ∧
      (let g := (c.outs.filter fun p => p.2.grouped && p.2.group == n.toNat).map fun p => p.1
       let own := (c.outCh (g.headD 0)).seq
       let slot := (c.outCh (g.headD 0)).wptr
       g ≠ [] → (∀ j ∈ g, (c.outCh j).owner = st.recid ∧ (c.outCh j).state = .opened ∧ len ≤ (c.outCh j).peerSize ∧
          (c.outCh j).fbc ≠ 0 ∧ (c.outCh j).slots = (c.outCh (g.headD 0)).slots ∧
          (c.outCh j).fbc = (c.outCh (g.headD 0)).fbc) →
        s.Runs m u k (.mcast true a b n t) fun c => s.claims k reads []
          { s.asks m u k t (c.release k s.cycle) with
            outs := (g.foldl (fun c j => c.onOut j (takes slot own)) c).outs
            pushes := c.pushes ++ [job (fromTrig.getD own) (g.map (to' slot)) true] })) ∧
    (s.Ready m u k [] (tokenRegs t) → n.toNat ≤ 15 → t ≠ 0 → i.owner = st.recid → i.popped < i.slots →
      (i.state = .opened ∨ i.state = .dead ∧ i.head.isSome = true) →
      c.scb.length < 32 → s.Runs m u k (.spop true n t) fun c => s.claims k [] [] { s.asks m u k t c with
        ins := tput c.ins n.toNat { i with
          popPtr := (i.popPtr + 1) % i.slots, popped := i.popped + 1
          claims := i.claims ++ [⟨i.popPtr, k, st.recid.toNat, s.op, s.ps m u k t, r.desc.arrival && r.desc.trig == n.toNat⟩] } }) ∧
    (s.Ready m u k [a] [] → n.toNat ≤ 15 → i.owner = st.recid → (i.state = .opened ∨ i.state = .dead) →
      (x.toNat % 128 = 0 → s.Sends m u k (.srel true a n) []) ∧
      (x.toNat % 128 ≠ 0 → x.toNat % 128 + c.releasing n.toNat ≤ i.popped → c.scb.length < 32 →
        s.Runs m u k (.srel true a n) fun c =>
          let w := i.relSpan (i.relPtr + c.releasing n.toNat) (x.toNat % 128)
          { c.release k s.cycle with
            rels := c.rels ++ [⟨s.op, k, st.recid.toNat, n.toNat, x.toNat % 128⟩]
            scb := c.scb ++ [⟨s.op, 4, [], w, [], w, s.op⟩] })) ∧
    (st.tl ≠ 0 →
      (s.Ready m u k [a, t] [t] → t ≠ 0 → c.writeFault (o == 1) ch.toNat (x.toNat % 256) (s.rs m u k t) = 0 →
        let f := x.toNat % 256
        let w := s.rs m u k t
        let old := if o = 1 then (c.outCh ch.toNat).field f else (c.inCh ch.toNat).field f
        let zi := c.inCh ch.toNat
        let zo := c.outCh ch.toNat
        let writes (g : Cell → Cell) : Prop :=
          s.Runs m u k (.sset true a o ch t) fun c => s.answers m u k t (old.getD 0) [] (g c)
        let puts (zi' : InChan) (zo' : OutChan) : Prop :=
          (o = 0 → writes fun c => { c with ins := tput c.ins ch.toNat zi' }) ∧
          (o = 1 → writes fun c => { c with outs := tput c.outs ch.toNat zo' })
        let near (peer : Word) : Prop := peerIsHost peer = false ∧ (peerAddr peer).1.chip = s.chip m
        exec (.sset true a o ch t) s = .next (((s.left m u k 2 id).writeField m u (o == 1) ch.toNat f w).onCell m u
          (s.answers m u k t (old.getD 0) [])) ∧
        (f ≠ 0 → f ≠ 8 → f ≠ 9 → puts (zi.put f w) (zo.put f w)) ∧
        (f = 0 → w = 0 → puts { zi with state := .unconf } { zo with state := .unconf }) ∧
        (f = 0 → w ≠ 0 → (if o = 1 then zo.state else zi.state) = .opened → writes id) ∧
        (f = 0 → w ≠ 0 → o = 1 → zo.state ≠ .opened → near zo.peer → writes fun c => { c with
          outs := tput c.outs ch.toNat { zo with
            state := .opened, fbc := zo.slots, wptr := 0, weight := 256, weightNext := none, weighted := false
            peerSize := ((s.cell m (peerAddr zo.peer).1.unit).inCh (peerAddr zo.peer).2).size, pblk := false, pstv := false
            blk := 0, blkAt := none } }) ∧
        (f = 0 → w ≠ 0 → o = 0 → zi.state ≠ .opened → zi.claims = [] → near zi.peer → writes fun c => { c with
          ins := tput c.ins ch.toNat { zi with
            state := .opened, occ := 0, popPtr := 0, relPtr := 0, popped := 0, arrived := [], wp := 256, wc := 256
            wcNext := none, integ := 0, avg := 0, frozen := false, miss := false, sum := 0, frz := false
            start := s.cycle + 1, omin := 0, omax := 0, hist := List.replicate 16 0, binAt := none } }) ∧
        (f = 8 ∨ f = 9 →
          let z : InChan := { zi with
            rate0 := if f = 8 then w else zi.rate0, rate1 := if f = 9 then w else zi.rate1, integ := 0, sum := 0, frz := false
            wp := 256, wcNext := some (s.cycle + 1, 256), start := s.cycle + 1 }
          (zi.state ≠ .opened → writes fun c => { c with ins := tput c.ins ch.toNat z }) ∧
          (zi.state = .opened → exec (.sset true a o ch t) s = .next (((s.left m u k 2 fun c =>
            { c with ins := tput c.ins ch.toNat z }).send m u 0 (peerAddr zi.peer).1 6
              (.weight (peerAddr zi.peer).2 256)).onCell m u (s.answers m u k t (old.getD 0) []))))) ∧
      (s.Ready m u k [a, b] [] → n.toNat ≤ 15 → i.owner = st.recid → i.state = .opened → rateFault x y i.slots = 0 →
        exec (.rctl true a b n) s = .next ((s.left m u k 2 fun c => { c with
          ins := tput c.ins n.toNat { i with
            rate0 := x, rate1 := y, integ := 0, sum := 0, frz := false, wp := 256, wcNext := some (s.cycle + 1, 256)
            start := s.cycle + 1 } }).send m u 0
          (peerAddr i.peer).1 6 (.weight (peerAddr i.peer).2 256))))

/-- R329, R388 to R394, R431: the barrier instructions, which take effect at the end of their cycle, and qpush and qpop, whose
request is on its way to the queue. -/
def Obligations.BarriersAndQueues : Prop :=
  ∀ (s : State) (m u k : Nat) (a b : BitVec 6) (n : BitVec 5) (h : BitVec 4) (t : BitVec 6),
    let c := s.cell m u
    let st := s.strand m u k
    let x := s.rs m u k a
    let y := s.rs m u k b
    let tb := tget Tbar.reset c.tbs n.toNat
    let rid := st.recid.toNat
    let ready : Prop := (x.toNat % 256 = tb.phase.toNat ∧ tb.state = .done) ∨
      128 ≤ (x.toNat % 256 + 256 - tb.phase.toNat) % 256
    (c.spire = false → n.toNat < (s.desc m u k).tbars →
      (s.Ready m u k [a, b] (tokenRegs t) →
        (x.getLsbD 31 = true ∨ tb.state ≠ .armed → c.scb.length < 32 →
          s.Runs m u k (.tbinit true a b n t) fun c => s.claims k [] [] { s.asks m u k t c with
            tbjobs := c.tbjobs ++ [⟨s.op, k, rid, n.toNat, true, x, y, s.ps m u k t⟩] }) ∧
        (ready ∨ (∃ w, st.waiting.engine = some w ∧ w.failed = true) ∨
            (let limit := y.toNat % 2 ^ 16 * 256
             limit ≠ 0 ∧ ∃ f, st.waiting.first = some f ∧ f + limit ≤ s.cycle) →
          s.Runs m u k (.tbwait true a b n t) fun c =>
            s.answers m u k t (BitVec.ofNat 32 (tb.phase.toNat * 2 ^ 24 + if tbReady tb x then 1 else 2)) []
              (c.onStrand k fun st => { st with lacq := s.cycle }))) ∧
      (s.Ready m u k [a] (tokenRegs t) → c.scb.length < 32 → s.Runs m u k (.tbarr true a n t) fun c => s.claims k [] []
        { s.asks m u k t (c.release k s.cycle) with
          tbjobs := c.tbjobs ++ [⟨s.op, k, rid, n.toNat, false, x, 0, s.ps m u k t⟩] })) ∧
    (s.Ready m u k [a, b] [t] → t ≠ 0 → s.DeclaresH m u k [h.toNat] → c.scb.length < 32 →
      let v := s.sees m u k (.nop true)
      let wait (push : Bool) : QueueWait := ⟨s.op, k, rid, push, x.toNat / 128, y.toNat, s.ps m u k t, false⟩
      (v.queueChecks true h.toNat x y = [] → s.Runs m u k (.qpush true a b h t) fun c => s.claims k [(y.toNat, 16)] []
        { s.asks m u k t (c.release k s.cycle) with qwaits := c.qwaits ++ [wait true] }) ∧
      (v.queueChecks false h.toNat x y = [] → s.Runs m u k (.qpop true a b h t) fun c =>
        s.claims k [] [(y.toNat, 16)]
          { s.asks m u k t ((c.onStrand k fun st => { st with lacq := s.cycle }).wroteRange k [(y.toNat, 16)]) with
            qwaits := c.qwaits ++ [wait false] }))

/-! ### The machine's own steps (the events of the opcode table), on the subject that the focus names -/

/-- R333 to R348, R405: a BOUND record starts on its free strand, at its kernel's prologue or, with an EOS packet at the
head of its channel, at its epilogue; a PARKED record takes its strand and goes on at its saved bundle; an entry ages by one
step. That the first step of ageing comes after two AGELIM (log 23), and the cycles in which a start, a save and a restore
end (log 24), are the model's reading. R297, R298: once in a cycle every bucket of a listed cell takes the weight of its
strand, up to 1,024; that weight is the least of WGT.NOM, the module's ceiling and the weights that controllers have
assigned to the strand's record (at which ends a weight counts: log 33; the ceiling as a Spire core's weight: log 45). R165,
R347: a cell issues from a ready strand of highest PRIO.EFF: from the only one, or from one of several that has not yielded
in the cycle before; where no strand is ready, from none. -/
def Obligations.RecordStepsRun : Prop :=
  (∀ s : State,
    let m := s.focus.m
    let u := s.focus.u
    let j := s.focus.j
    let c := s.cell m u
    (∀ e, c.strandFree j = true → c.nextRecord j = some e →
      let r := c.record e
      let d := r.desc
      let new : Strand :=
        { Strand.reset with
          mode := .running
          entry := e
          recid := recordId r.gen e
          s := Vector.ofFn fun i : Fin 64 =>
            if 1 ≤ i.val ∧ i.val ≤ 8 then d.launch.getD (i.val - 1) 0
            else if i.val = 62 then BitVec.ofNat 32 d.spoff else 0
          h := Vector.ofFn fun i : Fin 16 =>
            if i.val = 0 then ⟨0xA7000000, BitVec.ofNat 32 d.wbase, BitVec.ofNat 32 d.wsize, 0⟩ else Handle.zero
          spill := BitVec.ofNat 32 d.spill
          tvec := d.tvec
          lacq := s.cycle
          lastIssue := s.cycle }
      (r.state = .bound → c.trigOf d = .eos → s.Changes m u .recordStart fun c =>
        (c.setStrand r.strand { new with pc := d.epi, lc := d.trips }).onRecord e fun r =>
          { r with state := .running, eligible := none, ageFrom := s.cycle, prioEff := r.prioDecl }) ∧
      (r.state = .bound → c.trigOf d ≠ .eos → r.iterAt = none → s.Changes m u .recordStart fun c =>
        (c.setStrand r.strand
            { new with pc := d.pro, iter := 1, lc := if d.arrival then d.trips else d.trips - 1 }).onRecord e fun r =>
          { r with
            state := .running, eligible := none, ageFrom := s.cycle, prioEff := r.prioDecl, iterAt := some s.cycle }) ∧
      (r.state = .parked → c.ctxJob = none → s.Changes m u .contextRestore fun c =>
        { (c.onStrand r.strand fun st => { st with mode := .engine, entry := e, recid := recordId r.gen e }).onRecord e fun r =>
            { r with state := .running, eligible := none } with
          ctxQueue := c.ctxQueue ++ [.restore r.strand e] })) ∧
    (∀ e t st, c.ctxJob = some (.restore j e, t) → t ≤ s.cycle → c.underRepair (slotAt e) 14336 = false →
      (c.record e).saved = some st →
      s.Changes m u .contextRestore fun c =>
        ({ c with ctxJob := none }.setStrand j { st with lastIssue := s.cycle }).onRecord e fun r =>
          { r with saved := none, ageFrom := s.cycle }) ∧
    (∀ e t k, c.ctxJob = some (.save k e, t) → t ≤ s.cycle → c.underRepair (slotAt e) 14336 = false → k < 4 →
      (c.record e).cancelled = false →
      ∃ t', exec .contextSaveComplete s = .next t' ∧ (t'.cell m u).ctxJob = none ∧
        (t'.cell m u).record e = { c.record e with
          state := .parked, saved := some { c.strand k with mode := .running, preq := false }, ageFrom := s.cycle } ∧
        t'.strand m u k = (c.strand k).retire .idle ∧ t'.net = s.net ∧ t'.cycle = s.cycle) ∧
    (∀ x, c.endStatus j = some x → c.busy (recordId (c.record j).gen j).toNat none = false →
      c.ownedIns (recordId (c.record j).gen j) = [] → c.ownedOuts (recordId (c.record j).gen j) = [] →
      ∃ t', exec .recordEnd s = .next t' ∧ (t'.cell m u).mem = c.mem ∧
        (t'.cell m u).record j = { c.record j with
          state := .ended, status := x, endOrder := c.ends + 1, saved := none, ending := none, eligible := none } ∧
        (∃ y, t'.net = s.net ++ [y] ∧ y.dst = ⟨s.chip m, 2048⟩ ∧
          y.body = .endNote 1 (c.record j).placement x.code (c.record j).phase (c.record j).job) ∧
        ∀ k < 4, (c.strand k).entry = j → (t'.strand m u k).mode = .idle) ∧
    (let r := c.record j
     let st := c.strand r.strand
     let due (n : Nat) : Prop := n + 2 * c.agelim.toNat ≤ s.cycle
     c.agelim ≠ 0 → r.prioEff < r.desc.ceil →
      (r.state ≠ .running ∧ r.eligible.isSome = true ∧ due r.ageFrom ∨
        r.state = .running ∧ st.mode = .running ∧ st.entry = j ∧ st.ready = true ∧ due st.lastIssue ∧ due r.ageFrom) →
      s.Changes m u .prioAging fun c =>
        c.onRecord j fun r => { r with prioEff := r.prioEff + 1, ageFrom := s.cycle - c.agelim.toNat })) ∧
  ((∀ s : State, s.phase = .refill → ∃ t, exec .pacingBucketRefill s = .next t ∧
    t = { s with phase := .tick, mods := t.mods } ∧
    ∀ m u k, k < 4 →
      t.strand m u k = { s.strand m u k with
        bucket := min ((s.strand m u k).bucket + s.weightEff m u k) 1024 }) ∧
  (∀ (s : State) (m u k : Nat),
    let c := s.cell m u
    let rid := (c.strand k).recid
    let nominal := (c.record (c.strand k).entry).desc.weight
    let ceil := (s.mod m).io.ceilNow
    -- a weight that a controller has assigned to the record, as consumer or as producer
    let assigned (w : Nat) : Prop :=
      (∃ n y, (n, y) ∈ c.ins ∧ y.owner = rid ∧ y.state = .opened ∧ w = y.wc) ∨
      (∃ n y, (n, y) ∈ c.outs ∧ y.owner = rid ∧ y.weighted = true ∧ w = y.weight)
    let w := s.weightEff m u k
    (c.spire = false → w ≤ nominal ∧ w ≤ ceil ∧ (∀ v, assigned v → w ≤ v) ∧ (w = nominal ∨ w = ceil ∨ assigned w)) ∧
    (c.spire = true → w = min 256 ceil)) ∧
  ∀ (c : Cell) (cycle : Nat) (w : Nat → Nat),
    let top (k : Nat) : Prop :=
      k < 4 ∧ (c.strand k).ready = true ∧ ∀ j < 4, (c.strand j).ready = true → c.prioOf j ≤ c.prioOf k
    (∀ k t, c.choose cycle w = (some k, t) →
      top k ∧ ∀ j, top j → j ≠ k → 0 < cycle → (c.strand k).yielded ≠ some (cycle - 1)) ∧
    ((∀ k, ¬ top k) → c.choose cycle w = (none, c)) ∧
    (∀ k, top k → (∀ j, top j → j = k) → c.choose cycle w = (some k, c)))

/-- R215 to R220, R228, R233, R237, R241: a wld starts and completes, an mswap flips, a row reaches the accumulators, the
drain unit reads a row and lets one leave, and the parameters of a chain have been read. When a command leaves the queue for
its unit, and that a wld reads its tile as it stands at its end, are the model's reading (log 31). So are the counters of a
poisoned row (log 32). -/
def Obligations.ArrayStepsRun : Prop :=
  ∀ s : State,
    let m := s.focus.m
    let u := s.focus.u
    let c := s.cell m u
    let a := c.arr
    (∀ w r, a.wlds = w :: r → w.endAt = none → w.issue < s.cycle → w.bank ≠ a.act →
      (a.bank w.bank).state = .empty ∨ (a.bank w.bank).state = .ready →
      ((a.bank w.bank).since < s.cycle ∨ (a.bank w.bank).since = 0) → a.taken.contains w.op = true →
      (∀ p ∈ a.passes, p.swap = true → w.op < p.op) → c.scbClear w.op w.reads [] = true →
      c.repairHolds [(w.data, tileBytes w.fmt), (w.scales, 256)] = false → (∀ x ∈ r, x.op ≠ w.op) →
      let tile := w.tile c
      s.Changes m u .wldExpansionStart fun c => { c with arr :=
        { a with
          banks := a.banks.modify w.bank fun b => { b with state := .loading }
          wlds := { w with endAt := some (s.cycle + max ((tileBytes w.fmt + 256 + (if w.reads = [] then 256 else 128) - 1) /
            (if w.reads = [] then 256 else 128)) (16 * (expandTile w.fmt tile.1 tile.2 w.cols w.chk).1.pass)) } :: r } }) ∧
    (∀ w, c.endingWld s.cycle = some w → c.flips = [] →
      let tile := w.tile c
      let rest := a.wlds.filter fun x => x.op != w.op
      (∀ f, tileFault w.fmt tile.1 tile.2 = some f → s.Changes m u .wldComplete fun c =>
        { c with arr := { a with
            wlds := rest, banks := a.banks.modify w.bank fun _ => { Bank.empty with since := s.cycle } } }.arrayDone
          s.cycle s.cycle w.op w.k w.recid w.t 0 [(0x51, BitVec.ofNat 32 f)] []) ∧
      (tileFault w.fmt tile.1 tile.2 = none →
        let b := (expandTile w.fmt tile.1 tile.2 w.cols w.chk).1
        let n := (expandTile w.fmt tile.1 tile.2 w.cols w.chk).2
        s.Changes m u .wldComplete fun c =>
          ({ c with
            arr := { a with wlds := rest, banks := a.banks.modify w.bank fun _ => { b with since := s.cycle } } }.count fun x =>
              { x with
                wldRange := countUpBy x.wldRange n
                nanOut := countUpBy x.nanOut (nanWeights w.fmt tile.1 w.cols) }).arrayDone
            s.cycle s.cycle w.op w.k w.recid w.t
            (BitVec.ofNat 32 (min 0xFFFF n * 2 ^ 16 + (BitVec.ofInt 8 b.x).toNat * 2 ^ 8 + b.pass)) [] [])) ∧
    (∀ p, a.passHead = some p → p.swap = true → p.issue < s.cycle → a.passFree ≤ s.cycle → (∀ w ∈ a.wlds, p.op < w.op) →
      ∃ t, exec .mswapFlip s = .next t ∧ (t.cell m u).arr.act = 1 - a.act ∧
        (t.cell m u).arr.passes = a.passes.filter (fun x => x.op != p.op) ∧
        (t.cell m u).deliveries = c.deliveries ++
          (if p.t = 0 then [] else [⟨s.cycle + 1, p.k, p.op, p.t, BitVec.ofNat 32 (1 - a.act), []⟩]) ∧
        (t.cell m u).mem = c.mem ∧ (t.cell m u).arr.rows = a.rows ∧ (t.cell m u).strands = c.strands) ∧
    (∀ x p, c.nextFlight s.cycle = some x → a.passes.find? (fun p => p.op == x.op) = some p → p.done + 1 < p.m.rows →
      let r := (a.row x.row).add (p.m.amode == 1) x
      ∃ t, exec .arrayRowAccumulate s = .next t ∧
        (t.cell m u).arr.rows = tput a.rows x.row { r.1 with poison := r.1.poison || (x.poisoned || x.failed) } ∧
        (t.cell m u).arr.flight = a.flight.filter (fun y => !(y.op == x.op && y.row == x.row)) ∧
        (t.cell m u).cnts.accSat = countUpBy c.cnts.accSat r.2.1 ∧
        (t.cell m u).cnts.sdcMismatch = countUpBy c.cnts.sdcMismatch x.failed.toNat ∧
        (t.cell m u).mem = c.mem ∧ (t.cell m u).strands = c.strands ∧ (t.cell m u).deliveries = c.deliveries) ∧
    (∀ d, c.drainDue s.cycle = some d → c.flips = [] →
      (d.out = none → s.Changes m u .drainRow fun c => c.drainRead s.cycle d) ∧
      (∀ o, d.out = some o → d.dropped = false → d.channel = none →
        let off := match d.accf with
          | some f => f + 256 * d.next
          | none => d.dst + outStride d.nodes * d.next
        ∃ t, exec .drainRow s = .next t ∧ (t.cell m u).mem = memWrite c.mem off o.data)) ∧
    (∀ g, c.endingArming s.cycle = some g → c.flips = [] →
      let nodes := g.nodes
      let words : List (List Word) := nodes.map fun n =>
        wordsOf (memBytes c.mem n.off (if n.kind = kindBIAS then 256 else if n.kind = kindACT ∧ n.mode = 3 then 2048 else 0))
      s.Changes m u .chainParametersRead fun c =>
        { c with arr := { a with
            armings := a.armings.filter fun x => x.op != g.op
            pars := a.pars.map fun (p : ChainPar) => if p.arming = g.op then
              { p with words := words, loaded := true } else p } }.arrayDone
          s.cycle s.cycle g.op g.k g.recid g.t 0 [] [])

/-- R248, R254, R257, R260, R389: a request that carries no token is performed at its destination when it arrives, and
answered: a write with a landed acknowledgement, a read with its data, an atomic with the old word and an acknowledgement,
which are two answers by the model's reading (log 29); one that the cell does not admit with REFUSED. A copy counts its
arrival at its barrier with the last of its sectors to be performed, in the same cycle (log 27). R257, R260, R264, R364,
R372: the answers at the source of a command with one request out: rld takes its word, a store's landed acknowledgement
lands its token, an error response lands it with the error, which also waits for the strand's next command. -/
def Obligations.RequestsAndAnswers : Prop :=
  (∀ (s : State) (x : Msg) (r : Req), s.Brings x (.request r) →
    let m := x.mod
    let u := x.dst.unit
    let c := s.cell m u
    let t := s.dropMsg x.id
    let answer (t : State) (vc : Nat) (b : Body) : State := t.send m u x.strand x.src vc b
    u < 1032 → c.underRepair r.off r.size = false → s.isLocal x r = false → r.carry = 0 →
    (c.admits (isSpire x.src.unit) r = false →
      ∀ i, (r.kind = .write ∧ i = (if r.copy then .copySectorPerform else .remoteStorePerform)) ∨
          ((∃ n, r.kind = .read n) ∧ i = .remoteReadPerform) ∨ ((∃ k, r.kind = .atomic k) ∧ i = .remoteAtomicPerform) →
        exec i s = .next (answer t 4 (.error r.op r.sector (BitVec.ofNat 32 (0x02010000 +
          (if r.copy then r.sector else 0) % 65536))))) ∧
    (c.admits (isSpire x.src.unit) r = true → (u = 0 → r.off + r.size ≤ 0x700000) → r.off < 0x700000 → 0 < r.size →
      (r.kind = .write → r.copy = false → r.tbar = none → exec .remoteStorePerform s =
        .next (answer (t.setCell m u (c.engineWrite r.off r.data r.bad)) 5 (.ack r.op r.sector))) ∧
      (r.kind = .write → r.copy = true → r.tbar = none → exec .copySectorPerform s =
        .next (answer (t.setCell m u (c.engineWrite r.off r.data r.bad)) 5 (.ack r.op r.sector))) ∧
      (∀ b, r.kind = .write → r.copy = true → r.tbar = some b →
        let before := (c.parts.filter fun p => p.1 == x.src && p.2.1 == r.op).foldl (fun n p => n + p.2.2) 0
        ∃ t', exec .copySectorPerform s = .next t' ∧ (t'.cell m u).mem = memWrite c.mem r.off r.data ∧
          (t'.cell m u).tbar b = { c.tbar b with
            arr := min 0xFFFF ((c.tbar b).arr + if before + 1 = r.sectors then 1 else 0)
            sec := min 0xFFFFFF ((c.tbar b).sec + 1) }) ∧
      (∀ n, r.kind = .read n → c.flips = [] →
        let data := memBytes c.mem r.off n
        exec .remoteReadPerform s = .next (answer t 4 (.response r.op r.sector
          (BitVec.ofNat 32 (leNat (data.take 4))) (if n = 4 then [] else data) (c.badUnits r.off n)
          (!(c.badUnits r.off n).isEmpty)))) ∧
      (∀ k, r.kind = .atomic k → c.flips = [] →
        let old := memWord c.mem r.off
        exec .remoteAtomicPerform s = .next (answer (answer
          (t.setCell m u (c.storeBytes r.off (leBytes 4 (atomicWord k old r.operand).toNat)))
          4 (.response r.op r.sector old [] [] false)) 5 (.ack r.op r.sector))))) ∧
  (∀ (s : State) (x : Msg) (o : EngOp) (q : OutReq),
    let m := x.mod
    let u := x.dst.unit
    let c := s.cell m u
    let st := c.strand o.k
    c.engOp o.op = some o → o.out = [q] → o.next = 1 → o.done = 0 → o.err = 0 → o.andThen = 0 →
    (∀ (w : Word) (data : List Byte) (bad : List Nat) (tainted : Bool), s.Brings x (.response o.op q.req.sector w data bad tainted) →
      o.kind = .readWord → o.entry = none → q.req.kind ≠ .write →
      ∃ t, exec .responseArrival s = .next t ∧ (t.cell m u).mem = c.mem ∧ (t.cell m u).strands = c.strands ∧
        (t.cell m u).ops = c.ops.filter (fun p => p.op != o.op) ∧
        (t.cell m u).deliveries = c.deliveries ++
          [⟨s.cycle + 1, o.k, o.op, o.t, w, if tainted then [.taint 0xC0] else []⟩]) ∧
    (∀ i, o.entry = some i → o.kind = .store → (c.token i).state = .pending → (c.token i).count = 1 →
      (c.token i).err = 0 → (∀ y ∈ (c.token i).slots, y = none) →
      let slots := (c.token i).slots.map fun _ => (none : Option Slot)
      (s.Brings x (.ack o.op q.req.sector) →
        ∃ t, exec .landedAck s = .next t ∧ (t.cell m u).mem = c.mem ∧ (t.cell m u).strands = c.strands ∧
          (t.cell m u).ops = c.ops.filter (fun p => p.op != o.op) ∧
          (t.cell m u).token i = { c.token i with state := .landed, count := 0, order := c.landings, slots := slots } ∧
          t.net = (s.dropMsg x.id).net) ∧
      (∀ w : Word, w ≠ 0 → w.toNat / 65536 ≠ 0x0207 → o.k < 4 → st.mode ≠ .idle → st.recid.toNat = o.recid →
        s.Brings x (.error o.op q.req.sector w) →
        ∃ t, exec .errorResponse s = .next t ∧ (t.cell m u).mem = c.mem ∧
          (t.cell m u).ops = c.ops.filter (fun p => p.op != o.op) ∧
          (t.cell m u).token i =
            { c.token i with state := .landedErr, count := 0, err := w, order := c.landings, slots := slots } ∧
          ∃ e : WaitingErr, t.strand m u o.k = { st with errs := st.errs ++ [e] } ∧
            e.op = o.op ∧ e.cause = 0x32 ∧ e.val = w ∧ e.token = o.token)))

/-- R366 to R372: carried requests. At the destination: held, with a WATCH to the token's origin, or turned back when the
hold queue is full; performed once READY, or answered with REFUSED where the region check then fails; turned back with
EXPIRED. At the source: HELD and NACK are noted, and a request whose back-off has ended may be sent again. That every
carried request takes a slot of its own is the model's reading (log 29). R364, R365, R368, R370, R371, R376, R377: WATCH,
which turns a slot SENT for its node into WATCHING or else takes a NONE slot, RELEASE and BUSY, and the queries of tchk,
with their retries and timeouts. -/
def Obligations.CarriedStepsRun : Prop :=
  (∀ s : State,
    let f := s.focus
    (∀ (x : Msg) (r : Req), s.Brings x (.request r) → x.dst.unit < 1032 →
      (s.cell x.mod x.dst.unit).underRepair r.off r.size = false → r.carry ≠ 0 → s.isLocal x r = false →
      let m := x.mod
      let u := x.dst.unit
      let c := s.cell m u
      ((s.cell m u).freeHold = none → exec .carriedRequestArrival s =
        .next ((s.dropMsg x.id).send m u x.strand x.src 4 (.nack r.op r.sector))) ∧
      (∀ j, c.freeHold = some j → exec .carriedRequestArrival s =
        .next ((((s.dropMsg x.id).setCell m u { c with
            hold := tput c.hold j ⟨r, x.src, x.strand, s.cycle, c.arrivals, none⟩, arrivals := c.arrivals + 1 }).send
          m u x.strand x.src 5 (.held r.op r.sector)).send m u 0 (tokenOrigin r.carry) 5 (.watch r.carry (j + 1))))) ∧
    (let c := s.cell f.m f.u
     (∀ j e, c.nextHold s.cycle = some (j, e) → c.underRepair e.req.off e.req.size = false →
        let r := e.req
        let c' := { c with hold := tdel c.hold j }
        let answer (t : State) (vc : Nat) (b : Body) : State := t.send f.m f.u e.strand e.src vc b
        (c.admits (isSpire e.src.unit) r = false → exec .holdEntryPerform s = .next (answer (s.setCell f.m f.u c') 4
          (.error r.op r.sector (BitVec.ofNat 32 (0x02010000 + (if r.copy then r.sector else 0) % 65536))))) ∧
        (c.admits (isSpire e.src.unit) r = true → onQueuePage f.u r = false → r.off < 0x700000 →
          (r.kind = .write → r.tbar = none → exec .holdEntryPerform s = .next (answer
            (s.setCell f.m f.u (c'.engineWrite r.off r.data r.bad)) 5 (.ack r.op r.sector))) ∧
          (∀ k, r.kind = .atomic k → c.flips = [] →
            let old := memWord c.mem r.off
            exec .holdEntryPerform s = .next (answer (answer
              (s.setCell f.m f.u (c'.storeBytes r.off (leBytes 4 (atomicWord k old r.operand).toNat)))
              4 (.response r.op r.sector old [] [] false)) 5 (.ack r.op r.sector))))) ∧
     (∀ e, c.hold.find? (fun p => p.1 == f.j && p.2.ready.isNone && decide (c.tokexpNow.toNat ≤ s.cycle - p.2.since)) = some (f.j, e) →
        exec .holdEntryExpiry s = .next ((s.setCell f.m f.u { c with hold := tdel c.hold f.j }).send f.m f.u e.strand e.src 4
          (.error e.req.op e.req.sector (BitVec.ofNat 32 (0x02070000 + e.req.carry.toNat % 65536))))) ∧
     (∀ q t, c.outReq f.j f.v = some q → q.state = .backoff t → t ≤ s.cycle → q.nacks ≠ 0 →
        s.Changes f.m f.u .nackBackoffExpiry fun c => c.onOutReq f.j f.v fun q => { q with state := .ready })) ∧
    (∀ (x : Msg) (op sector : Nat), s.Brings x (.held op sector) →
      s.Takes x .held fun c => c.onOutReq op sector fun q => { q with state := .held }) ∧
    (∀ (x : Msg) (op sector : Nat) (q : OutReq), s.Brings x (.nack op sector) →
      let c := s.cell x.mod x.dst.unit
      c.outReq op sector = some q → s.cycle - q.first < c.tokexp.toNat →
      s.Takes x .nack fun c => c.onOutReq op sector fun q =>
        { q with nacks := q.nacks + 1, state := .backoff (s.cycle + 256 * 2 ^ (min (q.nacks + 1) 6 - 1)) })) ∧
  (∀ (s : State) (x : Msg),
    let f := s.focus
    let m := x.mod
    let u := x.dst.unit
    let c := s.cell m u
    let back (b : Body) : State := (s.dropMsg x.id).send m u 0 x.src 5 b
    (∀ (t : Word) (tag : Nat), s.Brings x (.watch t tag) → u < 1024 →
      let i := t.toNat % 256
      let node := x.src.chip * 4096 + x.src.unit
      (tokenLocal (s.chip m) u t = false ∨ c.tokenPending t = false → exec .watch s = .next (back (.release t))) ∧
      (tokenLocal (s.chip m) u t = true → c.tokenPending t = true →
        let slots := (c.token i).slots
        let sets (l : List (Option Slot)) : Prop := s.Takes x .watch fun c => c.onToken i fun e => { e with slots := l }
        (∀ j, slots[j]? = some (some ⟨node, false⟩) → (∀ l < j, slots[l]? ≠ some (some ⟨node, false⟩)) →
          sets (slots.set j (some ⟨node, true⟩))) ∧
        (some ⟨node, false⟩ ∉ slots → some ⟨node, true⟩ ∈ slots → sets slots) ∧
        (some ⟨node, false⟩ ∉ slots → some ⟨node, true⟩ ∉ slots →
          (∀ j, slots[j]? = some none → (∀ l < j, slots[l]? ≠ some none) → sets (slots.set j (some ⟨node, true⟩))) ∧
          (none ∉ slots → exec .watch s = .next (back (.busy t tag)))))) ∧
    (∀ t : Word, s.Brings x (.release t) → s.Takes x .release fun c =>
      { c with
        waits := c.waits.map fun w =>
          if w.token == t && w.open' && !w.isQuery then { w with state := .landed } else w
        hold := c.hold.map fun p =>
          (p.1, if p.2.req.carry = t ∧ p.2.ready = none then { p.2 with ready := some s.cycle } else p.2) }) ∧
    (∀ (t : Word) (tag : Nat), s.Brings x (.busy t tag) →
      (∀ w, tag = 0 → c.outWait t = some w → s.Takes x .busy fun c =>
        { c with waits := c.waits.map fun y => if y.what == w.what then
            { y with tries := y.tries + 1, state := .backoff (s.cycle + 256 * 2 ^ (min (w.tries + 1) 6 - 1)) } else y }) ∧
      (∀ j e, tag = j + 1 → c.hold.find? (fun p => p.1 + 1 == tag && p.2.req.carry == t && p.2.ready.isNone) = some (j, e) →
        exec .busy s = .next (((s.dropMsg x.id).setCell m u { c with hold := tdel c.hold j }).send m u e.strand e.src 4
          (.nack e.req.op e.req.sector)))) ∧
    (∀ (t : Word) (op : Nat), s.Brings x (.query t op) → exec .query s = .next (back (.queryAnswer op (c.tokenStatus t)))) ∧
    (∀ (op : Nat) (w : Word) (k t : Nat) (y : TokenWait), s.Brings x (.queryAnswer op w) → y.what = .query k t op →
      c.waits = [y] → s.Takes x .queryAnswer fun c => { c with
        waits := []
        deliveries := c.deliveries ++ [⟨s.cycle + 1, k, op, t, w, [.concerns (c.tokensOf (s.chip m) u y.token)]⟩] }) ∧
    (let c := s.cell f.m f.u
     ∀ y, c.waits[f.j]? = some y →
      (∀ n, y.state = .backoff n → n ≤ s.cycle → exec .watchRetryExpiry s =
        .next ((s.setCell f.m f.u { c with waits := c.waits.map fun w =>
            if w.what == y.what then { w with state := .out } else w }).send
          f.m f.u 0 (tokenOrigin y.token) 5 (.watch y.token 0))) ∧
      (∀ k, y.what = .strand k → y.open' = true → c.tokexp.toNat ≤ s.cycle - y.first →
        s.Changes f.m f.u .watchTimeout fun c => { c with waits := c.waits.map fun w =>
          if w.what == y.what then { w with state := .failed (BitVec.ofNat 32 (0x02070000 + y.token.toNat % 65536)) }
          else w }) ∧
      (∀ k t op, y.what = .query k t op → y.open' = true → c.tokexp.toNat ≤ s.cycle - y.first → c.waits = [y] →
        s.Changes f.m f.u .queryTimeout fun c => { c with
          waits := []
          deliveries := c.deliveries ++
            [⟨s.cycle + 1, k, op, t, 3, [.concerns (c.tokensOf (s.chip f.m) f.u y.token)]⟩] })))

/-- R271, R275 to R278, R282, R283, R285, R296, R324, R432: what arrives at a channel end: packets, poisoned ones and those
for a record that is missing among them (of one channel no second entry is added while one is held, log 35, and a packet
waits while its slot's bank is under repair, log 41), and credits, the notices that a peer has closed or died, and weights;
and what reaches a host endpoint's record in the I/O die. R276, R281, R285, R287 to R289, R296, R394: what a cell's channel
ends do of themselves: a push reads its payload, 128 bytes a cycle, and then sends the packet, poisoned where a read met an
uncorrectable word, an spop takes a packet that has arrived, a release frees its slots and returns their credits, and a
controller ends its period; and a tbwait reaches its limit. That a release moves the pointer when it completes, and which
weights count, are the model's reading (log 33); so is that a push waits while its payload's bank is under repair (log 41).
-/
def Obligations.ChannelStepsRun : Prop :=
  (∀ (s : State) (x : Msg) (n : Nat),
    let m := x.mod
    let u := x.dst.unit
    let c := s.cell m u
    let io := (s.mod m).io
    let die (f : IoDie → IoDie) : State := (s.dropMsg x.id).setMod m { s.mod m with io := f io }
    (∀ p, s.Brings x (.packet n p) → u < 1024 →
      let y := c.inCh n
      let off := y.slotAt p.slot
      (y.state ≠ .opened → s.Takes x .packetArrival id) ∧
      (y.state = .opened → c.underRepair off (16 + p.payload.length) = false →
        let word1 := p.poison.toNat * 2 ^ 31 + p.eos.toNat * 2 ^ 30 + p.pblk.toNat * 2 ^ 29 + p.pstv.toNat * 2 ^ 28 + p.len
        let lost : Bool := (c.entryOf y.owner).isNone
        let entry : HeldFault := ⟨4 + n, [BitVec.ofNat 32 (0x02000000 + n * 2 ^ 16 + y.owner.toNat),
          BitVec.ofNat 32 (x.dst.chip * 2 ^ 22 + x.dst.unit * 2 ^ 12), p.seq, 0]⟩
        s.Takes x .packetArrival fun c =>
          let d := c.storeBytes off (bytesOf [p.seq, BitVec.ofNat 32 word1,
            BitVec.ofNat 32 (p.etag.toNat * 2 ^ 16 + p.srcrec.toNat), p.origin] ++ p.payload)
          let words := (List.range ((p.len + 7) / 8)).map fun i => (off + 16) / 8 + i
          { d with
            bad := if p.poison then d.bad ++ words.filter fun w => !d.bad.contains w else d.bad
            faults := if lost ∧ y.miss = false ∧ ∀ f ∈ c.faults, f.src ≠ 4 + n then c.faults ++ [entry] else c.faults
            ins := tput c.ins n { y with
              occ := y.occ + 1
              arrived := y.arrived ++ [⟨p.slot, p.seq, p.eos, p.poison, p.etag⟩]
              frz := y.frz || (y.runs s.cycle && (p.pblk || p.pstv))
              miss := y.miss || lost } })) ∧
    (∀ k from', s.Brings x (.credit n k from') →
      (u < 1024 → (c.outCh n).state = .opened →
        s.Takes x .creditArrival fun c => c.onOut n fun y => { y with fbc := y.fbc + k }) ∧
      (u < 1024 → (c.outCh n).state ≠ .opened → s.Takes x .creditArrival id) ∧
      (¬ u < 1024 → exec .creditArrival s = .next (die fun io =>
        let e := tget Ingress.reset io.ingress n
        { io with ingress := tput io.ingress n { e with fbc := e.fbc + k } }))) ∧
    (∀ b, s.Brings x (.close n b) →
      (u < 1024 → (c.outCh n).state = .opened →
        s.Takes x .closeNotice fun c => c.onOut n fun y => { y with state := .closed }) ∧
      (u < 1024 → (c.outCh n).state ≠ .opened → s.Takes x .closeNotice id) ∧
      (let e := tget Ingress.reset io.ingress n
       ¬ u < 1024 → e.nven = false →
        exec .closeNotice s = .next (die fun io => { io with ingress := tput io.ingress n { e with pst := 2 } }))) ∧
    (∀ toOut, s.Brings x (.dead n toOut) →
      (u < 1024 → toOut = false → s.Takes x .deadNotice fun c => if (c.inCh n).state = .opened then
        c.onIn n fun y => { y with state := .dead } else c) ∧
      (u < 1024 → toOut = true → c.pushes = [] → s.Takes x .deadNotice fun c => if (c.outCh n).state = .opened then
        c.onOut n fun y => { y with state := .dead } else c) ∧
      (let e := tget Egress.reset io.egress n
       ¬ u < 1024 → toOut = false → e.en = false →
        exec .deadNotice s = .next (die fun io => { io with egress := tput io.egress n { e with pst := 3 } }))) ∧
    (∀ w, s.Brings x (.weight n w) →
      (u < 1024 → (c.outCh n).state = .opened →
        s.Takes x .weightArrival fun c => c.onOut n fun y => { y with weightNext := some (s.cycle + 1, w.toNat) }) ∧
      (u < 1024 → (c.outCh n).state ≠ .opened → s.Takes x .weightArrival id) ∧
      (¬ u < 1024 → exec .weightArrival s = .next (die fun io =>
        { io with ingress := tput io.ingress n { tget Ingress.reset io.ingress n with wgt := w.toNat } })))) ∧
  (∀ s : State,
    let m := s.focus.m
    let u := s.focus.u
    let n := s.focus.j
    let c := s.cell m u
    let y := c.inCh n
    (∀ j : PushJob, c.pushes.find? (fun j => j.op == n) = some j → j.begun = true → j.data.length < j.len → c.flips = [] →
      let off := j.off + j.data.length
      let step := min 128 (j.len - j.data.length)
      let t := s.readPush m u n
      (c.underRepair off step = true → t = s) ∧
      (c.underRepair off step = false →
        (t.cell m u).pushes.find? (fun j => j.op == n) =
          some { j with data := j.data ++ memBytes c.mem off step, bad := j.bad || c.corrupt off step } ∧
        (t.cell m u).mem = c.mem ∧ (t.cell m u).strands = c.strands ∧
        (t.cell m u).deliveries = c.deliveries ∧ t.net = s.net)) ∧
    (∀ (j : PushJob) (t : PushTo),
      c.pushes.find? (fun j => j.op == n && (j.begun && decide (j.len ≤ j.data.length))) = some j → j.to' = [t] → t.dead = false →
      let data := j.data
      let bad := j.bad
      let left (c : Cell) : Cell := { c.scbDrop j.op with pushes := c.pushes.filter fun x => x.op != j.op }
      exec .pushComplete s = .next
        ((s.send m u j.k (peerAddr t.peer).1 (if t.mode then 1 else 0) (.packet (peerAddr t.peer).2
            { slot := t.slot, srcrec := BitVec.ofNat 16 j.recid
              origin := BitVec.ofNat 32 (s.chip m * 2 ^ 22 + u * 2 ^ 12 + j.k * 2 ^ 10 + t.chan)
              seq := j.seq, len := data.length, eos := j.eos, pblk := t.pblk, pstv := t.pstv
              poison := j.poison || bad, etag := if j.poison then j.etag else if bad then 0xC0 else 0, payload := data })).setCell m u
          (if j.t = 0 then left c
           else { left c with deliveries := c.deliveries ++ [⟨s.cycle + 1, j.k, j.op, j.t, j.seq, []⟩] }))) ∧
    (∀ (q : Claim) (a : Arrived), y.dueClaim = some q → y.arrived.find? (fun a => a.slot == q.slot) = some a →
      q.k < 4 → (c.strand q.k).mode ≠ .idle → (c.strand q.k).recid.toNat = q.recid →
      s.Changes m u .spopDelivery fun c =>
        ((c.scbDrop q.op).onIn n fun y => { y with claims := y.claims.filter fun z => z.op != q.op }).onStrand q.k fun st =>
          st.deliver q.op q.t (BitVec.ofNat 32 (y.base + q.slot * (128 * ((16 + y.size + 127) / 128))))
            (.popped n a.seq q.own :: (if a.poison then [.taint a.etag] else []))) ∧
    (∀ j : RelJob, c.rels.find? (fun j => j.op == n && c.relDue j) = some j → j.n ≠ 0 →
      let y := c.inCh j.chan
      let freed (c : Cell) : Cell := { (c.onIn j.chan fun y =>
          { y with
            occ := y.occ - j.n
            relPtr := (y.relPtr + j.n) % y.slots
            popped := y.popped - j.n
            arrived := y.arrived.filter fun a => !(y.relSlots j.n).contains a.slot }).scbDrop j.op with
        rels := c.rels.filter fun r => r.op != j.op }
      (y.state ≠ .opened → s.Changes m u .srelRelease freed) ∧
      (y.state = .opened → exec .srelRelease s = .next ((s.setCell m u (freed c)).send m u 0 (peerAddr y.peer).1 6
        (.credit (peerAddr y.peer).2 j.n j.chan)))) ∧
    (y.rate0.getLsbD 31 = true → y.state = .opened → s.cycle + 1 = y.start + 2 ^ y.per →
      let avg := y.sum * 256 / 2 ^ y.per
      let e : Int := (avg : Int) - y.sp * 256
      let i : Int := if y.frz then y.integ else max (-4096) (min 4096 (y.integ + e))
      let w : Int := e.fdiv (2 ^ y.gp) + i.fdiv (2 ^ y.gi)
      let clamp (x : Int) : Nat := (max (y.wmin : Int) (min (y.wmax : Int) x)).toNat
      exec .controllerPeriodEnd s = .next ((s.setCell m u (c.onIn n fun y =>
          { y with
            avg := avg, integ := i, frozen := y.frz, wp := clamp (256 - w), wcNext := some (s.cycle + 1, clamp (256 + w))
            sum := 0, frz := false, start := s.cycle + 1 })).send m u 0 (peerAddr y.peer).1 6
        (.weight (peerAddr y.peer).2 (BitVec.ofNat 32 (clamp (256 - w)))))) ∧
    (∀ (w : Waiting) (limit : Nat), (c.strand n).waiting.engine = some w → w.failed = false → w.limit = some limit → limit ≤ s.cycle →
      s.Changes m u .tbwaitTimeout fun c => c.onStrand n fun st =>
        { st with waiting := { st.waiting with engine := some { w with failed := true } } }))

/-- R327, R329, R331, R431: the queues of the I/O die: a qpush or qpop is performed and answered, the answer reaches its
cell, the error word of a disabled queue too, and a fault entry that waits in a cell reaches its queue. The consumer of an
entry is signalled as QCTL says. That a fault entry takes no time on its way is the model's choice (log 5), and when
firmware serves a queue is open (log 51). R327, R330: NOTIFY and HEAD writes of a hardware queue. That a NOTIFY to a
disabled queue and a HEAD index at or above the depth are rejected and counted like those that do not fit is the model's
reading (log 44). -/
def Obligations.QueueStepsRun : Prop :=
  (∀ s : State,
    let tells (m q : Nat) (y : Queue) (s : State) : State :=
      if y.kind = 1 then s.signal m y.target else if y.kind = 2 then s.serveLater m q else s
    (∀ (x : Msg) (push : Bool) (q : Nat) (words : List Word) (op k t : Nat),
      s.Brings x (.queueCmd push q words op k t) → x.dst.unit = 2048 →
      let m := x.mod
      let io := (s.mod m).io
      let y := io.queue q
      let s' := s.dropMsg x.id
      let back (s : State) (w : Word) (ws : List Word) : State := s.send m 2048 x.strand x.src 4 (.queueAns op k t w ws)
      (y.en = false → exec .queueCommandPerform s = .next (back s' (BitVec.ofNat 32 (0x04020000 + q)) [])) ∧
      (y.en = true → push = true → y.room = 0 → exec .queueCommandPerform s = .next (back s' 0xFFFFFFFF [])) ∧
      (y.en = true → push = false → y.count = 0 → exec .queueCommandPerform s = .next (back s' 0xFFFFFFFF [])) ∧
      (y.en = true → push = true → y.room ≠ 0 →
        exec .queueCommandPerform s = .next (back (tells m q y (s'.setMod m { s.mod m with io := { io with
            qsram := memWrite io.qsram (16 * (y.base + y.tail)) (bytesOf words)
            queues := tput io.queues q { y with tail := (y.tail + 1) % 2 ^ y.log } } }))
          (BitVec.ofNat 32 y.tail) [])) ∧
      (y.en = true → push = false → y.count ≠ 0 →
        exec .queueCommandPerform s = .next (back (s'.setMod m { s.mod m with io := { io with
            queues := tput io.queues q { y with head := (y.head + 1) % 2 ^ y.log } } })
          (BitVec.ofNat 32 y.head) (wordsOf (memBytes io.qsram (16 * (y.base + y.head)) 16))))) ∧
    (∀ (x : Msg) (op k t : Nat) (w : Word) (words : List Word) (j : QueueWait),
      s.Brings x (.queueAns op k t w words) → x.dst.unit < 1032 →
      let c := s.cell x.mod x.dst.unit
      c.qwaits = [j] → j.op = op → (j.push = true ∨ c.scbClear op [] [(j.off, 16)] = true) → t ≠ 0 →
      let bad : Bool := w.toNat / 2 ^ 16 == 0x0402
      ∃ t', exec .queueAnswer s = .next t' ∧ (t'.cell x.mod x.dst.unit).qwaits = [] ∧
        (t'.cell x.mod x.dst.unit).deliveries = c.deliveries ++
          [⟨s.cycle + 1, k, op, t, w, if bad then [.trap op 0x32 w] else []⟩] ∧
        (t'.cell x.mod x.dst.unit).mem =
          (if words = [] then c.mem else memWrite c.mem j.off (bytesOf words)) ∧
        (bad = false → t'.strand x.mod x.dst.unit k = c.strand k) ∧
        (bad = true → k < 4 → (c.strand k).mode ≠ .idle → (c.strand k).recid.toNat = j.recid →
          t'.strand x.mod x.dst.unit k = { c.strand k with
            errs := (c.strand k).errs ++ [⟨op, false, 0x32, w, 0, s.chip x.mod, 2048⟩] })) ∧
    (let m := s.focus.m
     let u := s.focus.u
     let io := (s.mod m).io
     let c := s.cell m u
     ∀ (h : HeldFault) (r : List HeldFault) (q : Nat), u ≠ 2048 → c.faults = h :: r → faultQueue c.faultq = some q →
       io.takes q = true →
       exec .faultEntryAppend s = .next (tells m q (io.queue q) ((s.setCell m u { c with faults := r }).onMod m fun x => { x with io := { io with
         qsram := memWrite io.qsram (16 * ((io.queue q).base + (io.queue q).tail)) (bytesOf h.words)
         queues := tput io.queues q { io.queue q with tail := ((io.queue q).tail + 1) % 2 ^ (io.queue q).log } } })))) ∧
  (∀ (s : State) (m q : Nat) (w : Word), q < 512 →
    let y := (s.mod m).io.queue q
    let n := w.toNat % 2 ^ 13
    let h := w.toNat % 2 ^ 12
    let changes (i : Instr) (y' : Queue) : Prop :=
      s.DieChanges m i fun io => { io with queues := tput io.queues q y' }
    let counted : Queue := { y with ovf := min 0xFFFF (y.ovf + 1) }
    let tells (s : State) : State :=
      if y.kind = 1 then s.signal m y.target else if y.kind = 2 then s.serveLater m q else s
    (s.HostWrites m (64 * q + 0x14) w → (y.en = false ∨ y.room < n) → changes .queueNotify counted) ∧
    (s.HostWrites m (64 * q + 0x14) w → y.en = true → n ≤ y.room →
      exec .queueNotify s = .next (tells (s.onMod m fun x => { x with io := { x.io with
        queues := tput x.io.queues q { y with tail := (y.tail + n) % 2 ^ y.log } } }))) ∧
    (s.HostWrites m (64 * q + 0xC) w → h < 2 ^ y.log → (h + 2 ^ y.log - y.head) % 2 ^ y.log ≤ y.count →
      changes .queueHeadWrite { y with head := h }) ∧
    (s.HostWrites m (64 * q + 0xC) w → (2 ^ y.log ≤ h ∨ y.count < (h + 2 ^ y.log - y.head) % 2 ^ y.log) →
      changes .queueHeadWrite counted))

/-- R324, R325, R402, R432: the host's ingress and egress endpoints, and its read of CYC. That an endpoint is not enabled
again after it was on, and that its messages take VC 0 and 6, are the model's choice (log 43). R331, R339, R348, R353, R382,
R383, R400, R414, R426: writes of registers that are steps of their own, and of those that only hold what is written. That
PCEIL stays at most 16 while TEMP is at the limit is the model's reading (log 45). That a TOKEXP below 0x1_0000 keeps the
old value (log 40), that a repair that starts clears NOSPARE and that no repair starts while one is in progress (log 41) are
the model's choice. What a planted error is (log 12) and the check of a later RBIND (log 25) are the model's too. -/
def Obligations.HostWritesRun : Prop :=
  (∀ (s : State) (m e : Nat) (w : Word), e < 128 →
    let x := (s.mod m).io.ingressAt e
    let y := (s.mod m).io.egressAt e
    let inAt := 0x800000 + 0x40000 * e
    let outAt := 0x2800000 + 0x100 * e
    let puts (f : IoDie → Ingress) (io : IoDie) : IoDie := { io with ingress := tput io.ingress e (f io) }
    let putsOut (f : IoDie → Egress) (io : IoDie) : IoDie := { io with egress := tput io.egress e (f io) }
    (s.HostWrites m (inAt + 0x4) w → x.en = true → w.toNat < 2 → x.stageFree w.toNat = true →
      s.DieChanges m .ingressDoorbell (puts fun _ => { x with doorbells := x.doorbells ++ [w.toNat] })) ∧
    (s.HostWrites m (inAt + 0xC) w → w.getLsbD 31 = true → x.en = false → x.wasOff = false →
      s.DieChanges m .ingressEnable (puts fun _ => { x with
        en := true, nven := w.getLsbD 27, nvec := w.toNat / 2 ^ 16 % 2 ^ 6, slots := w.toNat % 2 ^ 7
        fbc := w.toNat % 2 ^ 7, wptr := 0 })) ∧
    (s.HostWrites m (inAt + 0xC) w → w.getLsbD 31 = false →
      s.DieChanges m .ingressDisable (puts fun _ => { x with
        en := false, nven := w.getLsbD 27, nvec := w.toNat / 2 ^ 16 % 2 ^ 6, slots := w.toNat % 2 ^ 7
        wasOff := x.wasOff || x.en, doorbells := [], busy := none })) ∧
    (∀ k r, s.focus.m = m → s.focus.j = e → x.en = true → x.valid = true → x.pst = 1 → 1 ≤ x.fbc → x.busy = none →
      x.doorbells = k :: r →
      let mem := if k = 0 then x.stage0 else x.stage1
      let len := min 65536 ((memWord mem 4).toNat % 2 ^ 17)
      ∃ t, exec .ingressStageForward s = .next t ∧
        (t.mod m).io = puts (fun _ => { x with
          fbc := x.fbc - 1, wptr := (x.wptr + 1) % max 1 x.slots, doorbells := r
          busy := some (k, s.cycle + (16 + len + 63) / 64 - 1) }) (s.mod m).io ∧
        ∃ y ∈ t.net, y.id = s.nextId ∧ y.dst = (peerAddr x.peer).1 ∧ y.vc = 0 ∧
          y.body = .packet (peerAddr x.peer).2
            { slot := x.wptr, srcrec := 0, origin := BitVec.ofNat 32 (s.chip m * 2 ^ 22 + e * 2 ^ 12 + 2 ^ 9)
              seq := memWord mem 0, len := len, eos := (memWord mem 4).getLsbD 30, pblk := false, pstv := false
              poison := false, etag := 0, payload := memBytes mem 16 len }) ∧
    (s.HostWrites m (outAt + 0x8) w → w.getLsbD 31 = true → y.en = false → y.wasOff = false →
      s.DieChanges m .egressEnable (putsOut fun _ => { y with
        en := true, slots := w.toNat / 2 ^ 22 % 2 ^ 7, vec := w.toNat / 2 ^ 16 % 2 ^ 6, size := w.toNat % 2 ^ 16
        wptr := 0 })) ∧
    (s.HostWrites m (outAt + 0x8) w → w.getLsbD 31 = false → y.en = true →
      s.DieChanges m .egressDisable (putsOut fun _ => { y with en := false, wasOff := true })) ∧
    (s.HostWrites m (outAt + 0x10) w → y.valid = true →
      exec .egressRelease s = .next (s.send m 2048 0 (peerAddr y.peer).1 6 (.credit (peerAddr y.peer).2 (w.toNat % 128) e))) ∧
    (∀ (z : Msg) (p : Packet), s.Brings z (.packet e p) → z.dst.unit = 2048 → z.mod = m → y.en = true →
      let size := if y.size = 0 then 65536 else y.size
      ∃ t, exec .egressPacketWrite s = .next t ∧
        (t.mod m).io.hostMem = memWrite (s.mod m).io.hostMem
          (y.hi.toNat * 2 ^ 32 + y.lo.toNat + y.wptr * (128 * ((16 + size + 127) / 128))) (p.header ++ p.payload) ∧
        (t.mod m).io.egressAt e = { y with wptr := (y.wptr + 1) % max 1 y.slots } ∧
        (t.mod m).io.msix = (s.mod m).io.msix ++ [(s.cycle, y.vec)]) ∧
    (∀ (z : Msg) (out : Bool) (peer : Word), s.Brings z (.openNote e out peer) → z.mod = m →
      let opened (io : IoDie) : IoDie :=
        if out then putsOut (fun _ => { y with peer := peer, valid := true, pst := 1 }) io
        else puts (fun _ => { x with peer := peer, valid := true, pst := 1 }) io
      exec .openNotice s = .next ((s.dropMsg z.id).onMod m fun v => { v with io := opened v.io })) ∧
    (s.focus.m = m → s.DieChanges m .cycRead fun io => { io with cycLatch := BitVec.ofNat 32 (io.cyc.toNat / 2 ^ 32) })) ∧
  (∀ (s : State) (m u o : Nat) (w : Word) (r : List (Nat × Word)),
    let c := s.cell m u
    let c' : Cell := { c with regWrites := r }
    let cell (i : Instr) (f : Cell → Cell) : Prop := exec i s = .next (s.setCell m u (f c'))
    (s.RegWrites m u 0x08 w r → cell .registerWrite fun c => { c with agelim := w }) ∧
    (s.RegWrites m u 0x0C w r → (w.toNat < 0x10000 → cell .registerWrite id) ∧
      (0x10000 ≤ w.toNat → cell .registerWrite fun c => { c with tokexp := w })) ∧
    (s.RegWrites m u 0x10 w r → cell .registerWrite fun c => { c with faultq := w &&& 0x800001FF }) ∧
    (∀ i < 64, s.RegWrites m u (0x400 + 4 * i) w r →
      cell .registerWrite fun c => { c with staging := tput c.staging i w }) ∧
    (∀ (j : Nat) (bit : Nat), j < 3 → bit < 128 → s.RegWrites m u (0x9200 + 8 * j) w r → w.getLsbD 31 = true →
      w.getLsbD 30 = false → w.toNat % 128 = bit →
      let target := (tget (0, 0) c.inject j).2
      injects j w target = some [bit] → cell .errorInject fun c =>
        { c.plant j target.toNat [bit] with inject := tput c.inject j (w &&& 0x40003FFF, target) }) ∧
    (∀ j < 3, s.RegWrites m u (0x9180 + 4 * j) w r → cell .errorLogClear fun c =>
      { c with logs := tput c.logs j ⟨(c.log j).entries.map fun e => { e with valid := false }, 0, 0⟩ }) ∧
    (s.RegWrites m u 0xA410 w r → cell .counterClear fun c => { c with cnts := { c.cnts with infOut := 0 } }) ∧
    (s.RegWrites m u 0xA420 w r → cell .counterClear fun c => { c with cmax := 0 }) ∧
    (s.RegWrites m u 0xA424 w r → cell .counterClear fun c => { c with cnan := 0 }) ∧
    (s.RegWrites m u 0 w r →
      let b := (s.setCell m u c').bindRecord m u (bytesOf ((List.range 64).map fun i => tget 0 c.staging i)) true (0, 0, 0)
      exec .rbind s = .next (b.1.onCell m u fun c => { c with rbres := b.2 ||| 0x40000000 })) ∧
    (∀ col, s.RegWrites m u 0x9300 w r → w.getLsbD 31 = true → w.getLsbD 30 = col → c.repairAt = none →
      let i : Instr := if col then .repairColumn else .repairRow
      let cmd := w &&& 0x607FFF0F
      (c.spares (repairStore cmd) (repairBank cmd) col < (if col then 2 else 4) → ∃ t, exec i s = .next t ∧
        (t.cell m u).repairAt = some (s.cycle + if col then 512 else 1) ∧ (t.cell m u).nospare = false ∧
        (t.cell m u).repcmd = cmd ∧ (t.cell m u).repaired = cmd ∧ (t.cell m u).mem = c.mem ∧
        (t.cell m u).remaps = c.remaps ++ [⟨repairStore cmd, repairBank cmd, col, repairLine cmd⟩]) ∧
      (¬ c.spares (repairStore cmd) (repairBank cmd) col < (if col then 2 else 4) →
        cell i fun c => { c with repcmd := cmd, repaired := cmd, nospare := true })) ∧
    (∀ col, s.RegWrites m u 0x9300 w r → w.getLsbD 31 = true → w.getLsbD 30 = col → c.repairAt ≠ none →
      cell (if col then .repairColumn else .repairRow) fun c => { c with repcmd := w &&& 0x607FFF0F }) ∧
    (s.focus.m = m → s.focus.u = u → ∀ t, c.repairAt = some t → t ≤ s.cycle →
      exec .repairDone s = .next ({ s.setCell m u { c with repairAt := none } with free := s.free + 1 }.onMod m fun x =>
        { x with io := { x.io with
          fixes := x.io.fixes ++ [Machine.Fix.mk u c.repaired (s.cycle + 1 + Config.firmwareDelay s.free)] } })) ∧
    (s.HostWrites m o w →
      let die (f : IoDie → IoDie) : Prop := s.DieChanges m .registerWrite f
      (o = 0x50000C → 1 ≤ w.toNat % 512 → w.toNat % 512 ≤ 256 → die fun io => { io with
        pceil := if 1050 ≤ io.temp then min 16 (w.toNat % 512) else w.toNat % 512 }) ∧
      (o = 0x50000C → (w.toNat % 512 = 0 ∨ 256 < w.toNat % 512) → die id) ∧
      (o = 0x50001C → die fun io => { io with pcap := w.toNat % 2 ^ 16 }) ∧
      (o = 0x500034 → die fun io => { io with sfaultq := w &&& 0x800001FF }) ∧
      (o = 0x500300 → die fun io => { io with rdyvec := w &&& 0x8000003F }) ∧
      (o = 0x441000 → die fun io => { io with cethr := w.toNat % 2 ^ 16 }) ∧
      (∀ j, o = 0x200000 + 4 * j → j < 0x80000 →
        die fun io => { io with qsram := memWrite io.qsram (4 * j) (leBytes 4 w.toNat) })))

/-- R309, R310, R402, R406, R415: what arrives on a link: link packets, ACK, NAK and TIME flits, and the timers that send
them. Any flit may fail its CRC, a free value of each flit: it is discarded, a NAK names the packet expected, and whatever
was sent before the replay is discarded with it; that a discarded packet keeps its credits for the replay, and that those
which a discarded ACK carried are owed again, is the model's reading (log 59). When a control flit leaves, and that a
packet's credits return at its acceptance, are the model's choice (log 5). That a hop count of 1,023 names no module of the
group is the model's reading (log 46). R313 to R319, R379, R381, R406: training, retraining, lane failures and isolation of
a link, and the writes of its port registers and of the routing table. That a training from DOWN numbers afresh and one from
UP replays and counts (log 37), and how packets queued on a former FIRST link are waited for (log 36), are the model's
reading. So is what becomes of messages and ends at an isolated link and of the ends that a routing write cuts off (log 38),
and of a flit in a discarded stretch (log 59). RETRAIN is a Spire core's: of a host's write nothing comes (log 42). R380,
R433: where a packet goes from a module's switch; that relaxed packets wait while the links of their set retrain, and that
one isolated link gives LINK_DEAD, is the model's reading too (log 36). -/
def Obligations.LinkStepsRun : Prop :=
  (∀ (s : State) (m l : Nat),
    let k := s.link m l
    let io := (s.mod m).io
    let sentBy : Nat := max k.txFree (7 * s.cycle) + 32 / k.width
    let sent (t : State) (b : FlitBody) : Prop := ∀ q, s.farEnd ⟨m, l⟩ = some q → ∃ f ∈ t.flits, f.to' = q ∧ f.body = b
    (∀ (f : Flit), s.flitAt s.focus.j = some f → f.to' = ⟨m, l⟩ → k.state = .up →
      -- the end waits for no replay, or this flit belongs to it
      let hears : Prop := ∀ e, k.discarding = some e → e < f.era
      let ok : Prop := Config.flitFails f.id = false
      let heard : Link := { k with discarding := none, lastRx := s.cycle }
      (∀ msg vc n last, f.body = .packet k.rx msg vc n last → hears → ok →
        let held : Bool := io.boot == .reset && vc == 7
        ∃ t, exec .linkPacketReceive s = .next t ∧
          (last = false → t.net = s.net ∧ t.link m l = { heard with
              rx := k.rx + 1, owed := k.owed + 1
              heldFlits := if held then k.heldFlits + n else k.heldFlits
              freed := if held then k.freed else k.freed.modify vc fun c => c + n }) ∧
          (∀ x, last = true → s.msg msg = some x → x.vc ≠ 7 →
            let path := match x.body with
              | .request _ => l :: x.path
              | _ => x.path
            t.net = s.net.map fun y =>
              if y.id = x.id then { y with mod := m, place := .inside (s.cycle + 6) false, path := path } else y)) ∧
      (∀ lseq msg vc n last, f.body = .packet lseq msg vc n last →
        ∃ t, exec .linkPacketReceive s = .next t ∧
          (hears → ok → lseq ≠ k.rx → t.net = s.net ∧ t.link m l = heard) ∧
          (hears → ¬ ok → t.net = s.net ∧ sent t (.nak k.rx) ∧
            t.link m l = { k with discarding := some f.era, lastRx := s.cycle, txFree := sentBy }) ∧
          (¬ hears → t.net = s.net ∧ t.link m l = k ∧ t.flits = s.flits.filter fun g => g.id != f.id)) ∧
      (∀ i, (i = .linkAck ∧ (∃ a c, f.body = .ack a c) ∨ i = .linkNak ∧ (∃ a, f.body = .nak a) ∨
          i = .timeFlit ∧ (∃ a c h, f.body = .time a c h) ∨ i = .isolateFlit ∧ f.body = .isolate) →
        ∃ t, exec i s = .next t ∧
          (¬ (hears ∧ ok) → t.net = s.net ∧ (t.link m l).state = .up ∧ (t.link m l).replay = k.replay ∧
            (t.link m l).credits = k.credits ∧
            ∀ a credits q, f.body = .ack a credits → s.farEnd ⟨m, l⟩ = some q → q ≠ ⟨m, l⟩ →
              (t.link q.m q.link).freed = (List.range 8).map fun v => (s.link q.m q.link).freed.getD v 0 + credits.getD v 0) ∧
          (hears → ¬ ok → sent t (.nak k.rx) ∧ (t.link m l).discarding = some f.era) ∧
          (¬ hears → (t.link m l).discarding = k.discarding ∧ t.flits = s.flits.filter fun g => g.id != f.id)) ∧
      (∀ lseq credits, f.body = .ack lseq credits → hears → ok →
        let covered := k.replay.filter fun e => decide (lseqBelow e.lseq lseq < 2048)
        let times := covered.map fun e => min 0xFFFF (s.cycle - e.at')
        ∃ t, exec .linkAck s = .next t ∧ t.net = s.net ∧ t.link m l = { heard with
          replay := k.replay.filter fun e => !decide (lseqBelow e.lseq lseq < 2048)
          credits := (List.range 8).map fun v => k.credits.getD v 0 + credits.getD v 0
          platLast := times.getLastD k.platLast, platMax := times.foldl max k.platMax }) ∧
      (∀ lseq, f.body = .nak lseq → hears → ok →
        let again (e : Sent) : Bool := decide (lseqBelow lseq e.lseq < 2048)
        ∃ t, exec .linkNak s = .next t ∧ t.net = s.net ∧ t.link m l = { heard with
          era := k.era + 1
          replay := k.replay.map fun e => if again e then { e with out := false } else e
          rplyEvents := min 0xFFFF (k.rplyEvents + 1)
          rplyPackets := min 0xFFFF (k.rplyPackets + k.replay.countP fun e => again e) }) ∧
      (∀ hops cyc head, f.body = .time hops cyc head → hears → ok →
        let k' := { heard with heard := if hops < 1023 then some (head, hops) else none }
        let io' := { io with links := tput io.links l k' }
        let leads := hops < 1023 ∧ (∀ j r, (j, r) ∈ io'.links → ∀ a n, r.heard = some (a, n) → head < a ∨ head = a ∧ hops ≤ n) ∧
          head < 1023 ∧ (io.midValid = false ∨ head < io.chip)
        ∃ t, exec .timeFlit s = .next t ∧ t.link m l = k' ∧
          (leads → (t.mod m).io.steer = (cyc.toNat : Int) + k.platLast / 2 - io.cyc.toNat) ∧
          (hops = 1023 ∨ (io.midValid = true ∧ io.chip ≤ head) ∨
            (∃ j r a n, (j, r) ∈ io'.links ∧ r.heard = some (a, n) ∧ (a < head ∨ a = head ∧ n < hops)) →
            (t.mod m).io.steer = io.steer))) ∧
    (s.focus.m = m → s.focus.j = l → k.state = .up →
      (16 ≤ k.owed ∨ k.lastAck + 64 ≤ s.cycle →
        ∃ t, exec .ackTimer s = .next t ∧ sent t (.ack (k.rx - 1) k.freed) ∧
          t.link m l = { k with owed := 0, freed := List.replicate 8 0, lastAck := s.cycle, txFree := sentBy }) ∧
      (k.timeAt ≤ s.cycle → k.txFree < 7 * (s.cycle + 1) → io.head.1 ≠ 1023 →
        ∃ t, exec .timeFlitTimer s = .next t ∧ sent t (.time io.head.2 io.cyc io.head.1) ∧
          t.link m l = { k with timeAt := s.cycle + 65536, txFree := sentBy }))) ∧
  ((∀ (s : State) (m l : Nat) (w : Word), l < 64 →
    let p : Plug := ⟨m, l⟩
    let k := s.link m l
    let io := (s.mod m).io
    let far (q : Plug) : Prop := s.farEnd p = some q ∧ q ≠ p
    let isolated (t : State) : Prop :=
      (t.link m l).state = .isolated ∧ (t.link m l).width = 0 ∧ (t.link m l).outst = [] ∧ (t.link m l).chans = [] ∧
        (t.link m l).replay = [] ∧
        ∀ o ∈ k.outst, ∃ y ∈ t.net, y.dst = o.src ∧ y.path = o.path ∧
          y.body = .error o.op o.sector (BitVec.ofNat 32 (0x02030000 + l / 4))
    let fresh (held : Nat) : List Nat := List.replicate 7 64 ++ [64 - held]
    let replayed (far : Link) (t : State) : Prop :=
      (t.link m l).replay = k.replay.map (fun e => { e with out := false, paid := decide (2048 ≤ (e.lseq - far.rx).toNat) }) ∧
        (t.link m l).rplyPackets = min 0xFFFF (k.rplyPackets + k.replay.length) ∧
        (t.link m l).rplyEvents = min 0xFFFF (k.rplyEvents + if k.replay = [] then 0 else 1)
    let reaches (i : Instr) (f : State → Prop) : Prop := ∃ t, exec i s = .next t ∧ f t
    (s.focus.m = m → s.focus.j = l →
      (∀ q g, far q → s.agreed p q (laneMask s.focus.data) = some g → s.trains p = true → s.trains q = true →
        ∀ chip link, k.ident = some (chip, link) → (s.link q.m q.link).ident.isSome = true →
        reaches .trainingDone fun t =>
          (t.link m l).state = .up ∧ (t.link m l).width = g.1 ∧ (t.link m l).first = g.2 ∧
          (t.link m l).nbrChip = chip ∧ (t.link m l).nbrLink = link ∧ (t.link m l).credits = fresh (s.link q.m q.link).heldFlits ∧
          (t.link m l).nbrValid = true ∧ replayed (s.link q.m q.link) t ∧
          (t.link q.m q.link).state = .up ∧ (t.link q.m q.link).width = g.1) ∧
      (∀ q, far q → k.state = .train →
        reaches .trainingFail fun t =>
          (k.attempts ≠ 2 → t.link m l = { k with attempts := k.attempts + 1 }) ∧
          (k.attempts = 2 → (t.link m l).state = .isolated)) ∧
      (∀ q, far q → (io.lanes l).1 ≤ s.focus.v → s.focus.v < (io.lanes l).1 + (io.lanes l).2 →
        let used := k.state = .up ∧ k.first ≤ s.focus.v ∧ s.focus.v < k.first + k.width
        let failed := k.failed ||| BitVec.ofNat 16 (2 ^ s.focus.v)
        reaches .laneFailure fun t =>
          (used → t.link m l = { k with failed := failed, state := .retrain, since := s.cycle }) ∧
          (¬ used → t.link m l = { k with failed := failed })) ∧
      (∀ q g, far q → k.state = .retrain → (s.link q.m q.link).state = .retrain → s.cycle ≤ k.since + 4000 →
        s.agreed p q (k.failed ||| (s.link q.m q.link).failed) = some g →
        reaches .retrainDone fun t =>
          (t.link m l).state = .up ∧ (t.link m l).width = g.1 ∧ (t.link m l).first = g.2 ∧
          (t.link m l).changes = (if g.1 = k.width then k.changes else min 255 (k.changes + 1)) ∧
          (g.1 = k.width → (t.link m l).hist = k.hist) ∧
          (t.link m l).credits = fresh (s.link q.m q.link).heldFlits ∧ replayed (s.link q.m q.link) t) ∧
      (k.state = .retrain → k.since + 4000 < s.cycle → reaches .retrainTimeout isolated) ∧
      (k.state = .up → k.lastRx + 65536 ≤ s.cycle → reaches .linkSilenceTimeout isolated)) ∧
    (∀ f, s.flitAt s.focus.j = some f → f.to' = p → f.body = .isolate → k.state = .up → k.discarding = none →
      Config.flitFails f.id = false → reaches .isolateFlit isolated) ∧
    (s.HostWrites m (0x410000 + 64 * l) w → io.linkExists l = true →
      (w.getLsbD 3 = true → w.getLsbD 2 = false → k.state = .up → reaches .linkIsolate fun t =>
        isolated t ∧ ∀ q, s.farEnd p = some q → ∃ f ∈ t.flits, f.to' = q ∧ f.body = .isolate) ∧
      (w.getLsbD 3 = false → w.getLsbD 2 = true → reaches .linkRetrain fun t => t.link m l = k)) ∧
    (s.focus.m = m → isSpire s.focus.u = true → s.focus.j = 0x410000 + 64 * l → BitVec.ofNat 32 s.focus.v = w →
      io.linkExists l = true → w.getLsbD 3 = false → w.getLsbD 2 = true → k.state = .down → reaches .linkRetrain fun t =>
        t.link m l = { k with
          state := .train, failed := 0, changes := 0, attempts := 0, since := s.cycle, nbrValid := false, ident := none
          heard := none, tx := 0, rx := 0, replay := [], outst := [], chans := [], chovf := false, imaged := false
          booting := false }) ∧
    (s.HostWrites m (0x410000 + 64 * l + 0x1C) w →
      reaches .platMaxClear fun t => t.link m l = { k with platMax := 0 }) ∧
    (∀ c < 1023,
      let r := io.route c
      let first := w.toNat % 64
      let puts (r : Route) (io : IoDie) : IoDie := { io with routes := tput io.routes c r }
      let written (r' : Route) : Prop :=
        let t := s.onMod m fun x => { x with io := puts r' x.io }
        exec .routingWrite s = .next (t.cutEnds.eraseDups.foldl
          (fun s e => s.send e.1 2048 0 e.2.addr 6 (.dead e.2.chan e.2.out)) t)
      (s.HostWrites m (0x430000 + 16 * c) w → written { r with
        v := w.getLsbD 31, here := w.getLsbD 30, first := first
        old := if first = r.first then r.old else r.first :: r.old.filter fun l => l != first }) ∧
      (s.HostWrites m (0x430000 + 16 * c + 4) w → written { r with
        mask := BitVec.ofNat 64 (r.mask.toNat / 2 ^ 32 * 2 ^ 32 + w.toNat) }) ∧
      (s.HostWrites m (0x430000 + 16 * c + 8) w → written { r with
        mask := BitVec.ofNat 64 (r.mask.toNat % 2 ^ 32 + w.toNat * 2 ^ 32) }))) ∧
  ∀ (io : IoDie) (c vc : Nat) (isRequest : Bool),
    let r := io.route c
    let to' := io.hop c vc isRequest
    let inSet (l : Nat) : Prop := l < 64 ∧ (r.mask.getLsbD l = true ∨ l = r.first)
    let is (l : Nat) (x : LinkState) : Prop := (io.link l).state = x
    let alone : Prop := r.first < 64 ∧ (∀ l, inSet l → l = r.first) ∧ is r.first .isolated
    let goes : Prop := ∃ l, inSet l ∧ (is l .up ∨ is l .retrain)
    let dead : Hop := .away (BitVec.ofNat 32 (0x02030000 + r.first / 4 % 65536))
    let credits (l : Nat) : Nat := (io.link l).credits.getD vc 0
    (r.here = true → to' = .here) ∧
    (r.here = false → (r.v = false ∨ ¬ alone ∧ ¬ goes) → to' = .away (BitVec.ofNat 32 (0x02040000 + c % 65536))) ∧
    (r.here = false → r.v = true → alone → to' = dead) ∧
    (r.here = false → r.v = true → goes →
      ((vc = 0 ∨ vc = 2 ∨ vc = 5 ∨ vc = 6) →
        (is r.first .up →
          to' = if vc = 2 ∧ isRequest = true ∧ ∃ l ∈ r.old, ∃ o ∈ (io.link l).outst, o.dst.chip = c then .wait
            else .link r.first) ∧
        (is r.first .train ∨ is r.first .retrain → to' = .wait) ∧
        (is r.first .isolated ∨ is r.first .down → to' = dead)) ∧
      (¬ (vc = 0 ∨ vc = 2 ∨ vc = 5 ∨ vc = 6) →
        ((∀ l, inSet l → ¬ is l .up) → to' = .wait) ∧
        (∀ l, inSet l → is l .up →
          (∀ j, inSet j → is j .up → credits j ≤ credits l ∧ (credits j = credits l → l ≤ j)) → to' = .link l))))

/-- R163, R349, R396 to R399: the notices, reports and queries of completion counters, a cancel, which HOME notes so that
the counter fires CANCELLED, on its way to the cells, and the host's CLOSE. That a unit's parent is the one that the latest
end notice names, and which modules hold a unit, are the model's reading (log 26). R356, R420 to R422, R425: a placement
image is loaded and acknowledged, HOME counts the answers and starts or cancels the placement, cells clear HOLD, and the
parts of a stage migration. FAULTQ from firmware (log 13), what a load leaves of the cells that it names (log 49), the
modules and parents of units (log 26), and that the failed chip's checkpoint is taken from host memory of a module that is
named from outside (log 50), are the model's. -/
def Obligations.PlacementStepsRun : Prop :=
  (∀ (s : State) (x : Msg) (level id i : Nat) (y : UnitEntry),
    let m := x.mod
    let io := (s.mod m).io
    let s' := s.dropMsg x.id
    let putAt (s : State) (j : Nat) (z : UnitEntry) : State :=
      s.onMod m fun v => { v with io := { v.io with units := tput v.io.units j z } }
    let put (s : State) (z : UnitEntry) : State := putAt s i z
    let reportedAt (s : State) (j : Nat) (z : UnitEntry) : State :=
      if z.complete then (putAt s j { z with reported := true }).send m 2048 0 ⟨z.home, 2048⟩ 6 (.unitReport z.level z.id z.status 0)
      else putAt s j z
    let reported (s : State) (z : UnitEntry) : State := reportedAt s i z
    let named (s : State) (lv n parent : Nat) : State :=
      match (s.mod m).io.unitOf lv n with
      | some (j, z) => putAt s j { z with parent := some parent }
      | none => s
    (io.unitOf level id = some (i, y) →
      (s.Brings x (.bindNote level id) → exec .bindNotice s = .next (put s' { y with live := y.live + 1 })) ∧
      (∀ status phase job, s.Brings x (.endNote level id status phase job) →
        let t := named (named s' 2 phase job) level id phase
        ∀ j z, (t.mod m).io.unitOf level id = some (j, z) → exec .endNotice s = .next (reportedAt t j { z with
          live := z.live - 1, status := max z.status status
          kills := if status = 3 then min 0xFFFF (z.kills + 1) else z.kills })) ∧
      (∀ status err, s.Brings x (.unitReport level id status err) →
        let z : UnitEntry := { y with nmod := y.nmod - 1, combined := max y.combined status }
        (1 < y.nmod → exec .unitReport s = .next (put s' z)) ∧
        (y.nmod ≤ 1 → ∃ t, exec .unitReport s = .next t ∧ (t.mod m).io.unit i = z ∧
          ∀ k ∈ s.unitModules level id, ∃ a ∈ t.net, a.dst = ⟨s.chip k, 2048⟩ ∧ a.body = .fire level id z.combined)) ∧
      (∀ status, s.Brings x (.fire level id status) → y.fired = false → y.parent = none →
        (tget 0 io.uvec i).getLsbD 31 = false →
        exec .fireNotice s = .next (put s' { y with fired := true, status := status })) ∧
      (∀ status p j z, s.Brings x (.fire level id status) → y.fired = false → y.parent = some p →
        io.unitOf (level + 1) p = some (j, z) → j ≠ i → z.fired = true →
        ∃ t, exec .fireNotice s = .next t ∧ (t.mod m).io.unit i = { y with fired := true, status := status } ∧
          (t.mod m).io.unit j = { z with live := z.live - 1, status := max z.status status }) ∧
      (∀ forwarded, s.Brings x (.cancelNote level id forwarded) → x.dst.unit = 2048 → ∃ t, exec .cancelNotice s = .next t ∧
        t.mods = (if forwarded = false ∧ y.home = s.chip m ∧ y.fired = false
          then put s { y with combined := max y.combined 2 } else s).mods ∧
        (forwarded = true → ∀ u < 1024, (y.cells.getLsbD u = true ∨ level = 1 ∧ u ∈ s.placedCells m id) →
          ∃ a ∈ t.net, a.dst = ⟨s.chip m, u⟩ ∧ a.body = .cancelNote level id true) ∧
        (forwarded = false → y.home = s.chip m → ∀ k ∈ s.unitModules level id,
          ∃ a ∈ t.net, a.dst = ⟨s.chip k, 2048⟩ ∧ a.body = .cancelNote level id true) ∧
        (forwarded = false → y.home ≠ s.chip m →
          ∃ a ∈ t.net, a.dst = ⟨y.home, 2048⟩ ∧ a.body = .cancelNote level id false))) ∧
    (∀ forwarded, s.Brings x (.cancelNote level id forwarded) → x.dst.unit ≠ 2048 →
      let c := s.cell m x.dst.unit
      ∃ t, exec .cancelNotice s = .next t ∧ ∀ e, (c.record e).state = .running → (c.record e).inUnit level id = true →
        (t.cell m x.dst.unit).record e = { c.record e with cancelled := true }) ∧
    (∀ w : Word, s.HostWrites m (0x450000 + 256 * i + 4) w → i < 64 → w.getLsbD 31 = true →
      exec .unitClose s = .next (reported s { io.unit i with closed := true, live := w.toNat % 2 ^ 16 })) ∧
    (∀ k since, s.focus.u ≠ 2048 → s.Brings x (.unitQuery level id k since) →
      exec .unitWaitAnswer s = .next (s'.onMod m fun v => { v with io := { v.io with
        unitWaits := v.io.unitWaits ++ [⟨x.src.unit, k, level, id, since⟩] } })) ∧
    (∀ k since (w : Waiting), s.focus.u ≠ 2048 → s.Brings x (.unitAnswer k since) →
      (s.strand m x.dst.unit k).waiting.unit = some w → w.since = since →
      s.Takes x .unitWaitAnswer fun c => c.onStrand k fun st =>
        { st with waiting := { st.waiting with unit := some { w with answered := true } } }) ∧
    (∀ w : UnitWait, s.focus.u = 2048 → s.focus.m = m → io.readyWait = some w →
      exec .unitWaitAnswer s = .next ((s.onMod m fun v => { v with io := { v.io with
        unitWaits := v.io.unitWaits.filter fun y => y != w } }).send m 2048 0 ⟨s.chip m, w.unit⟩ 6
          (.unitAnswer w.strand w.since)))) ∧
  (∀ s : State,
    let f := s.focus
    let noted (s : State) (m id : Nat) : State :=
      match (s.mod m).io.unitOf 1 id with
      | some (i, y) => if y.fired then s
        else s.onMod m fun v => { v with io := { v.io with units := tput v.io.units i { y with combined := max y.combined 2 } } }
      | none => s
    (∀ (image : List Byte) (x : Section'), image = f.data.map (fun b => BitVec.ofNat 8 b) → f.u = hostUnit →
      (s.mod f.m).io.boot = .run → isPlacementImage image = true → imageHome image = s.chip f.m → imageBad image = false →
      (s.mod f.m).io.midValid = true → imageUnstable [x] = none →
      imageSections image = [x] → x.at'.chip = s.chip f.m → x.kind = 2 → x.off + x.data.length ≤ 0x200000 →
      s.treeLinks f.m = [] →
      let u := x.at'.unit
      let c := s.cell f.m u
      let id := imagePlacement image
      (∀ t, exec .placementImage s = .next t → ∀ j, (c.xentry j).flags.getLsbD 30 = true → (t.cell f.m u).xentry j = ⟨0, 0, 0⟩) ∧
      ((∀ p ∈ c.xset, p.2.flags.getLsbD 30 = false) → exec .placementImage s = .next (((s.onMod f.m fun v => { v with io := { v.io with
          placements := (v.io.placements.filter fun p => p.id != id) ++ [⟨id, imageMods image, 0, false, false, [s.chip f.m]⟩]
          images := image :: v.io.images.filter fun z => imagePlacement z != id
          measurement := shake256 x.raw } }).setCell f.m u ({ c with
            arr := ArrayUnit.reset, cds := [], tbs := [], cnts := ⟨0, 0, 0, 0, 0, 0, 0, 0⟩, cmax := 0, cnan := 0
            faultq := Config.firmwareRegister f.m u 0x10 &&& 0x800001FF }.storeBytes x.off x.data)).send f.m 2048 0
              ⟨s.chip f.m, 2048⟩ 6 (.configAck id)))) ∧
    (∀ (x : Msg) (id : Nat) (p : Machine.Placement), s.Brings x (.configAck id) →
      (s.mod x.mod).io.placements.find? (fun p => p.id == id) = some p →
      let counts (io : IoDie) : IoDie := io.onPlacement id fun p => { p with acks := p.acks + 1 }
      (p.failed = true → exec .configAck s = .next ((noted ((s.dropMsg x.id).onMod x.mod fun v =>
        { v with io := counts v.io }) x.mod id).send x.mod 2048 0 ⟨x.src.chip, 2048⟩ 6 (.cancelNote 1 id true))) ∧
      (p.acks + 1 < p.mods → p.failed = false → exec .configAck s = .next ((s.dropMsg x.id).onMod x.mod fun v => { v with io := counts v.io })) ∧
      (p.mods ≤ p.acks + 1 → p.failed = false → p.started = false →
        ∃ t, exec .configAck s = .next t ∧ ∀ c ∈ p.members, ∃ a ∈ t.net, a.dst = ⟨c, 2048⟩ ∧ a.body = .startNote id)) ∧
    (∀ (x : Msg) (id status : Nat), s.Brings x (.configFail id status) →
      ∃ t, exec .configFailure s = .next t ∧ (t.mod x.mod).io.placements =
        ((s.mod x.mod).io.placements.map fun p => if p.id = id then { p with failed := true } else p) ∧
        ∀ p, (s.mod x.mod).io.placements.find? (fun p => p.id == id) = some p →
          (∀ i y, (s.mod x.mod).io.unitOf 1 id = some (i, y) → y.fired = false →
            (t.mod x.mod).io.unit i = { y with combined := max y.combined 2 }) ∧
          ∀ c ∈ p.members, ∃ a ∈ t.net, a.dst = ⟨c, 2048⟩ ∧ a.body = .cancelNote 1 id true) ∧
    (∀ (x : Msg) (id : Nat), s.Brings x (.startNote id) →
      (x.dst.unit ≠ 2048 → s.Takes x .startNotice fun c => { c with recs := c.recs.map fun r =>
        (r.1, if r.2.state != .free && r.2.placement == id then { r.2 with hold := false } else r.2) }) ∧
      (x.dst.unit = 2048 → ∃ t, exec .startNotice s = .next t ∧ t.mods = s.mods ∧ ∀ u ∈ s.placedCells x.mod id,
        ∃ a ∈ t.net, a.dst = ⟨s.chip x.mod, u⟩ ∧ a.body = .startNote id)) ∧
    ((s.mod f.m).io.boot = .run → s.failedChip f.j = true →
      (f.v = 1 → ∃ t, exec .stageMigration s = .next t ∧ ∀ p ∈ s.mods, ∀ l < 64, (s.link p.1 l).nbrValid = true →
        (s.link p.1 l).nbrChip = f.j → (s.link p.1 l).state ≠ .down → (t.link p.1 l).state = .isolated) ∧
      (f.v = 3 → ∃ t, exec .stageMigration s = .next t ∧ t.net = s.net ∧ ∀ m u,
        ((∀ p ∈ (s.cell m u).xset, p.2.flags.getLsbD 30 = false) → (t.cell m u).mem = (s.cell m u).mem) ∧
        (∀ e r, (e, r) ∈ (s.cell m u).recs → r.state ≠ .free → r.placement = f.data.headD 0 →
          ∀ j, ((s.cell m u).xentry j).flags.getLsbD 30 = true → (t.cell m u).xentry j = ⟨0, 0, 0⟩) ∧
        ∀ n, ((s.cell m u).inCh n).state = .dead →
          ((s.cell m u).record (((s.cell m u).inCh n).owner.toNat % 16)).placement = f.data.headD 0 →
          recordId ((s.cell m u).record (((s.cell m u).inCh n).owner.toNat % 16)).gen
            (((s.cell m u).inCh n).owner.toNat % 16) = ((s.cell m u).inCh n).owner →
          ((t.cell m u).inCh n).state = .unconf) ∧
      (∀ k, f.v = 4 → s.spare f.m = some k → s.DieChanges k .stageMigration fun io =>
        { io with
          chip := f.j, midValid := true
          routes := tput io.routes f.j { Route.reset with v := true, here := true } }) ∧
      (∀ h first mask, f.v = 5 → f.data = [h, first, mask] → f.j < 1023 → first < 64 → mask < 2 ^ 64 →
        ∃ t, exec .stageMigration s = .next t ∧
          (t.mod h).io.route f.j = { (s.mod h).io.route f.j with
            v := true, here := false, first := first, mask := BitVec.ofNat 64 mask
            old := ((t.mod h).io.route f.j).old }) ∧
      (∀ k a, f.v = 7 → s.moduleOf f.j = some k → (s.mod k).io.transfer = none → f.data = [f.m, a] → a % 4096 = 0 → a < 2 ^ 64 →
        ∃ t, exec .stageMigration s = .next t ∧
          (t.mod k).io.transfer = some ⟨true, a, 0, s.cycle + 1 + Config.hostDelay s.free⟩ ∧
          ∀ b, memByte (t.mod k).io.hostMem b = if a ≤ b ∧ b < a + ckEnd then memByte (s.mod f.m).io.hostMem b
            else memByte (s.mod k).io.hostMem b) ∧
      (∀ id i y, f.v = 2 → f.data = [id] → (s.mod f.m).io.unitOf 1 id = some (i, y) → y.home = s.chip f.m →
        ∃ t, exec .stageMigration s = .next t ∧ t.mods = (noted s f.m id).mods ∧ ∀ k ∈ s.unitModules 1 id,
          ∃ a ∈ t.net, a.dst = ⟨s.chip k, 2048⟩ ∧ a.body = .cancelNote 1 id true)))

/-- R34, R359, R413 to R419, R423, R424, R427, R428: reset and loss of power, the parts of boot, and what Spire firmware and
the I/O die serve. How long firmware and the host take is open (log 6). What reset and loss of power keep and drop (log 52),
a GO while a report is made (log 51), the order of image errors (log 48), the parts of a checkpoint (log 50), that a part waits while a bank of its store is under
repair (log 41) and CEIL while
TEMP is at the limit (log 45) are the model's. So are the layouts that the spec leaves out (log 13). -/
def Obligations.ModuleStepsRun : Prop :=
  ∀ (s : State) (m : Nat),
    let x := s.mod m
    let io := x.io
    let f := s.focus
    let die (i : Instr) (g : IoDie → IoDie) : Prop := s.DieChanges m i g
    let dieFree (i : Instr) (g : IoDie → IoDie) : Prop :=
      exec i s = .next ({ s with free := s.free + 1 }.onMod m fun x => { x with io := g x.io })
    let reached (i : Instr) (p : State → Prop) : Prop := ∃ t, exec i s = .next t ∧ p t
    let later := s.cycle + 1 + Config.firmwareDelay s.free
    let lost (t : State) (powered : Bool) : Prop :=
      t.mod m = { Module.reset with io := { IoDie.reset with
        powered := powered, bootAt := s.cycle, hostMem := io.hostMem, msix := io.msix } } ∧
      (∀ m', m' ≠ m → t.mod m' = s.mod m') ∧ (∀ z ∈ t.net, z.mod ≠ m) ∧ ∀ z ∈ s.net, z.mod ≠ m → z ∈ t.net
    (f.m = m →
      (s.hasModule m = true → reached .moduleReset fun t => lost t true) ∧
      (s.hasModule m = true → reached .powerLoss fun t => lost t false) ∧
      (f.v < 1050 → die .thermalThrottle fun io => { io with temp := f.v }) ∧
      (1050 ≤ f.v → f.v < 1150 → die .thermalThrottle fun io => { io with temp := f.v, pceil := min 16 io.pceil }) ∧
      (1150 ≤ f.v → reached .thermalShutdown fun t => lost t false) ∧
      (io.boot = .reset → Config.selfTest m io.bootAt = none →
        exec .selfTestDone s = .refused (.eventNotDue "SELF_TEST_DONE")) ∧
      (∀ d, io.powered = true → io.boot = .reset → Config.selfTest m io.bootAt = some d → io.bootAt + min d 65536 ≤ s.cycle →
        reached .selfTestDone fun t =>
        (t.mod m).io.boot = .wait ∧ (∀ l, (t.link m l).heldFlits = 0) ∧ (t.mod m).io.stage = [] ∧ (t.mod m).io.qsram = [] ∧ (t.mod m).io.units = [] ∧
        (tget 0 (t.mod m).io.ready 35).getLsbD 0 = true) ∧
      (io.boot = .verify → io.bootAt ≤ s.cycle → reached .bootVerifyDone fun t =>
        (io.verifyError = 0 → (t.mod m).io.boot = .run ∧ (t.mod m).io.bootErr = 0 ∧ (t.mod m).io.cyc = 0 ∧
          (t.mod m).io.image = memBytes io.stage 0 (0xC40 + io.bodyLength) ∧
          ∀ l < 64, l % 4 = 0 → (s.link m l).state = .down → (t.link m l).state = .train) ∧
        (io.verifyError ≠ 0 →
          t = s.onMod m fun x => { x with io := { x.io with boot := .fail, bootErr := io.verifyError } }) ∧
        (memWord io.stage 0 ≠ 0x47583742 → io.verifyError = 1) ∧
        (memWord io.stage 0 = 0x47583742 → 960 * 1024 < 0xC40 + io.bodyLength → io.verifyError = 4)) ∧
      (∀ j due, (j, due) ∈ io.unready → due ≤ s.cycle → f.j = j → j < 1024 → reached .functionReady fun t =>
        (tget 0 (t.mod m).io.ready (j / 32)).getLsbD (j % 32) = true ∧ (t.mod m).cells = x.cells) ∧
      (∀ ws, io.queueHead f.j = some ws →
        let io' := io.onQueue f.j fun q => { q with head := (q.head + 1) % 2 ^ q.log }
        let w0 := ws.getD 0 0
        let i := w0.toNat % 256
        let answered (t : State) (c : Word) : Prop :=
          io'.takes (f.j + 1) = true → io'.replies = [] →
            memBytes (t.mod m).io.qsram ((io'.queue (f.j + 1)).entryAt (io'.queue (f.j + 1)).tail) 16 = bytesOf [c, 0, 0, 0]
        (w0.toNat / 2 ^ 24 = 0x10 → reached .raRequestService fun t => ((t.mod m).io.queue f.j).head = (io'.queue f.j).head ∧
          (f.v = 1 → answered t 0x11000001 ∧ ((t.cell m (nodeUnit (ws.getD 1 0))).xentry i).flags =
            ((s.cell m (nodeUnit (ws.getD 1 0))).xentry i).flags ||| 0x00800000) ∧
          (f.v ≠ 1 → answered t 0x11000000 ∧ (t.mod m).cells = x.cells)) ∧
        (w0.toNat / 2 ^ 24 = 0x12 → reached .migrationNoticeService fun t =>
          ∀ h, s.moduleOf ((ws.getD 3 0).toNat / 2 ^ 22) = some h → ∀ u < 1032, ∀ i < 256,
            let e := (s.cell h u).xentry i
            e.frame = ws.getD 3 0 → ((t.cell h u).xentry i).flags.getLsbD 22 = true)) ∧
      (io.boot = .run → s.cycle ≠ 0 → s.cycle % 2 ^ 20 = 0 →
        let top := if 1050 ≤ io.temp then 16 else 256
        (io.pcap * 1000 < io.pwr.toNat → die .powerCapCheck fun io => { io with pceil := max 1 (io.pceil - 16) }) ∧
        (io.pwr.toNat < io.pcap * 950 → die .powerCapCheck fun io => { io with pceil := min top (io.pceil + 16) }) ∧
        (io.pcap * 950 ≤ io.pwr.toNat → io.pwr.toNat ≤ io.pcap * 1000 → die .powerCapCheck id)) ∧
      (∀ t, io.attBusy = some t → t ≤ s.cycle → reached .attestationDone fun t =>
        (t.mod m).io.attBusy = none ∧ (t.mod m).io.nonceNext = [] ∧
        ∀ n < (io.report m).length, tget 0 (t.mod m).io.attrep n = (io.report m).getD n 0) ∧
      (∀ p, io.transfer = some p → p.next = 5119 → p.due ≤ s.cycle → reached .checkpointDone fun t =>
        let a := p.addr + 0x188400000 + 1023 * 8448
        (t.mod m).io.transfer = none ∧
        (p.restore = false → (t.mod m).cells = x.cells ∧
          (t.mod m).io.hostMem = memWrite io.hostMem a (s.cell m 1023).recordBytes) ∧
        (p.restore = true → (t.mod m).io.hostMem = io.hostMem ∧ (∀ u, u ≠ 1023 → t.cell m u = s.cell m u) ∧
          (t.cell m 1023).mem = (s.cell m 1023).mem ∧ ∀ e < 16,
            let w (i : Nat) : Nat := (memWord io.hostMem (a + 16 * e + 4 * i)).toNat
            let r := (t.cell m 1023).record e
            r.gen = BitVec.ofNat 12 (w 0 / 2 ^ 20) ∧ r.placement = w 1 % 2 ^ 16 ∧ r.job = w 2 / 2 ^ 16 ∧
              r.phase = w 2 % 2 ^ 16 ∧ r.desc = descOf (memBytes io.hostMem (a + 256 + 256 * e) 256))) ∧
      (∀ p, io.transfer = some p → p.next < 3072 → p.due ≤ s.cycle →
        let k := p.next / 1024
        let u := p.next % 1024
        let n := if k = 0 then 0x20000 else if k = 1 then 0x200000 else 0x400000
        let store := if k = 0 then 0x600000 else if k = 1 then 0 else 0x200000
        let a := p.addr + (if k = 0 then 0 else if k = 1 then 0x8000000 else 0x88000000) + u * n
        let t := s.moveTransfer m
        ((s.cell m u).underRepair store n = true → t = s) ∧
        ((s.cell m u).underRepair store n = false → (∃ due, (t.mod m).io.transfer = some { p with next := p.next + 1, due := due }) ∧
        (p.restore = false → (t.mod m).cells = x.cells ∧ ∀ b, memByte (t.mod m).io.hostMem b =
          if a ≤ b ∧ b < a + n then memByte (s.cell m u).mem (store + (b - a)) else memByte io.hostMem b) ∧
        (p.restore = true → (t.mod m).io.hostMem = io.hostMem ∧ (∀ v, v ≠ u → t.cell m v = s.cell m v) ∧
          ∀ o, memByte (t.cell m u).mem o =
            if store ≤ o ∧ o < store + n then memByte io.hostMem (a + (o - store)) else memByte (s.cell m u).mem o)))) ∧
    (∀ w : Word,
      (s.HostWrites m 0x500008 w → w.getLsbD 0 = true →
        (io.boot = .wait → dieFree .bootGo fun io => { io with boot := .verify, bootAt := later }) ∧
        (io.boot ≠ .wait → exec .bootGo s = .next s)) ∧
      (s.HostWrites m 0x500030 w → w.getLsbD 0 = true →
        (io.attBusy = none → dieFree .attestation fun io => { io with
          attBusy := some later, attrep := tput io.attrep 0 (tget 0 io.attrep 0 &&& 0x7FFFFFFF) }) ∧
        (io.attBusy ≠ none → exec .attestation s = .next s)) ∧
      (∀ dir, s.HostWrites m 0x500024 w → w.getLsbD 31 = true → w.getLsbD 30 = dir →
        let i : Instr := if dir then .checkpointRestore else .checkpointSave
        (io.transfer = none → dieFree i fun io => { io with
          ckDir := dir
          transfer := some ⟨dir, io.ckHi.toNat * 2 ^ 32 + io.ckLo.toNat, 0, s.cycle + 1 + Config.hostDelay s.free⟩ }) ∧
        (io.transfer ≠ none → exec i s = .next s))) ∧
    (∀ (z : Msg) (data : List Byte), s.Brings z (.image true data) → z.mod = m →
      (io.boot = .wait → exec .bootImageArrival s =
        .next ({ s.dropMsg z.id with free := s.free + 1 }.onMod m fun y => { y with io := { y.io with
          stage := memRun 0 data, imageLink := some z.strand, boot := .verify, bootAt := later } })) ∧
      (io.boot = .verify ∨ io.boot = .run ∨ io.boot = .fail → exec .bootImageArrival s = .next (s.dropMsg z.id)))

/-- R388 to R393: at the end of a cycle a barrier takes the arrivals whose wait has ended, then tbinit, then the completion test,
and both answer in the next cycle. The barriers of every unit do so as stage 11 begins; that the end of a cycle is divided into
stages is the model's (log 4). -/
def Obligations.BarrierStepsRun : Prop :=
  (∀ (s : State) (m u : Nat),
    let c := s.cell m u
    let due (j : TbJob) : Bool := c.scb.all fun e => e.k != j.k || decide (j.op ≤ e.rank) || e.writes.isEmpty
    let arrs := c.tbjobs.filter fun j => !j.init && due j
    let left := c.tbjobs.filter fun j => !arrs.any fun i => i.op == j.op
    let inits := left.filter fun j => j.init
    let arrive (x : Tbar) (j : TbJob) : Tbar :=
      { x with arr := min 0xFFFF (x.arr + 1), sec := min 0xFFFFFF (x.sec + j.a.toNat % 2 ^ 24) }
    let arm (x : Tbar) (j : TbJob) : Tbar :=
      { x with
        arr := if j.a.getLsbD 31 then 0 else x.arr, sec := if j.a.getLsbD 31 then 0 else x.sec
        exparr := j.a.toNat % 2 ^ 16, expsec := j.b.toNat % 2 ^ 24, phase := x.phase + 1, state := .armed }
    let finish (x : Tbar) : Tbar :=
      if x.state = .armed ∧ x.exparr ≤ x.arr ∧ x.expsec ≤ x.sec then
        { x with
          arr := x.arr - x.exparr, sec := x.sec - x.expsec, state := .done, donecyc := (s.cyc m).setWidth 32 }
      else x
    let counted (js : List TbJob) (b : Nat) : Tbar := (js.filter fun j => j.tb == b).foldl arrive (c.tbar b)
    let armed (js : List TbJob) (b : Nat) : Tbar := (js.filter fun j => j.tb == b).foldl arm (counted arrs b)
    ∃ t : Cell, s.settleBarriers m u = s.setCell m u t ∧ (∀ b, t.tbar b = finish (armed inits b)) ∧
      t.tbjobs = (left.filter fun j => !inits.any fun i => i.op == j.op) ∧
      (∀ pre j post, arrs = pre ++ j :: post → j.t ≠ 0 →
        let x := counted (pre ++ [j]) j.tb
        ⟨s.cycle + 1, j.k, j.op, j.t, BitVec.ofNat 32 (x.phase.toNat * 2 ^ 24 + x.arr), []⟩ ∈ t.deliveries) ∧
      (∀ pre j post, inits = pre ++ j :: post → j.t ≠ 0 →
        let x := armed (pre ++ [j]) j.tb
        ⟨s.cycle + 1, j.k, j.op, j.t, BitVec.ofNat 32 (x.phase.toNat * 2 ^ 24), []⟩ ∈ t.deliveries) ∧
      (∀ d, d ∈ t.deliveries → d ∈ c.deliveries ∨ d.op ∈ (arrs ++ inits).map fun j => j.op) ∧
      (∀ d ∈ c.deliveries, d ∈ t.deliveries) ∧
      t.scb = (c.scb.filter fun e => !(arrs ++ inits).any fun j => j.op == e.op) ∧
      t = { c with tbs := t.tbs, tbjobs := t.tbjobs, deliveries := t.deliveries, scb := t.scb }) ∧
  ∀ s : State, s.cur = none → s.mods ≠ [] → s.todo = [] → s.phase = .stage 11 →
    ∃ t, step s = .next t ∧ t.phase = .stage 12 ∧ t.cycle = s.cycle ∧
      t.mods = ((s.eachCell fun c => (c.startCtx s.cycle).freezeControllers s.cycle).units.foldl
        (fun s p => s.settleBarriers p.1 p.2) (s.eachCell fun c => (c.startCtx s.cycle).freezeControllers s.cycle)).mods

/-- R35 to R40, R42 to R44, R139, R140, R149: the values of FP32 arithmetic: a sum, a difference, a product, a quotient, a fused
product, an integer, a square root, its reciprocal and a block-scaled lane are the exact value rounded once; the order of FP32
words, the lesser and the greater; integers from FP32; NaN, infinities and zeros; FTZ; powers and logarithms to base 2 at the
special cases, where the exact value is a power or an integer, between such values, and with their flags; the sum of amofadd,
rfadd and the array, which rounds to nearest with ties to even, takes no mode and no FTZ from FPC and gives no flag; and BF16 and
E4M3, to nearest with ties to even, with the saturation of E4M3. -/
def Obligations.FpValues : Prop :=
  (∀ (rm : BitVec 2) (a b d : Word), f32Finite a → f32Finite b → f32Finite d →
    let x := f32Units a
    let y := f32Units b
    let z := f32Units d
    let rounds (n : Nat) (v : Int) (r : Word × FpFlags) : Prop := f32Rounds rm v n r.1 r.2
    rounds 1 (x + y) (fpAdd rm false a b) ∧ rounds 1 (x - y) (fpSub rm false a b) ∧
    rounds (2 ^ 149) (x * y) (fpMul rm false a b) ∧
    rounds (2 ^ 149) (z * 2 ^ 149 + x * y) (fpFma rm false false d a b) ∧
    rounds (2 ^ 149) (z * 2 ^ 149 - x * y) (fpFma rm false true d a b) ∧
    rounds 1 (a.toInt * 2 ^ 149) (fpOfInt rm a) ∧
    (y ≠ 0 → rounds y.natAbs (x * 2 ^ 149 * y.sign) (fpDiv rm false a b) ∧
      (fpDiv rm false a b).1.getLsbD 31 = (a.getLsbD 31 != b.getLsbD 31)) ∧
    (fpMul rm false a b).1.getLsbD 31 = (a.getLsbD 31 != b.getLsbD 31) ∧
    (scalePlain (b &&& 0xFFFFF) →
      let e := b.toNat / 2 ^ 12 % 256
      let r := fpBlockScale rm false b a
      rounds (2 ^ 139) (x * (4096 + b.toNat % 4096 : Nat) * 2 ^ e) (r.1, r.2.1) ∧ r.2.2 = false ∧
      r.1.getLsbD 31 = a.getLsbD 31) ∧
    (0 < x →
      let root := fpSqrt rm false a
      let square := x * 2 ^ 149
      let r := f32Units root.1
      f32Finite root.1 ∧ root.1.getLsbD 31 = false ∧ root.2 = (if r * r = square then 0 else 1) ∧
      (rm = 0 → ∀ c, f32Finite c → (r < f32Units c → 4 * square ≤ (r + f32Units c) ^ 2) ∧
        (0 ≤ f32Units c → f32Units c < r → (r + f32Units c) ^ 2 ≤ 4 * square)) ∧
      (rm = 1 ∨ rm = 3 → r * r ≤ square ∧ ∀ c, f32Finite c → r < f32Units c → square < f32Units c * f32Units c) ∧
      (rm = 2 → square ≤ r * r ∧ ∀ c, f32Finite c → 0 ≤ f32Units c → f32Units c < r →
        f32Units c * f32Units c < square)) ∧
    (0 < x →
      let inv := fpRsq false a
      let r := f32Units inv.1
      f32Finite inv.1 ∧ inv.1.getLsbD 31 = false ∧ inv.2 = (if r * r * x = 2 ^ 447 then 0 else 1) ∧
      ∀ c, f32Finite c → (r < f32Units c → 2 ^ 449 ≤ (r + f32Units c) ^ 2 * x) ∧
        (0 ≤ f32Units c → f32Units c < r → (r + f32Units c) ^ 2 * x ≤ 2 ^ 449)) ∧
    (∃ i : Int,
      (rm = 0 → 2 * (i * 2 ^ 149 - x).natAbs ≤ 2 ^ 149 ∧ (2 * (i * 2 ^ 149 - x).natAbs = 2 ^ 149 → i % 2 = 0)) ∧
      (rm = 1 → 0 ≤ i * x ∧ (i * 2 ^ 149).natAbs ≤ x.natAbs ∧ x.natAbs < (i * 2 ^ 149).natAbs + 2 ^ 149) ∧
      (rm = 2 → x ≤ i * 2 ^ 149 ∧ i * 2 ^ 149 < x + 2 ^ 149) ∧
      (rm = 3 → i * 2 ^ 149 ≤ x ∧ x < i * 2 ^ 149 + 2 ^ 149) ∧
      fpToInt rm false a =
        if 2 ^ 31 - 1 < i then (0x7FFFFFFF, 16) else if i < -(2 ^ 31) then (0x80000000, 16)
        else (BitVec.ofInt 32 i, if i * 2 ^ 149 = x then 0 else 1)) ∧
    (x + y = 0 → fpAdd rm false a b =
      (if (if x = 0 ∧ a.getLsbD 31 = b.getLsbD 31 then a.getLsbD 31 else rm == 3) then 0x80000000 else 0, 0))) ∧
  (∀ (rm : BitVec 2) (ftz : Bool) (a b : Word),
    (f32Nan a ∨ f32Nan b →
      ∀ f ∈ [fpAdd rm ftz, fpSub rm ftz, fpMul rm ftz, fpDiv rm ftz], (f a b).1 = 0x7FC00000 ∧
        (f32Signals a ∨ f32Signals b → (f a b).2 = 16) ∧ (¬ f32Signals a → ¬ f32Signals b → (f a b).2 = 0)) ∧
    (a.toNat % 2 ^ 31 = 0x7F800000 →
      (b = a ^^^ 0x80000000 → fpAdd rm ftz a b = (0x7FC00000, 16)) ∧
      (f32Finite b ∨ b = a → fpAdd rm ftz a b = (a, 0)) ∧
      (b.toNat % 2 ^ 31 = 0 → fpMul rm ftz a b = (0x7FC00000, 16) ∧ fpMul rm ftz b a = (0x7FC00000, 16))) ∧
    (b.toNat % 2 ^ 31 = 0 →
      (a.toNat % 2 ^ 31 = 0 → fpDiv rm ftz a b = (0x7FC00000, 16)) ∧
      (f32Finite a → 2 ^ 23 ≤ a.toNat % 2 ^ 31 →
        fpDiv rm ftz a b = (if a.getLsbD 31 = b.getLsbD 31 then 0x7F800000 else 0xFF800000, 8)))) ∧
  (∀ (rm : BitVec 2) (a b : Word),
    let read (w : Word) : Word := if w.toNat / 2 ^ 23 % 256 = 0 then w &&& 0x80000000 else w
    let flush (r : Word × FpFlags) : Word × FpFlags :=
      if r.1.toNat / 2 ^ 23 % 256 = 0 ∧ r.1.toNat % 2 ^ 23 ≠ 0 then (r.1 &&& 0x80000000, 3) else r
    (∀ f ∈ [fpAdd rm, fpSub rm, fpMul rm, fpDiv rm], f true a b = flush (f false (read a) (read b))) ∧
    (∀ sub d, fpFma rm true sub d a b = flush (fpFma rm false sub (read d) (read a) (read b))) ∧
    fpSqrt rm true a = fpSqrt rm false (read a) ∧ fpRsq true a = fpRsq false (read a) ∧
    fpToInt rm true a = fpToInt rm false (read a) ∧ fpToBf16 true a = fpToBf16 false (read a) ∧
    (∀ greater, fpMinMax true greater a b = fpMinMax false greater (read a) (read b)) ∧
    (∀ f, fpCompare true f a b = fpCompare false f (read a) (read b)) ∧
    (scalePlain (b &&& 0xFFFFF) →
      let r := fpBlockScale rm false b (read a)
      let z := flush (r.1, r.2.1)
      fpBlockScale rm true b a = (z.1, z.2, false)) ∧
    ∀ ftz, fpRcp ftz a = fpDiv 0 ftz 0x3F800000 a) ∧
  (∀ (ftz : Bool) (a b : Word),
    let signal : FpFlags := if f32Signals a ∨ f32Signals b then 16 else 0
    let key (w : Word) : Int := if w.getLsbD 31 then -((w.toNat % 2 ^ 31 : Nat) : Int) else (w.toNat % 2 ^ 31 : Nat)
    (f32Nan a ∨ f32Nan b → (∀ greater, fpMinMax ftz greater a b = (0x7FC00000, signal)) ∧
      ∀ f, fpCompare ftz f a b = (false, signal)) ∧
    (¬ f32Nan a → ¬ f32Nan b →
      fpCompare false numLt a b = (decide (key a < key b), 0) ∧ fpCompare false numEq a b = (decide (key a = key b), 0) ∧
      (key a < key b → fpMinMax false false a b = (a, 0) ∧ fpMinMax false true a b = (b, 0)) ∧
      (key b < key a → fpMinMax false false a b = (b, 0) ∧ fpMinMax false true a b = (a, 0)) ∧
      (key a = key b → fpMinMax false false a b = (a ||| b, 0) ∧ fpMinMax false true a b = (a &&& b, 0)))) ∧
  (∀ (rm : BitVec 2) (ftz : Bool) (a s : Word),
    let one : FpFlags := if f32Signals a then 16 else 0
    let neg := a.getLsbD 31
    let inf := a.toNat % 2 ^ 31 = 0x7F800000
    let e := s.toNat / 2 ^ 12 % 256
    (f32Nan a → fpSqrt rm ftz a = (0x7FC00000, one) ∧ fpRsq ftz a = (0x7FC00000, one) ∧ fpToInt rm ftz a = (0, 16) ∧
      fpToBf16 ftz a = (0x7FC0, one)) ∧
    (a.toNat % 2 ^ 31 = 0 → fpSqrt rm ftz a = (a, 0) ∧ fpRsq ftz a = (if neg then 0xFF800000 else 0x7F800000, 8)) ∧
    (¬ f32Nan a → neg = true → 2 ^ 23 ≤ a.toNat % 2 ^ 31 →
      fpSqrt rm ftz a = (0x7FC00000, 16) ∧ fpRsq ftz a = (0x7FC00000, 16)) ∧
    (inf → neg = false → fpSqrt rm ftz a = (a, 0) ∧ fpRsq ftz a = (0, 0)) ∧
    (inf → fpToInt rm ftz a = (if neg then 0x80000000 else 0x7FFFFFFF, 16) ∧
      fpToBf16 ftz a = (if neg then 0xFF80 else 0x7F80, 0)) ∧
    (e = 0 → fpBlockScale rm ftz s a = (0, 0, false)) ∧
    (e = 255 → fpBlockScale rm ftz s a = (0x7FC00000, one, true)) ∧
    (e ≠ 0 → e ≠ 255 → f32Nan a → fpBlockScale rm ftz s a = (0x7FC00000, one, false)) ∧
    (e ≠ 0 → e ≠ 255 → inf → fpBlockScale rm ftz s a = (a, 0, false))) ∧
  (∀ (ftz : Bool) (a : Word),
    let one : FpFlags := if f32Signals a then 16 else 0
    (f32Nan a → fpExp2 ftz a = (0x7FC00000, one) ∧ fpLog2 ftz a = (0x7FC00000, one)) ∧
    (a = 0x7F800000 → fpExp2 ftz a = (a, 0) ∧ fpLog2 ftz a = (a, 0)) ∧
    (a = 0xFF800000 → fpExp2 ftz a = (0, 0)) ∧
    (a.toNat % 2 ^ 31 = 0 → fpExp2 ftz a = (0x3F800000, 0) ∧ fpLog2 ftz a = (0xFF800000, 8)) ∧
    (¬ f32Nan a → a.getLsbD 31 = true → 2 ^ 23 ≤ a.toNat % 2 ^ 31 → fpLog2 ftz a = (0x7FC00000, 16))) ∧
  (∀ a : Word, f32Finite a →
    let x := f32Units a
    let e := fpExp2 false a
    let l := fpLog2 false a
    let read : Word := if a.toNat / 2 ^ 23 % 256 = 0 then a &&& 0x80000000 else a
    let e' := fpExp2 false read
    (∀ n : Int, x = n * 2 ^ 149 → -149 ≤ n → n ≤ 127 →
      f32Finite e.1 ∧ f32Units e.1 = 2 ^ (n + 149).toNat ∧ e.2 = 0) ∧
    (∀ n : Int, n * 2 ^ 149 < x → x < (n + 1) * 2 ^ 149 → -149 ≤ n → n ≤ 126 →
      2 ^ (n + 149).toNat ≤ f32Units e.1 ∧ f32Units e.1 ≤ 2 ^ (n + 150).toNat ∧ (-126 ≤ n → e.2 = 1) ∧ (n ≤ -128 → e.2 = 3)) ∧
    (128 * 2 ^ 149 ≤ x → e = (0x7F800000, 5)) ∧
    (-150 * 2 ^ 149 < x → x < -149 * 2 ^ 149 → e = (1, 3)) ∧
    (x ≤ -150 * 2 ^ 149 → e = (0, 3)) ∧
    (x < 0 → l = (0x7FC00000, 16)) ∧
    (∀ k : Nat, x = 2 ^ k → f32Finite l.1 ∧ f32Units l.1 = ((k : Int) - 149) * 2 ^ 149 ∧ l.1.getLsbD 31 = decide (k < 149) ∧ l.2 = 0) ∧
    (∀ k : Nat, 2 ^ k < x → x < 2 ^ (k + 1) → f32Finite l.1 ∧ l.2 = 1 ∧
      ((k : Int) - 149) * 2 ^ 149 ≤ f32Units l.1 ∧ f32Units l.1 ≤ ((k : Int) - 148) * 2 ^ 149) ∧
    fpExp2 true a = (if e'.1.toNat / 2 ^ 23 = 0 ∧ e'.1 ≠ 0 then (0, 3) else e') ∧ fpLog2 true a = fpLog2 false read) ∧
  (∀ a b : Word,
    (f32Finite a → f32Finite b → ∃ fl, f32Rounds 0 (f32Units a + f32Units b) 1 (fpAddRNE a b) fl) ∧
    (f32Nan a ∨ f32Nan b → fpAddRNE a b = 0x7FC00000) ∧
    (a.toNat % 2 ^ 31 = 0x7F800000 →
      fpAddRNE a (a ^^^ 0x80000000) = 0x7FC00000 ∧ (f32Finite b ∨ b = a → fpAddRNE a b = a ∧ fpAddRNE b a = a)) ∧
    (f32Finite a → f32Finite b → f32Units a + f32Units b = 0 →
      fpAddRNE a b = if a = 0x80000000 ∧ b = 0x80000000 then 0x80000000 else 0)) ∧
  (∀ a : Word, f32Finite a →
    let word (c : BitVec 16) : Word := c.setWidth 32 <<< 16
    let x := f32Units a
    let off (c : BitVec 16) : Int := f32Units (word c) - x
    let r := fpToBf16 false a
    (f32Finite (word r.1) ↔ x.natAbs < 511 * 2 ^ 268) ∧ r.1.getLsbD 15 = a.getLsbD 31 ∧
    (¬ f32Finite (word r.1) → r.1.toNat % 2 ^ 15 = 0x7F80 ∧ r.2 = 5) ∧
    (f32Finite (word r.1) → (r.2.getLsbD 0 = true ↔ off r.1 ≠ 0) ∧
      ∀ c, f32Finite (word c) → (off r.1).natAbs ≤ (off c).natAbs ∧
        ((off c).natAbs = (off r.1).natAbs → f32Units (word c) = f32Units (word r.1) ∨ r.1.getLsbD 0 = false))) ∧
  (∀ c : BitVec 16,
    let w : Word := c.setWidth 32 <<< 16
    (f32Nan w → fpOfBf16 c = (0x7FC00000, if f32Signals w then 16 else 0)) ∧ (¬ f32Nan w → fpOfBf16 c = (w, 0))) ∧
  (∀ (sat : Bool) (a : Word),
    let r := fpToE4m3 false sat a
    let x := f32Units a
    let off (c : Byte) : Int := e4m3Units c * 2 ^ 140 - x
    let sign : Nat := if a.getLsbD 31 then 128 else 0
    (f32Nan a → r.1 = 0x7F ∧ r.2.2 = false) ∧
    (f32Finite a → x.natAbs ≤ 464 * 2 ^ 149 →
      r.1.toNat / 128 * 128 = sign ∧ r.1.toNat % 128 ≠ 127 ∧ r.2.2 = false ∧ (r.2.1.getLsbD 0 = true ↔ off r.1 ≠ 0) ∧
      ∀ c : Byte, c.toNat % 128 ≠ 127 → (off r.1).natAbs ≤ (off c).natAbs ∧
        ((off c).natAbs = (off r.1).natAbs → e4m3Units c = e4m3Units r.1 ∨ r.1.getLsbD 0 = false)) ∧
    (¬ f32Nan a → (f32Finite a → 464 * 2 ^ 149 < x.natAbs) →
      r = (BitVec.ofNat 8 (sign + if sat then 0x7E else 0x7F), 5, true))) ∧
  ∀ b : Byte, (b.toNat % 128 = 127 → fpOfE4m3 b = 0x7FC00000) ∧
    (b.toNat % 128 ≠ 127 → f32Finite (fpOfE4m3 b) ∧ f32Units (fpOfE4m3 b) = e4m3Units b * 2 ^ 140 ∧
      (fpOfE4m3 b).getLsbD 31 = b.getLsbD 7)

/-- R46, R48, R52 to R58, R214, R221, R222, R225 to R227: the values of array arithmetic: an expanded tile keeps each weight, so
that a partial is the exact sum of products and the checks of a sound bank agree; accumulation is exact up to its clamp; a drained
value is the exact product rounded once; and what BIAS, RES, ACCF, ReLU and QNT give. That a zero scale comes before a NaN weight
of its column is the model's reading (log 32). -/
def Obligations.ArrayValues : Prop :=
  (∀ (fmt : Nat) (data : List Byte) (scales : List Word) (cols chk : Nat) (acts : List Int), cols ≤ 64 →
    let bank := (expandTile fmt data scales cols chk).1
    let byte (i : Nat) : Nat := (data.getD i 0).toNat
    let weight (e : Nat) : Int :=
      if fmt = 0 then ((byte (e / 5) / 3 ^ (e % 5) % 3 : Nat) : Int) - 1
      else if fmt = 1 then (BitVec.ofNat 4 (byte (e / 2) / 16 ^ (e % 2))).toInt
      else if fmt = 2 then (data.getD e 0).toInt
      else if byte e % 128 = 127 then 0 else e4m3Units (data.getD e 0)
    let sum (f : Nat → Int) : Int := ((List.range 64).map f).sum
    let part := partialOf bank.planes acts
    (∀ j < cols, fmt < 3 → bank.x = 0 ∧ part 1 j = sum fun i => weight (64 * i + j) * acts.getD i 0) ∧
    (∀ j < cols, fmt = 3 → (expandTile fmt data scales cols chk).2 = 0 →
      part 1 j * 2 ^ (bank.x + 9).toNat = sum fun i => weight (64 * i + j) * acts.getD i 0) ∧
    (∀ j < 64, cols ≤ j → bank.mirror = false → part 1 j = 0) ∧
    (bank.mirror = true → ∀ j < 32, part 1 (j + 32) = part 1 j) ∧
    (bank.mirror = true ↔ cols ≤ 32 ∧ (chk = 1 ∨ chk = 3)) ∧
    (∀ n ≤ 32, bank.mirror = true → checkFails bank acts n 1 = false)) ∧
  (∀ (b : Bank) (acts : List Int) (n j : Nat),
    partialOf b.planes acts 2 j = 2 * partialOf b.planes acts 1 j ∧ checkFails b acts n 2 = false) ∧
  (∀ (row : AccRow) (f : FlightRow),
    let r := row.add false f
    let lo := min row.xref f.x
    let exact (j : Nat) : Int :=
      if row.n = 0 then (if f.sa.toNat / 2 ^ 12 = 0 ∨ (f.scales.getD j 0).toNat / 2 ^ 12 = 0 then 0 else f.s.getD j 0)
      else row.c.getD j 0 * 2 ^ (row.xref - lo).toNat + f.s.getD j 0 * 2 ^ (f.x - lo).toNat
    r.1.n = row.n + 1 ∧ r.1.xref = (if row.n = 0 then f.x else lo) ∧
    (∀ j < 64, r.1.c.getD j 0 = max (-(2 ^ 47)) (min (2 ^ 47 - 1) (exact j))) ∧
    r.2.1 = (List.range 64).countP fun j => decide (exact j < -(2 ^ 47) ∨ 2 ^ 47 - 1 < exact j)) ∧
  (∀ (x e : Int) (sa sw : Word), scalePlain sa → scalePlain sw → x ≠ 0 →
    let shift : Int := e + (sa.toNat / 2 ^ 12 : Nat) + (sw.toNat / 2 ^ 12 : Nat) - 129
    ∃ fl, f32Rounds 0 (x * (4096 + sa.toNat % 4096 : Nat) * (4096 + sw.toNat % 4096 : Nat) * 2 ^ shift.toNat)
      (2 ^ (-shift).toNat) (scaledValue x e sa sw false) fl) ∧
  (∀ (x e : Int) (sa sw : Word) (nan : Bool),
    let bad (w : Word) : Prop := 255 ≤ w.toNat / 2 ^ 12
    let zero (w : Word) : Prop := w.toNat / 2 ^ 12 = 0
    (bad sa ∨ bad sw → scaledValue x e sa sw nan = 0x7FC00000) ∧
    (¬ bad sa → ¬ bad sw → zero sa ∨ zero sw → scaledValue x e sa sw nan = 0) ∧
    (¬ bad sa → ¬ bad sw → ¬ zero sa → ¬ zero sw → nan = true → scaledValue x e sa sw nan = 0x7FC00000) ∧
    (¬ bad sa → ¬ bad sw → nan = false → x = 0 → scaledValue x e sa sw nan = 0)) ∧
  (let block (n : Int) : FlightRow := ⟨0, 0, 0, 0, [n], 0x0007F000, 0, [0x0007F000], 1, [], false, false⟩
   let after (scaled : Bool) : AccRow :=
     ((((AccRow.empty.add scaled (block 16777216)).1.add scaled (block 1)).1).add scaled (block 1)).1
   (deqRow (after false) 1).lanes.headD 0 = 0x4B800001 ∧ (deqRow (after true) 1).lanes.headD 0 = 0x4B800000) ∧
  (∀ (n : Node) (before : List Node) (pars tile : List Word) (sat poisoned : Bool) (r : ChainRow) (j : Nat) (x y : Word),
    r.lanes[j]? = some x → f32Finite x →
    let out := (n.apply before pars tile sat poisoned r).lanes.getD j 0
    (n.kind = 3 → pars[j]? = some y → f32Finite y → ∃ fl, f32Rounds 0 (f32Units x + f32Units y) 1 out fl) ∧
    (n.kind = 2 ∨ n.kind = 5 → tile[j]? = some y → f32Finite y → ∃ fl, f32Rounds 0 (f32Units x + f32Units y) 1 out fl) ∧
    (n.kind = 4 → n.mode = 0 → out = if 0 < f32Units x then x else 0)) ∧
  (∀ (w s : Word), f32Finite w → scalePlain s →
    let q := (qntFixed s w).1.toInt
    let x := f32Units w
    let unit := scaleUnits s
    ((qntFixed s w).2 = true ↔ 255 * unit ≤ 2 * x.natAbs) ∧
    ((qntFixed s w).2 = true → q = if x < 0 then -127 else 127) ∧
    ((qntFixed s w).2 = false → 2 * (q * unit - x).natAbs ≤ unit ∧ (2 * (q * unit - x).natAbs = unit → q % 2 = 0))) ∧
  ∀ lanes : List Word, (∀ w ∈ lanes, f32Finite w) →
    let s := (qntDynamic lanes).2
    ((∀ w ∈ lanes, f32Units w = 0) → s = 0) ∧
    ((∃ w ∈ lanes, f32Units w ≠ 0) →
      scalePlain s ∧ (∀ w ∈ lanes, (f32Units w).natAbs ≤ 127 * scaleUnits s) ∧
      (∀ t, scalePlain t → (∀ w ∈ lanes, (f32Units w).natAbs ≤ 127 * scaleUnits t) → scaleUnits s ≤ scaleUnits t) ∧
      ∀ (i : Nat) (w : Word), lanes[i]? = some w →
        let q := ((qntDynamic lanes).1.getD i 0).toInt
        q.natAbs ≤ 127 ∧ 2 * (q * scaleUnits s - f32Units w).natAbs ≤ scaleUnits s ∧
        (2 * (q * scaleUnits s - f32Units w).natAbs = scaleUnits s → q % 2 = 0))
end

