-- ==== Sys2Proof/Laws/Tables.lean ====
section
/-! SUPPORT. Reading a table after an entry was replaced. -/

namespace Sys2Proof.Machine

variable {α : Type} {d v : α}

@[simp] theorem tget_tput (t : Tab α) (k j : Nat) : tget d (tput t k v) j = if j = k then v else tget d t j := by
  induction t with
  | nil => simp only [tput, tget, eq_comm]
  | cons p r ih =>
    obtain ⟨i, x⟩ := p
    rcases Nat.lt_trichotomy i k with h | h | h
    · have h' : ¬ i = k := by omega
      by_cases e : i = j
      · subst e; simp [tput, tget, h, h']
      · simp [tput, tget, h, e, ih]
    · subst h
      by_cases e : i = j <;> simp [tput, tget, e, Ne.symm]
    · have h1 : ¬ i < k := by omega
      have h2 : ¬ i = k := by omega
      by_cases e : k = j
      · subst e; simp [tput, tget, h1, h2]
      · have e' : ¬ j = k := by omega
        simp [tput, tget, h1, h2, e, e']

theorem tget_tput_same (t : Tab α) (k : Nat) : tget d (tput t k v) k = v := by simp

theorem tget_tput_ne (t : Tab α) {k j : Nat} (h : j ≠ k) : tget d (tput t k v) j = tget d t j := by simp [h]

/-- Of two updates of one entry the later holds. -/
@[simp] theorem tput_tput (t : Tab α) (k : Nat) (w : α) : tput (tput t k v) k w = tput t k w := by
  induction t with
  | nil => simp [tput]
  | cons p r ih =>
    obtain ⟨i, x⟩ := p
    rcases Nat.lt_trichotomy i k with h | h | h
    · simp [tput, h, ih]
    · subst h; simp [tput]
    · have h1 : ¬ i < k := by omega
      have h2 : ¬ i = k := by omega
      simp [tput, h1, h2]

end Sys2Proof.Machine
end

