-- ==== Sys2Proof/Laws/State.lean ====
section
/-! SUPPORT. What the named updates of the chain, of a cell and of a strand leave: one lemma for each field, and what reading
a module, a cell or a strand after an update gives. -/

namespace Sys2Proof.Machine

variable (s : State) (c : Cell) (st : Strand) (m u k : Nat)

/-! ### Updates of the chain -/

@[simp] theorem State.setMod_cycle (x : Module) : (s.setMod m x).cycle = s.cycle := rfl
@[simp] theorem State.setMod_phase (x : Module) : (s.setMod m x).phase = s.phase := rfl
@[simp] theorem State.setMod_todo (x : Module) : (s.setMod m x).todo = s.todo := rfl
@[simp] theorem State.setMod_cur (x : Module) : (s.setMod m x).cur = s.cur := rfl
@[simp] theorem State.setMod_last (x : Module) : (s.setMod m x).last = s.last := rfl
@[simp] theorem State.setMod_focus (x : Module) : (s.setMod m x).focus = s.focus := rfl
@[simp] theorem State.setMod_inputs (x : Module) : (s.setMod m x).inputs = s.inputs := rfl
@[simp] theorem State.setMod_net (x : Module) : (s.setMod m x).net = s.net := rfl
@[simp] theorem State.setMod_nextId (x : Module) : (s.setMod m x).nextId = s.nextId := rfl
@[simp] theorem State.setMod_cables (x : Module) : (s.setMod m x).cables = s.cables := rfl
@[simp] theorem State.setMod_flits (x : Module) : (s.setMod m x).flits = s.flits := rfl
@[simp] theorem State.setMod_seq (x : Module) : (s.setMod m x).seq = s.seq := rfl
@[simp] theorem State.setMod_free (x : Module) : (s.setMod m x).free = s.free := rfl

@[simp] theorem State.onMod_cycle (f : Module → Module) : (s.onMod m f).cycle = s.cycle := rfl
@[simp] theorem State.onMod_phase (f : Module → Module) : (s.onMod m f).phase = s.phase := rfl
@[simp] theorem State.onMod_todo (f : Module → Module) : (s.onMod m f).todo = s.todo := rfl
@[simp] theorem State.onMod_cur (f : Module → Module) : (s.onMod m f).cur = s.cur := rfl
@[simp] theorem State.onMod_last (f : Module → Module) : (s.onMod m f).last = s.last := rfl
@[simp] theorem State.onMod_focus (f : Module → Module) : (s.onMod m f).focus = s.focus := rfl
@[simp] theorem State.onMod_inputs (f : Module → Module) : (s.onMod m f).inputs = s.inputs := rfl
@[simp] theorem State.onMod_net (f : Module → Module) : (s.onMod m f).net = s.net := rfl
@[simp] theorem State.onMod_nextId (f : Module → Module) : (s.onMod m f).nextId = s.nextId := rfl
@[simp] theorem State.onMod_cables (f : Module → Module) : (s.onMod m f).cables = s.cables := rfl
@[simp] theorem State.onMod_flits (f : Module → Module) : (s.onMod m f).flits = s.flits := rfl
@[simp] theorem State.onMod_seq (f : Module → Module) : (s.onMod m f).seq = s.seq := rfl
@[simp] theorem State.onMod_free (f : Module → Module) : (s.onMod m f).free = s.free := rfl

@[simp] theorem State.setCell_cycle (x : Cell) : (s.setCell m u x).cycle = s.cycle := rfl
@[simp] theorem State.setCell_phase (x : Cell) : (s.setCell m u x).phase = s.phase := rfl
@[simp] theorem State.setCell_todo (x : Cell) : (s.setCell m u x).todo = s.todo := rfl
@[simp] theorem State.setCell_cur (x : Cell) : (s.setCell m u x).cur = s.cur := rfl
@[simp] theorem State.setCell_last (x : Cell) : (s.setCell m u x).last = s.last := rfl
@[simp] theorem State.setCell_focus (x : Cell) : (s.setCell m u x).focus = s.focus := rfl
@[simp] theorem State.setCell_inputs (x : Cell) : (s.setCell m u x).inputs = s.inputs := rfl
@[simp] theorem State.setCell_net (x : Cell) : (s.setCell m u x).net = s.net := rfl
@[simp] theorem State.setCell_nextId (x : Cell) : (s.setCell m u x).nextId = s.nextId := rfl
@[simp] theorem State.setCell_cables (x : Cell) : (s.setCell m u x).cables = s.cables := rfl
@[simp] theorem State.setCell_flits (x : Cell) : (s.setCell m u x).flits = s.flits := rfl
@[simp] theorem State.setCell_seq (x : Cell) : (s.setCell m u x).seq = s.seq := rfl
@[simp] theorem State.setCell_free (x : Cell) : (s.setCell m u x).free = s.free := rfl

@[simp] theorem State.onCell_cycle (f : Cell → Cell) : (s.onCell m u f).cycle = s.cycle := rfl
@[simp] theorem State.onCell_phase (f : Cell → Cell) : (s.onCell m u f).phase = s.phase := rfl
@[simp] theorem State.onCell_todo (f : Cell → Cell) : (s.onCell m u f).todo = s.todo := rfl
@[simp] theorem State.onCell_cur (f : Cell → Cell) : (s.onCell m u f).cur = s.cur := rfl
@[simp] theorem State.onCell_last (f : Cell → Cell) : (s.onCell m u f).last = s.last := rfl
@[simp] theorem State.onCell_focus (f : Cell → Cell) : (s.onCell m u f).focus = s.focus := rfl
@[simp] theorem State.onCell_inputs (f : Cell → Cell) : (s.onCell m u f).inputs = s.inputs := rfl
@[simp] theorem State.onCell_net (f : Cell → Cell) : (s.onCell m u f).net = s.net := rfl
@[simp] theorem State.onCell_nextId (f : Cell → Cell) : (s.onCell m u f).nextId = s.nextId := rfl
@[simp] theorem State.onCell_cables (f : Cell → Cell) : (s.onCell m u f).cables = s.cables := rfl
@[simp] theorem State.onCell_flits (f : Cell → Cell) : (s.onCell m u f).flits = s.flits := rfl
@[simp] theorem State.onCell_seq (f : Cell → Cell) : (s.onCell m u f).seq = s.seq := rfl
@[simp] theorem State.onCell_free (f : Cell → Cell) : (s.onCell m u f).free = s.free := rfl

@[simp] theorem State.onStrand_cycle (f : Strand → Strand) : (s.onStrand m u k f).cycle = s.cycle := rfl
@[simp] theorem State.onStrand_phase (f : Strand → Strand) : (s.onStrand m u k f).phase = s.phase := rfl
@[simp] theorem State.onStrand_todo (f : Strand → Strand) : (s.onStrand m u k f).todo = s.todo := rfl
@[simp] theorem State.onStrand_cur (f : Strand → Strand) : (s.onStrand m u k f).cur = s.cur := rfl
@[simp] theorem State.onStrand_last (f : Strand → Strand) : (s.onStrand m u k f).last = s.last := rfl
@[simp] theorem State.onStrand_focus (f : Strand → Strand) : (s.onStrand m u k f).focus = s.focus := rfl
@[simp] theorem State.onStrand_inputs (f : Strand → Strand) : (s.onStrand m u k f).inputs = s.inputs := rfl
@[simp] theorem State.onStrand_net (f : Strand → Strand) : (s.onStrand m u k f).net = s.net := rfl
@[simp] theorem State.onStrand_nextId (f : Strand → Strand) : (s.onStrand m u k f).nextId = s.nextId := rfl
@[simp] theorem State.onStrand_cables (f : Strand → Strand) : (s.onStrand m u k f).cables = s.cables := rfl
@[simp] theorem State.onStrand_flits (f : Strand → Strand) : (s.onStrand m u k f).flits = s.flits := rfl
@[simp] theorem State.onStrand_seq (f : Strand → Strand) : (s.onStrand m u k f).seq = s.seq := rfl
@[simp] theorem State.onStrand_free (f : Strand → Strand) : (s.onStrand m u k f).free = s.free := rfl

@[simp] theorem State.dropMsg_cycle (id : Nat) : (s.dropMsg id).cycle = s.cycle := rfl
@[simp] theorem State.dropMsg_phase (id : Nat) : (s.dropMsg id).phase = s.phase := rfl
@[simp] theorem State.dropMsg_todo (id : Nat) : (s.dropMsg id).todo = s.todo := rfl
@[simp] theorem State.dropMsg_cur (id : Nat) : (s.dropMsg id).cur = s.cur := rfl
@[simp] theorem State.dropMsg_last (id : Nat) : (s.dropMsg id).last = s.last := rfl
@[simp] theorem State.dropMsg_focus (id : Nat) : (s.dropMsg id).focus = s.focus := rfl
@[simp] theorem State.dropMsg_mods (id : Nat) : (s.dropMsg id).mods = s.mods := rfl
@[simp] theorem State.dropMsg_inputs (id : Nat) : (s.dropMsg id).inputs = s.inputs := rfl
@[simp] theorem State.dropMsg_nextId (id : Nat) : (s.dropMsg id).nextId = s.nextId := rfl
@[simp] theorem State.dropMsg_cables (id : Nat) : (s.dropMsg id).cables = s.cables := rfl
@[simp] theorem State.dropMsg_flits (id : Nat) : (s.dropMsg id).flits = s.flits := rfl
@[simp] theorem State.dropMsg_seq (id : Nat) : (s.dropMsg id).seq = s.seq := rfl
@[simp] theorem State.dropMsg_free (id : Nat) : (s.dropMsg id).free = s.free := rfl

@[simp] theorem State.send_cycle (strand : Nat) (dst : Addr) (vc : Nat) (body : Body) : (s.send m u strand dst vc body).cycle = s.cycle := rfl
@[simp] theorem State.send_phase (strand : Nat) (dst : Addr) (vc : Nat) (body : Body) : (s.send m u strand dst vc body).phase = s.phase := rfl
@[simp] theorem State.send_todo (strand : Nat) (dst : Addr) (vc : Nat) (body : Body) : (s.send m u strand dst vc body).todo = s.todo := rfl
@[simp] theorem State.send_cur (strand : Nat) (dst : Addr) (vc : Nat) (body : Body) : (s.send m u strand dst vc body).cur = s.cur := rfl
@[simp] theorem State.send_last (strand : Nat) (dst : Addr) (vc : Nat) (body : Body) : (s.send m u strand dst vc body).last = s.last := rfl
@[simp] theorem State.send_focus (strand : Nat) (dst : Addr) (vc : Nat) (body : Body) : (s.send m u strand dst vc body).focus = s.focus := rfl
@[simp] theorem State.send_mods (strand : Nat) (dst : Addr) (vc : Nat) (body : Body) : (s.send m u strand dst vc body).mods = s.mods := rfl
@[simp] theorem State.send_inputs (strand : Nat) (dst : Addr) (vc : Nat) (body : Body) : (s.send m u strand dst vc body).inputs = s.inputs := rfl
@[simp] theorem State.send_cables (strand : Nat) (dst : Addr) (vc : Nat) (body : Body) : (s.send m u strand dst vc body).cables = s.cables := rfl
@[simp] theorem State.send_flits (strand : Nat) (dst : Addr) (vc : Nat) (body : Body) : (s.send m u strand dst vc body).flits = s.flits := rfl
@[simp] theorem State.send_seq (strand : Nat) (dst : Addr) (vc : Nat) (body : Body) : (s.send m u strand dst vc body).seq = s.seq := rfl
@[simp] theorem State.send_free (strand : Nat) (dst : Addr) (vc : Nat) (body : Body) : (s.send m u strand dst vc body).free = s.free := rfl

@[simp] theorem State.send_nextId (strand : Nat) (dst : Addr) (vc : Nat) (body : Body) :
    (s.send m u strand dst vc body).nextId = s.nextId + 1 := rfl

/-! ### Reading the chain after an update -/

@[simp] theorem State.mod_onMod (f : Module → Module) (m' : Nat) :
    (s.onMod m f).mod m' = if m' = m then f (s.mod m) else s.mod m' := by
  simp [State.onMod, State.setMod, State.mod]

@[simp] theorem State.mod_setCell (x : Cell) (m' : Nat) :
    (s.setCell m u x).mod m' = if m' = m then { s.mod m with cells := tput (s.mod m).cells u x } else s.mod m' := by
  simp [State.setCell]

@[simp] theorem State.onMod_onMod (f g : Module → Module) : (s.onMod m f).onMod m g = s.onMod m fun x => g (f x) := by
  simp [State.onMod, State.setMod, State.mod]

@[simp] theorem State.setCell_setCell (x y : Cell) : (s.setCell m u x).setCell m u y = s.setCell m u y := by
  simp [State.setCell]

@[simp] theorem State.cell_setCell (x : Cell) (m' u' : Nat) :
    (s.setCell m u x).cell m' u' = if m' = m ∧ u' = u then x else s.cell m' u' := by
  unfold State.cell
  by_cases h : m' = m
  · subst h; by_cases g : u' = u <;> simp [g]
  · simp [h]

@[simp] theorem State.cell_onCell (f : Cell → Cell) (m' u' : Nat) :
    (s.onCell m u f).cell m' u' = if m' = m ∧ u' = u then f (s.cell m u) else s.cell m' u' := by
  simp [State.onCell]

theorem State.mod_onCell_ne (f : Cell → Cell) {m' : Nat} (h : m' ≠ m) : (s.onCell m u f).mod m' = s.mod m' := by
  simp [State.onCell, h]

theorem State.cell_onCell_same (f : Cell → Cell) : (s.onCell m u f).cell m u = f (s.cell m u) := by simp

theorem State.cell_onCell_ne (f : Cell → Cell) {u' : Nat} (m' : Nat) (h : u' ≠ u) :
    (s.onCell m u f).cell m' u' = s.cell m' u' := by simp [h]

@[simp] theorem State.io_setCell (x : Cell) (m' : Nat) : ((s.setCell m u x).mod m').io = (s.mod m').io := by
  by_cases h : m' = m
  · subst h; simp
  · simp [h]

@[simp] theorem State.io_onCell (f : Cell → Cell) (m' : Nat) : ((s.onCell m u f).mod m').io = (s.mod m').io := by
  simp only [State.onCell, State.io_setCell]

@[simp] theorem State.io_onStrand (f : Strand → Strand) (m' : Nat) : ((s.onStrand m u k f).mod m').io = (s.mod m').io := by
  simp [State.onStrand]

theorem State.cell_of_mods {s t : State} (h : t.mods = s.mods) : t.cell m u = s.cell m u := by
  simp [State.cell, State.mod, h]

@[simp] theorem State.cell_dropMsg (id : Nat) : (s.dropMsg id).cell m u = s.cell m u := rfl
@[simp] theorem State.mod_dropMsg (id : Nat) : (s.dropMsg id).mod m = s.mod m := rfl
@[simp] theorem State.cell_send (m' u' strand : Nat) (dst : Addr) (vc : Nat) (body : Body) :
    (s.send m' u' strand dst vc body).cell m u = s.cell m u := rfl
@[simp] theorem State.mod_send (m' u' strand : Nat) (dst : Addr) (vc : Nat) (body : Body) :
    (s.send m' u' strand dst vc body).mod m = s.mod m := rfl

@[simp] theorem Cell.strand_setStrand (x : Strand) (k' : Nat) :
    (c.setStrand k x).strand k' = if k' = k ∧ k < 4 then x else c.strand k' := by
  unfold Cell.strand Cell.setStrand Vector.getD
  by_cases hk : k' < 4
  · by_cases h : k' = k
    · subst h; simp [hk]
    · have g : ¬ k = k' := fun e => h e.symm
      simp [hk, h, g]
  · have g : ¬ (k' = k ∧ k < 4) := fun e => hk (e.1 ▸ e.2)
    simp [hk, g]

@[simp] theorem Cell.strand_onStrand (f : Strand → Strand) (k' : Nat) :
    (c.onStrand k f).strand k' = if k' = k ∧ k < 4 then f (c.strand k) else c.strand k' := by
  simp [Cell.onStrand]

@[simp] theorem State.strand_onStrand (f : Strand → Strand) (m' u' k' : Nat) :
    (s.onStrand m u k f).strand m' u' k' =
      if m' = m ∧ u' = u ∧ k' = k ∧ k < 4 then f (s.strand m u k) else s.strand m' u' k' := by
  unfold State.strand State.onStrand
  by_cases h : m' = m ∧ u' = u
  · obtain ⟨rfl, rfl⟩ := h; simp
  · have : ¬ (m' = m ∧ u' = u ∧ k' = k ∧ k < 4) := fun e => h ⟨e.1, e.2.1⟩
    simp [h, this]

theorem State.strand_onStrand_same (f : Strand → Strand) (h : k < 4) :
    (s.onStrand m u k f).strand m u k = f (s.strand m u k) := by simp [h]

theorem State.strand_onStrand_ne (f : Strand → Strand) (m' u' : Nat) {k' : Nat} (h : k' ≠ k) :
    (s.onStrand m u k f).strand m' u' k' = s.strand m' u' k' := by simp [h]

@[simp] theorem Cell.record_onRecord (e e' : Nat) (f : RecEntry → RecEntry) :
    (c.onRecord e f).record e' = if e' = e then f (c.record e) else c.record e' := by
  simp [Cell.record, Cell.onRecord]

@[simp] theorem Cell.inCh_onIn (n n' : Nat) (f : InChan → InChan) :
    (c.onIn n f).inCh n' = if n' = n then f (c.inCh n) else c.inCh n' := by simp [Cell.inCh, Cell.onIn]

@[simp] theorem Cell.outCh_onOut (n n' : Nat) (f : OutChan → OutChan) :
    (c.onOut n f).outCh n' = if n' = n then f (c.outCh n) else c.outCh n' := by simp [Cell.outCh, Cell.onOut]

@[simp] theorem Cell.token_onToken (n n' : Nat) (f : TokEntry → TokEntry) :
    (c.onToken n f).token n' = if n' = n then f (c.token n) else c.token n' := by simp [Cell.token, Cell.onToken]

/-! ### Updates of a cell -/

@[simp] theorem Cell.setStrand_spire (x : Strand) : (c.setStrand k x).spire = c.spire := rfl
@[simp] theorem Cell.setStrand_mem (x : Strand) : (c.setStrand k x).mem = c.mem := rfl
@[simp] theorem Cell.setStrand_bad (x : Strand) : (c.setStrand k x).bad = c.bad := rfl
@[simp] theorem Cell.setStrand_races (x : Strand) : (c.setStrand k x).races = c.races := rfl
@[simp] theorem Cell.setStrand_scb (x : Strand) : (c.setStrand k x).scb = c.scb := rfl
@[simp] theorem Cell.setStrand_recs (x : Strand) : (c.setStrand k x).recs = c.recs := rfl
@[simp] theorem Cell.setStrand_ends (x : Strand) : (c.setStrand k x).ends = c.ends := rfl
@[simp] theorem Cell.setStrand_ctxJob (x : Strand) : (c.setStrand k x).ctxJob = c.ctxJob := rfl
@[simp] theorem Cell.setStrand_ctxQueue (x : Strand) : (c.setStrand k x).ctxQueue = c.ctxQueue := rfl
@[simp] theorem Cell.setStrand_binds (x : Strand) : (c.setStrand k x).binds = c.binds := rfl
@[simp] theorem Cell.setStrand_ptr (x : Strand) : (c.setStrand k x).ptr = c.ptr := rfl
@[simp] theorem Cell.setStrand_agelim (x : Strand) : (c.setStrand k x).agelim = c.agelim := rfl
@[simp] theorem Cell.setStrand_tokexp (x : Strand) : (c.setStrand k x).tokexp = c.tokexp := rfl
@[simp] theorem Cell.setStrand_tokexpNow (x : Strand) : (c.setStrand k x).tokexpNow = c.tokexpNow := rfl
@[simp] theorem Cell.setStrand_faultq (x : Strand) : (c.setStrand k x).faultq = c.faultq := rfl
@[simp] theorem Cell.setStrand_rbres (x : Strand) : (c.setStrand k x).rbres = c.rbres := rfl
@[simp] theorem Cell.setStrand_xset (x : Strand) : (c.setStrand k x).xset = c.xset := rfl
@[simp] theorem Cell.setStrand_cds (x : Strand) : (c.setStrand k x).cds = c.cds := rfl
@[simp] theorem Cell.setStrand_ops (x : Strand) : (c.setStrand k x).ops = c.ops := rfl
@[simp] theorem Cell.setStrand_engineAt (x : Strand) : (c.setStrand k x).engineAt = c.engineAt := rfl
@[simp] theorem Cell.setStrand_tokens (x : Strand) : (c.setStrand k x).tokens = c.tokens := rfl
@[simp] theorem Cell.setStrand_landings (x : Strand) : (c.setStrand k x).landings = c.landings := rfl
@[simp] theorem Cell.setStrand_hold (x : Strand) : (c.setStrand k x).hold = c.hold := rfl
@[simp] theorem Cell.setStrand_arrivals (x : Strand) : (c.setStrand k x).arrivals = c.arrivals := rfl
@[simp] theorem Cell.setStrand_waits (x : Strand) : (c.setStrand k x).waits = c.waits := rfl
@[simp] theorem Cell.setStrand_deliveries (x : Strand) : (c.setStrand k x).deliveries = c.deliveries := rfl
@[simp] theorem Cell.setStrand_parts (x : Strand) : (c.setStrand k x).parts = c.parts := rfl
@[simp] theorem Cell.setStrand_regWrites (x : Strand) : (c.setStrand k x).regWrites = c.regWrites := rfl
@[simp] theorem Cell.setStrand_cnts (x : Strand) : (c.setStrand k x).cnts = c.cnts := rfl
@[simp] theorem Cell.setStrand_cntsWas (x : Strand) : (c.setStrand k x).cntsWas = c.cntsWas := rfl
@[simp] theorem Cell.setStrand_cntsNew (x : Strand) : (c.setStrand k x).cntsNew = c.cntsNew := rfl
@[simp] theorem Cell.setStrand_cmax (x : Strand) : (c.setStrand k x).cmax = c.cmax := rfl
@[simp] theorem Cell.setStrand_cnan (x : Strand) : (c.setStrand k x).cnan = c.cnan := rfl
@[simp] theorem Cell.setStrand_arr (x : Strand) : (c.setStrand k x).arr = c.arr := rfl
@[simp] theorem Cell.setStrand_ins (x : Strand) : (c.setStrand k x).ins = c.ins := rfl
@[simp] theorem Cell.setStrand_outs (x : Strand) : (c.setStrand k x).outs = c.outs := rfl
@[simp] theorem Cell.setStrand_pushes (x : Strand) : (c.setStrand k x).pushes = c.pushes := rfl
@[simp] theorem Cell.setStrand_rels (x : Strand) : (c.setStrand k x).rels = c.rels := rfl
@[simp] theorem Cell.setStrand_tbs (x : Strand) : (c.setStrand k x).tbs = c.tbs := rfl
@[simp] theorem Cell.setStrand_tbjobs (x : Strand) : (c.setStrand k x).tbjobs = c.tbjobs := rfl
@[simp] theorem Cell.setStrand_staging (x : Strand) : (c.setStrand k x).staging = c.staging := rfl
@[simp] theorem Cell.setStrand_logs (x : Strand) : (c.setStrand k x).logs = c.logs := rfl
@[simp] theorem Cell.setStrand_inject (x : Strand) : (c.setStrand k x).inject = c.inject := rfl
@[simp] theorem Cell.setStrand_flips (x : Strand) : (c.setStrand k x).flips = c.flips := rfl
@[simp] theorem Cell.setStrand_repcmd (x : Strand) : (c.setStrand k x).repcmd = c.repcmd := rfl
@[simp] theorem Cell.setStrand_repaired (x : Strand) : (c.setStrand k x).repaired = c.repaired := rfl
@[simp] theorem Cell.setStrand_nospare (x : Strand) : (c.setStrand k x).nospare = c.nospare := rfl
@[simp] theorem Cell.setStrand_repairAt (x : Strand) : (c.setStrand k x).repairAt = c.repairAt := rfl
@[simp] theorem Cell.setStrand_remaps (x : Strand) : (c.setStrand k x).remaps = c.remaps := rfl
@[simp] theorem Cell.setStrand_faults (x : Strand) : (c.setStrand k x).faults = c.faults := rfl
@[simp] theorem Cell.setStrand_qwaits (x : Strand) : (c.setStrand k x).qwaits = c.qwaits := rfl

@[simp] theorem Cell.onStrand_spire (f : Strand → Strand) : (c.onStrand k f).spire = c.spire := rfl
@[simp] theorem Cell.onStrand_mem (f : Strand → Strand) : (c.onStrand k f).mem = c.mem := rfl
@[simp] theorem Cell.onStrand_bad (f : Strand → Strand) : (c.onStrand k f).bad = c.bad := rfl
@[simp] theorem Cell.onStrand_races (f : Strand → Strand) : (c.onStrand k f).races = c.races := rfl
@[simp] theorem Cell.onStrand_scb (f : Strand → Strand) : (c.onStrand k f).scb = c.scb := rfl
@[simp] theorem Cell.onStrand_recs (f : Strand → Strand) : (c.onStrand k f).recs = c.recs := rfl
@[simp] theorem Cell.onStrand_ends (f : Strand → Strand) : (c.onStrand k f).ends = c.ends := rfl
@[simp] theorem Cell.onStrand_ctxJob (f : Strand → Strand) : (c.onStrand k f).ctxJob = c.ctxJob := rfl
@[simp] theorem Cell.onStrand_ctxQueue (f : Strand → Strand) : (c.onStrand k f).ctxQueue = c.ctxQueue := rfl
@[simp] theorem Cell.onStrand_binds (f : Strand → Strand) : (c.onStrand k f).binds = c.binds := rfl
@[simp] theorem Cell.onStrand_ptr (f : Strand → Strand) : (c.onStrand k f).ptr = c.ptr := rfl
@[simp] theorem Cell.onStrand_agelim (f : Strand → Strand) : (c.onStrand k f).agelim = c.agelim := rfl
@[simp] theorem Cell.onStrand_tokexp (f : Strand → Strand) : (c.onStrand k f).tokexp = c.tokexp := rfl
@[simp] theorem Cell.onStrand_tokexpNow (f : Strand → Strand) : (c.onStrand k f).tokexpNow = c.tokexpNow := rfl
@[simp] theorem Cell.onStrand_faultq (f : Strand → Strand) : (c.onStrand k f).faultq = c.faultq := rfl
@[simp] theorem Cell.onStrand_rbres (f : Strand → Strand) : (c.onStrand k f).rbres = c.rbres := rfl
@[simp] theorem Cell.onStrand_xset (f : Strand → Strand) : (c.onStrand k f).xset = c.xset := rfl
@[simp] theorem Cell.onStrand_cds (f : Strand → Strand) : (c.onStrand k f).cds = c.cds := rfl
@[simp] theorem Cell.onStrand_ops (f : Strand → Strand) : (c.onStrand k f).ops = c.ops := rfl
@[simp] theorem Cell.onStrand_engineAt (f : Strand → Strand) : (c.onStrand k f).engineAt = c.engineAt := rfl
@[simp] theorem Cell.onStrand_tokens (f : Strand → Strand) : (c.onStrand k f).tokens = c.tokens := rfl
@[simp] theorem Cell.onStrand_landings (f : Strand → Strand) : (c.onStrand k f).landings = c.landings := rfl
@[simp] theorem Cell.onStrand_hold (f : Strand → Strand) : (c.onStrand k f).hold = c.hold := rfl
@[simp] theorem Cell.onStrand_arrivals (f : Strand → Strand) : (c.onStrand k f).arrivals = c.arrivals := rfl
@[simp] theorem Cell.onStrand_waits (f : Strand → Strand) : (c.onStrand k f).waits = c.waits := rfl
@[simp] theorem Cell.onStrand_deliveries (f : Strand → Strand) : (c.onStrand k f).deliveries = c.deliveries := rfl
@[simp] theorem Cell.onStrand_parts (f : Strand → Strand) : (c.onStrand k f).parts = c.parts := rfl
@[simp] theorem Cell.onStrand_regWrites (f : Strand → Strand) : (c.onStrand k f).regWrites = c.regWrites := rfl
@[simp] theorem Cell.onStrand_cnts (f : Strand → Strand) : (c.onStrand k f).cnts = c.cnts := rfl
@[simp] theorem Cell.onStrand_cntsWas (f : Strand → Strand) : (c.onStrand k f).cntsWas = c.cntsWas := rfl
@[simp] theorem Cell.onStrand_cntsNew (f : Strand → Strand) : (c.onStrand k f).cntsNew = c.cntsNew := rfl
@[simp] theorem Cell.onStrand_cmax (f : Strand → Strand) : (c.onStrand k f).cmax = c.cmax := rfl
@[simp] theorem Cell.onStrand_cnan (f : Strand → Strand) : (c.onStrand k f).cnan = c.cnan := rfl
@[simp] theorem Cell.onStrand_arr (f : Strand → Strand) : (c.onStrand k f).arr = c.arr := rfl
@[simp] theorem Cell.onStrand_ins (f : Strand → Strand) : (c.onStrand k f).ins = c.ins := rfl
@[simp] theorem Cell.onStrand_outs (f : Strand → Strand) : (c.onStrand k f).outs = c.outs := rfl
@[simp] theorem Cell.onStrand_pushes (f : Strand → Strand) : (c.onStrand k f).pushes = c.pushes := rfl
@[simp] theorem Cell.onStrand_rels (f : Strand → Strand) : (c.onStrand k f).rels = c.rels := rfl
@[simp] theorem Cell.onStrand_tbs (f : Strand → Strand) : (c.onStrand k f).tbs = c.tbs := rfl
@[simp] theorem Cell.onStrand_tbjobs (f : Strand → Strand) : (c.onStrand k f).tbjobs = c.tbjobs := rfl
@[simp] theorem Cell.onStrand_staging (f : Strand → Strand) : (c.onStrand k f).staging = c.staging := rfl
@[simp] theorem Cell.onStrand_logs (f : Strand → Strand) : (c.onStrand k f).logs = c.logs := rfl
@[simp] theorem Cell.onStrand_inject (f : Strand → Strand) : (c.onStrand k f).inject = c.inject := rfl
@[simp] theorem Cell.onStrand_flips (f : Strand → Strand) : (c.onStrand k f).flips = c.flips := rfl
@[simp] theorem Cell.onStrand_repcmd (f : Strand → Strand) : (c.onStrand k f).repcmd = c.repcmd := rfl
@[simp] theorem Cell.onStrand_repaired (f : Strand → Strand) : (c.onStrand k f).repaired = c.repaired := rfl
@[simp] theorem Cell.onStrand_nospare (f : Strand → Strand) : (c.onStrand k f).nospare = c.nospare := rfl
@[simp] theorem Cell.onStrand_repairAt (f : Strand → Strand) : (c.onStrand k f).repairAt = c.repairAt := rfl
@[simp] theorem Cell.onStrand_remaps (f : Strand → Strand) : (c.onStrand k f).remaps = c.remaps := rfl
@[simp] theorem Cell.onStrand_faults (f : Strand → Strand) : (c.onStrand k f).faults = c.faults := rfl
@[simp] theorem Cell.onStrand_qwaits (f : Strand → Strand) : (c.onStrand k f).qwaits = c.qwaits := rfl

@[simp] theorem Cell.onRecord_spire (e : Nat) (f : RecEntry → RecEntry) : (c.onRecord e f).spire = c.spire := rfl
@[simp] theorem Cell.onRecord_strands (e : Nat) (f : RecEntry → RecEntry) : (c.onRecord e f).strands = c.strands := rfl
@[simp] theorem Cell.onRecord_mem (e : Nat) (f : RecEntry → RecEntry) : (c.onRecord e f).mem = c.mem := rfl
@[simp] theorem Cell.onRecord_bad (e : Nat) (f : RecEntry → RecEntry) : (c.onRecord e f).bad = c.bad := rfl
@[simp] theorem Cell.onRecord_races (e : Nat) (f : RecEntry → RecEntry) : (c.onRecord e f).races = c.races := rfl
@[simp] theorem Cell.onRecord_scb (e : Nat) (f : RecEntry → RecEntry) : (c.onRecord e f).scb = c.scb := rfl
@[simp] theorem Cell.onRecord_ends (e : Nat) (f : RecEntry → RecEntry) : (c.onRecord e f).ends = c.ends := rfl
@[simp] theorem Cell.onRecord_ctxJob (e : Nat) (f : RecEntry → RecEntry) : (c.onRecord e f).ctxJob = c.ctxJob := rfl
@[simp] theorem Cell.onRecord_ctxQueue (e : Nat) (f : RecEntry → RecEntry) : (c.onRecord e f).ctxQueue = c.ctxQueue := rfl
@[simp] theorem Cell.onRecord_binds (e : Nat) (f : RecEntry → RecEntry) : (c.onRecord e f).binds = c.binds := rfl
@[simp] theorem Cell.onRecord_ptr (e : Nat) (f : RecEntry → RecEntry) : (c.onRecord e f).ptr = c.ptr := rfl
@[simp] theorem Cell.onRecord_agelim (e : Nat) (f : RecEntry → RecEntry) : (c.onRecord e f).agelim = c.agelim := rfl
@[simp] theorem Cell.onRecord_tokexp (e : Nat) (f : RecEntry → RecEntry) : (c.onRecord e f).tokexp = c.tokexp := rfl
@[simp] theorem Cell.onRecord_tokexpNow (e : Nat) (f : RecEntry → RecEntry) : (c.onRecord e f).tokexpNow = c.tokexpNow := rfl
@[simp] theorem Cell.onRecord_faultq (e : Nat) (f : RecEntry → RecEntry) : (c.onRecord e f).faultq = c.faultq := rfl
@[simp] theorem Cell.onRecord_rbres (e : Nat) (f : RecEntry → RecEntry) : (c.onRecord e f).rbres = c.rbres := rfl
@[simp] theorem Cell.onRecord_xset (e : Nat) (f : RecEntry → RecEntry) : (c.onRecord e f).xset = c.xset := rfl
@[simp] theorem Cell.onRecord_cds (e : Nat) (f : RecEntry → RecEntry) : (c.onRecord e f).cds = c.cds := rfl
@[simp] theorem Cell.onRecord_ops (e : Nat) (f : RecEntry → RecEntry) : (c.onRecord e f).ops = c.ops := rfl
@[simp] theorem Cell.onRecord_engineAt (e : Nat) (f : RecEntry → RecEntry) : (c.onRecord e f).engineAt = c.engineAt := rfl
@[simp] theorem Cell.onRecord_tokens (e : Nat) (f : RecEntry → RecEntry) : (c.onRecord e f).tokens = c.tokens := rfl
@[simp] theorem Cell.onRecord_landings (e : Nat) (f : RecEntry → RecEntry) : (c.onRecord e f).landings = c.landings := rfl
@[simp] theorem Cell.onRecord_hold (e : Nat) (f : RecEntry → RecEntry) : (c.onRecord e f).hold = c.hold := rfl
@[simp] theorem Cell.onRecord_arrivals (e : Nat) (f : RecEntry → RecEntry) : (c.onRecord e f).arrivals = c.arrivals := rfl
@[simp] theorem Cell.onRecord_waits (e : Nat) (f : RecEntry → RecEntry) : (c.onRecord e f).waits = c.waits := rfl
@[simp] theorem Cell.onRecord_deliveries (e : Nat) (f : RecEntry → RecEntry) : (c.onRecord e f).deliveries = c.deliveries := rfl
@[simp] theorem Cell.onRecord_parts (e : Nat) (f : RecEntry → RecEntry) : (c.onRecord e f).parts = c.parts := rfl
@[simp] theorem Cell.onRecord_regWrites (e : Nat) (f : RecEntry → RecEntry) : (c.onRecord e f).regWrites = c.regWrites := rfl
@[simp] theorem Cell.onRecord_cnts (e : Nat) (f : RecEntry → RecEntry) : (c.onRecord e f).cnts = c.cnts := rfl
@[simp] theorem Cell.onRecord_cntsWas (e : Nat) (f : RecEntry → RecEntry) : (c.onRecord e f).cntsWas = c.cntsWas := rfl
@[simp] theorem Cell.onRecord_cntsNew (e : Nat) (f : RecEntry → RecEntry) : (c.onRecord e f).cntsNew = c.cntsNew := rfl
@[simp] theorem Cell.onRecord_cmax (e : Nat) (f : RecEntry → RecEntry) : (c.onRecord e f).cmax = c.cmax := rfl
@[simp] theorem Cell.onRecord_cnan (e : Nat) (f : RecEntry → RecEntry) : (c.onRecord e f).cnan = c.cnan := rfl
@[simp] theorem Cell.onRecord_arr (e : Nat) (f : RecEntry → RecEntry) : (c.onRecord e f).arr = c.arr := rfl
@[simp] theorem Cell.onRecord_ins (e : Nat) (f : RecEntry → RecEntry) : (c.onRecord e f).ins = c.ins := rfl
@[simp] theorem Cell.onRecord_outs (e : Nat) (f : RecEntry → RecEntry) : (c.onRecord e f).outs = c.outs := rfl
@[simp] theorem Cell.onRecord_pushes (e : Nat) (f : RecEntry → RecEntry) : (c.onRecord e f).pushes = c.pushes := rfl
@[simp] theorem Cell.onRecord_rels (e : Nat) (f : RecEntry → RecEntry) : (c.onRecord e f).rels = c.rels := rfl
@[simp] theorem Cell.onRecord_tbs (e : Nat) (f : RecEntry → RecEntry) : (c.onRecord e f).tbs = c.tbs := rfl
@[simp] theorem Cell.onRecord_tbjobs (e : Nat) (f : RecEntry → RecEntry) : (c.onRecord e f).tbjobs = c.tbjobs := rfl
@[simp] theorem Cell.onRecord_staging (e : Nat) (f : RecEntry → RecEntry) : (c.onRecord e f).staging = c.staging := rfl
@[simp] theorem Cell.onRecord_logs (e : Nat) (f : RecEntry → RecEntry) : (c.onRecord e f).logs = c.logs := rfl
@[simp] theorem Cell.onRecord_inject (e : Nat) (f : RecEntry → RecEntry) : (c.onRecord e f).inject = c.inject := rfl
@[simp] theorem Cell.onRecord_flips (e : Nat) (f : RecEntry → RecEntry) : (c.onRecord e f).flips = c.flips := rfl
@[simp] theorem Cell.onRecord_repcmd (e : Nat) (f : RecEntry → RecEntry) : (c.onRecord e f).repcmd = c.repcmd := rfl
@[simp] theorem Cell.onRecord_repaired (e : Nat) (f : RecEntry → RecEntry) : (c.onRecord e f).repaired = c.repaired := rfl
@[simp] theorem Cell.onRecord_nospare (e : Nat) (f : RecEntry → RecEntry) : (c.onRecord e f).nospare = c.nospare := rfl
@[simp] theorem Cell.onRecord_repairAt (e : Nat) (f : RecEntry → RecEntry) : (c.onRecord e f).repairAt = c.repairAt := rfl
@[simp] theorem Cell.onRecord_remaps (e : Nat) (f : RecEntry → RecEntry) : (c.onRecord e f).remaps = c.remaps := rfl
@[simp] theorem Cell.onRecord_faults (e : Nat) (f : RecEntry → RecEntry) : (c.onRecord e f).faults = c.faults := rfl
@[simp] theorem Cell.onRecord_qwaits (e : Nat) (f : RecEntry → RecEntry) : (c.onRecord e f).qwaits = c.qwaits := rfl

@[simp] theorem Cell.onIn_spire (n : Nat) (f : InChan → InChan) : (c.onIn n f).spire = c.spire := rfl
@[simp] theorem Cell.onIn_strands (n : Nat) (f : InChan → InChan) : (c.onIn n f).strands = c.strands := rfl
@[simp] theorem Cell.onIn_mem (n : Nat) (f : InChan → InChan) : (c.onIn n f).mem = c.mem := rfl
@[simp] theorem Cell.onIn_bad (n : Nat) (f : InChan → InChan) : (c.onIn n f).bad = c.bad := rfl
@[simp] theorem Cell.onIn_races (n : Nat) (f : InChan → InChan) : (c.onIn n f).races = c.races := rfl
@[simp] theorem Cell.onIn_scb (n : Nat) (f : InChan → InChan) : (c.onIn n f).scb = c.scb := rfl
@[simp] theorem Cell.onIn_recs (n : Nat) (f : InChan → InChan) : (c.onIn n f).recs = c.recs := rfl
@[simp] theorem Cell.onIn_ends (n : Nat) (f : InChan → InChan) : (c.onIn n f).ends = c.ends := rfl
@[simp] theorem Cell.onIn_ctxJob (n : Nat) (f : InChan → InChan) : (c.onIn n f).ctxJob = c.ctxJob := rfl
@[simp] theorem Cell.onIn_ctxQueue (n : Nat) (f : InChan → InChan) : (c.onIn n f).ctxQueue = c.ctxQueue := rfl
@[simp] theorem Cell.onIn_binds (n : Nat) (f : InChan → InChan) : (c.onIn n f).binds = c.binds := rfl
@[simp] theorem Cell.onIn_ptr (n : Nat) (f : InChan → InChan) : (c.onIn n f).ptr = c.ptr := rfl
@[simp] theorem Cell.onIn_agelim (n : Nat) (f : InChan → InChan) : (c.onIn n f).agelim = c.agelim := rfl
@[simp] theorem Cell.onIn_tokexp (n : Nat) (f : InChan → InChan) : (c.onIn n f).tokexp = c.tokexp := rfl
@[simp] theorem Cell.onIn_tokexpNow (n : Nat) (f : InChan → InChan) : (c.onIn n f).tokexpNow = c.tokexpNow := rfl
@[simp] theorem Cell.onIn_faultq (n : Nat) (f : InChan → InChan) : (c.onIn n f).faultq = c.faultq := rfl
@[simp] theorem Cell.onIn_rbres (n : Nat) (f : InChan → InChan) : (c.onIn n f).rbres = c.rbres := rfl
@[simp] theorem Cell.onIn_xset (n : Nat) (f : InChan → InChan) : (c.onIn n f).xset = c.xset := rfl
@[simp] theorem Cell.onIn_cds (n : Nat) (f : InChan → InChan) : (c.onIn n f).cds = c.cds := rfl
@[simp] theorem Cell.onIn_ops (n : Nat) (f : InChan → InChan) : (c.onIn n f).ops = c.ops := rfl
@[simp] theorem Cell.onIn_engineAt (n : Nat) (f : InChan → InChan) : (c.onIn n f).engineAt = c.engineAt := rfl
@[simp] theorem Cell.onIn_tokens (n : Nat) (f : InChan → InChan) : (c.onIn n f).tokens = c.tokens := rfl
@[simp] theorem Cell.onIn_landings (n : Nat) (f : InChan → InChan) : (c.onIn n f).landings = c.landings := rfl
@[simp] theorem Cell.onIn_hold (n : Nat) (f : InChan → InChan) : (c.onIn n f).hold = c.hold := rfl
@[simp] theorem Cell.onIn_arrivals (n : Nat) (f : InChan → InChan) : (c.onIn n f).arrivals = c.arrivals := rfl
@[simp] theorem Cell.onIn_waits (n : Nat) (f : InChan → InChan) : (c.onIn n f).waits = c.waits := rfl
@[simp] theorem Cell.onIn_deliveries (n : Nat) (f : InChan → InChan) : (c.onIn n f).deliveries = c.deliveries := rfl
@[simp] theorem Cell.onIn_parts (n : Nat) (f : InChan → InChan) : (c.onIn n f).parts = c.parts := rfl
@[simp] theorem Cell.onIn_regWrites (n : Nat) (f : InChan → InChan) : (c.onIn n f).regWrites = c.regWrites := rfl
@[simp] theorem Cell.onIn_cnts (n : Nat) (f : InChan → InChan) : (c.onIn n f).cnts = c.cnts := rfl
@[simp] theorem Cell.onIn_cntsWas (n : Nat) (f : InChan → InChan) : (c.onIn n f).cntsWas = c.cntsWas := rfl
@[simp] theorem Cell.onIn_cntsNew (n : Nat) (f : InChan → InChan) : (c.onIn n f).cntsNew = c.cntsNew := rfl
@[simp] theorem Cell.onIn_cmax (n : Nat) (f : InChan → InChan) : (c.onIn n f).cmax = c.cmax := rfl
@[simp] theorem Cell.onIn_cnan (n : Nat) (f : InChan → InChan) : (c.onIn n f).cnan = c.cnan := rfl
@[simp] theorem Cell.onIn_arr (n : Nat) (f : InChan → InChan) : (c.onIn n f).arr = c.arr := rfl
@[simp] theorem Cell.onIn_outs (n : Nat) (f : InChan → InChan) : (c.onIn n f).outs = c.outs := rfl
@[simp] theorem Cell.onIn_pushes (n : Nat) (f : InChan → InChan) : (c.onIn n f).pushes = c.pushes := rfl
@[simp] theorem Cell.onIn_rels (n : Nat) (f : InChan → InChan) : (c.onIn n f).rels = c.rels := rfl
@[simp] theorem Cell.onIn_tbs (n : Nat) (f : InChan → InChan) : (c.onIn n f).tbs = c.tbs := rfl
@[simp] theorem Cell.onIn_tbjobs (n : Nat) (f : InChan → InChan) : (c.onIn n f).tbjobs = c.tbjobs := rfl
@[simp] theorem Cell.onIn_staging (n : Nat) (f : InChan → InChan) : (c.onIn n f).staging = c.staging := rfl
@[simp] theorem Cell.onIn_logs (n : Nat) (f : InChan → InChan) : (c.onIn n f).logs = c.logs := rfl
@[simp] theorem Cell.onIn_inject (n : Nat) (f : InChan → InChan) : (c.onIn n f).inject = c.inject := rfl
@[simp] theorem Cell.onIn_flips (n : Nat) (f : InChan → InChan) : (c.onIn n f).flips = c.flips := rfl
@[simp] theorem Cell.onIn_repcmd (n : Nat) (f : InChan → InChan) : (c.onIn n f).repcmd = c.repcmd := rfl
@[simp] theorem Cell.onIn_repaired (n : Nat) (f : InChan → InChan) : (c.onIn n f).repaired = c.repaired := rfl
@[simp] theorem Cell.onIn_nospare (n : Nat) (f : InChan → InChan) : (c.onIn n f).nospare = c.nospare := rfl
@[simp] theorem Cell.onIn_repairAt (n : Nat) (f : InChan → InChan) : (c.onIn n f).repairAt = c.repairAt := rfl
@[simp] theorem Cell.onIn_remaps (n : Nat) (f : InChan → InChan) : (c.onIn n f).remaps = c.remaps := rfl
@[simp] theorem Cell.onIn_faults (n : Nat) (f : InChan → InChan) : (c.onIn n f).faults = c.faults := rfl
@[simp] theorem Cell.onIn_qwaits (n : Nat) (f : InChan → InChan) : (c.onIn n f).qwaits = c.qwaits := rfl

@[simp] theorem Cell.onOut_spire (n : Nat) (f : OutChan → OutChan) : (c.onOut n f).spire = c.spire := rfl
@[simp] theorem Cell.onOut_strands (n : Nat) (f : OutChan → OutChan) : (c.onOut n f).strands = c.strands := rfl
@[simp] theorem Cell.onOut_mem (n : Nat) (f : OutChan → OutChan) : (c.onOut n f).mem = c.mem := rfl
@[simp] theorem Cell.onOut_bad (n : Nat) (f : OutChan → OutChan) : (c.onOut n f).bad = c.bad := rfl
@[simp] theorem Cell.onOut_races (n : Nat) (f : OutChan → OutChan) : (c.onOut n f).races = c.races := rfl
@[simp] theorem Cell.onOut_scb (n : Nat) (f : OutChan → OutChan) : (c.onOut n f).scb = c.scb := rfl
@[simp] theorem Cell.onOut_recs (n : Nat) (f : OutChan → OutChan) : (c.onOut n f).recs = c.recs := rfl
@[simp] theorem Cell.onOut_ends (n : Nat) (f : OutChan → OutChan) : (c.onOut n f).ends = c.ends := rfl
@[simp] theorem Cell.onOut_ctxJob (n : Nat) (f : OutChan → OutChan) : (c.onOut n f).ctxJob = c.ctxJob := rfl
@[simp] theorem Cell.onOut_ctxQueue (n : Nat) (f : OutChan → OutChan) : (c.onOut n f).ctxQueue = c.ctxQueue := rfl
@[simp] theorem Cell.onOut_binds (n : Nat) (f : OutChan → OutChan) : (c.onOut n f).binds = c.binds := rfl
@[simp] theorem Cell.onOut_ptr (n : Nat) (f : OutChan → OutChan) : (c.onOut n f).ptr = c.ptr := rfl
@[simp] theorem Cell.onOut_agelim (n : Nat) (f : OutChan → OutChan) : (c.onOut n f).agelim = c.agelim := rfl
@[simp] theorem Cell.onOut_tokexp (n : Nat) (f : OutChan → OutChan) : (c.onOut n f).tokexp = c.tokexp := rfl
@[simp] theorem Cell.onOut_tokexpNow (n : Nat) (f : OutChan → OutChan) : (c.onOut n f).tokexpNow = c.tokexpNow := rfl
@[simp] theorem Cell.onOut_faultq (n : Nat) (f : OutChan → OutChan) : (c.onOut n f).faultq = c.faultq := rfl
@[simp] theorem Cell.onOut_rbres (n : Nat) (f : OutChan → OutChan) : (c.onOut n f).rbres = c.rbres := rfl
@[simp] theorem Cell.onOut_xset (n : Nat) (f : OutChan → OutChan) : (c.onOut n f).xset = c.xset := rfl
@[simp] theorem Cell.onOut_cds (n : Nat) (f : OutChan → OutChan) : (c.onOut n f).cds = c.cds := rfl
@[simp] theorem Cell.onOut_ops (n : Nat) (f : OutChan → OutChan) : (c.onOut n f).ops = c.ops := rfl
@[simp] theorem Cell.onOut_engineAt (n : Nat) (f : OutChan → OutChan) : (c.onOut n f).engineAt = c.engineAt := rfl
@[simp] theorem Cell.onOut_tokens (n : Nat) (f : OutChan → OutChan) : (c.onOut n f).tokens = c.tokens := rfl
@[simp] theorem Cell.onOut_landings (n : Nat) (f : OutChan → OutChan) : (c.onOut n f).landings = c.landings := rfl
@[simp] theorem Cell.onOut_hold (n : Nat) (f : OutChan → OutChan) : (c.onOut n f).hold = c.hold := rfl
@[simp] theorem Cell.onOut_arrivals (n : Nat) (f : OutChan → OutChan) : (c.onOut n f).arrivals = c.arrivals := rfl
@[simp] theorem Cell.onOut_waits (n : Nat) (f : OutChan → OutChan) : (c.onOut n f).waits = c.waits := rfl
@[simp] theorem Cell.onOut_deliveries (n : Nat) (f : OutChan → OutChan) : (c.onOut n f).deliveries = c.deliveries := rfl
@[simp] theorem Cell.onOut_parts (n : Nat) (f : OutChan → OutChan) : (c.onOut n f).parts = c.parts := rfl
@[simp] theorem Cell.onOut_regWrites (n : Nat) (f : OutChan → OutChan) : (c.onOut n f).regWrites = c.regWrites := rfl
@[simp] theorem Cell.onOut_cnts (n : Nat) (f : OutChan → OutChan) : (c.onOut n f).cnts = c.cnts := rfl
@[simp] theorem Cell.onOut_cntsWas (n : Nat) (f : OutChan → OutChan) : (c.onOut n f).cntsWas = c.cntsWas := rfl
@[simp] theorem Cell.onOut_cntsNew (n : Nat) (f : OutChan → OutChan) : (c.onOut n f).cntsNew = c.cntsNew := rfl
@[simp] theorem Cell.onOut_cmax (n : Nat) (f : OutChan → OutChan) : (c.onOut n f).cmax = c.cmax := rfl
@[simp] theorem Cell.onOut_cnan (n : Nat) (f : OutChan → OutChan) : (c.onOut n f).cnan = c.cnan := rfl
@[simp] theorem Cell.onOut_arr (n : Nat) (f : OutChan → OutChan) : (c.onOut n f).arr = c.arr := rfl
@[simp] theorem Cell.onOut_ins (n : Nat) (f : OutChan → OutChan) : (c.onOut n f).ins = c.ins := rfl
@[simp] theorem Cell.onOut_pushes (n : Nat) (f : OutChan → OutChan) : (c.onOut n f).pushes = c.pushes := rfl
@[simp] theorem Cell.onOut_rels (n : Nat) (f : OutChan → OutChan) : (c.onOut n f).rels = c.rels := rfl
@[simp] theorem Cell.onOut_tbs (n : Nat) (f : OutChan → OutChan) : (c.onOut n f).tbs = c.tbs := rfl
@[simp] theorem Cell.onOut_tbjobs (n : Nat) (f : OutChan → OutChan) : (c.onOut n f).tbjobs = c.tbjobs := rfl
@[simp] theorem Cell.onOut_staging (n : Nat) (f : OutChan → OutChan) : (c.onOut n f).staging = c.staging := rfl
@[simp] theorem Cell.onOut_logs (n : Nat) (f : OutChan → OutChan) : (c.onOut n f).logs = c.logs := rfl
@[simp] theorem Cell.onOut_inject (n : Nat) (f : OutChan → OutChan) : (c.onOut n f).inject = c.inject := rfl
@[simp] theorem Cell.onOut_flips (n : Nat) (f : OutChan → OutChan) : (c.onOut n f).flips = c.flips := rfl
@[simp] theorem Cell.onOut_repcmd (n : Nat) (f : OutChan → OutChan) : (c.onOut n f).repcmd = c.repcmd := rfl
@[simp] theorem Cell.onOut_repaired (n : Nat) (f : OutChan → OutChan) : (c.onOut n f).repaired = c.repaired := rfl
@[simp] theorem Cell.onOut_nospare (n : Nat) (f : OutChan → OutChan) : (c.onOut n f).nospare = c.nospare := rfl
@[simp] theorem Cell.onOut_repairAt (n : Nat) (f : OutChan → OutChan) : (c.onOut n f).repairAt = c.repairAt := rfl
@[simp] theorem Cell.onOut_remaps (n : Nat) (f : OutChan → OutChan) : (c.onOut n f).remaps = c.remaps := rfl
@[simp] theorem Cell.onOut_faults (n : Nat) (f : OutChan → OutChan) : (c.onOut n f).faults = c.faults := rfl
@[simp] theorem Cell.onOut_qwaits (n : Nat) (f : OutChan → OutChan) : (c.onOut n f).qwaits = c.qwaits := rfl

@[simp] theorem Cell.onArr_spire (f : ArrayUnit → ArrayUnit) : (c.onArr f).spire = c.spire := rfl
@[simp] theorem Cell.onArr_strands (f : ArrayUnit → ArrayUnit) : (c.onArr f).strands = c.strands := rfl
@[simp] theorem Cell.onArr_mem (f : ArrayUnit → ArrayUnit) : (c.onArr f).mem = c.mem := rfl
@[simp] theorem Cell.onArr_bad (f : ArrayUnit → ArrayUnit) : (c.onArr f).bad = c.bad := rfl
@[simp] theorem Cell.onArr_races (f : ArrayUnit → ArrayUnit) : (c.onArr f).races = c.races := rfl
@[simp] theorem Cell.onArr_scb (f : ArrayUnit → ArrayUnit) : (c.onArr f).scb = c.scb := rfl
@[simp] theorem Cell.onArr_recs (f : ArrayUnit → ArrayUnit) : (c.onArr f).recs = c.recs := rfl
@[simp] theorem Cell.onArr_ends (f : ArrayUnit → ArrayUnit) : (c.onArr f).ends = c.ends := rfl
@[simp] theorem Cell.onArr_ctxJob (f : ArrayUnit → ArrayUnit) : (c.onArr f).ctxJob = c.ctxJob := rfl
@[simp] theorem Cell.onArr_ctxQueue (f : ArrayUnit → ArrayUnit) : (c.onArr f).ctxQueue = c.ctxQueue := rfl
@[simp] theorem Cell.onArr_binds (f : ArrayUnit → ArrayUnit) : (c.onArr f).binds = c.binds := rfl
@[simp] theorem Cell.onArr_ptr (f : ArrayUnit → ArrayUnit) : (c.onArr f).ptr = c.ptr := rfl
@[simp] theorem Cell.onArr_agelim (f : ArrayUnit → ArrayUnit) : (c.onArr f).agelim = c.agelim := rfl
@[simp] theorem Cell.onArr_tokexp (f : ArrayUnit → ArrayUnit) : (c.onArr f).tokexp = c.tokexp := rfl
@[simp] theorem Cell.onArr_tokexpNow (f : ArrayUnit → ArrayUnit) : (c.onArr f).tokexpNow = c.tokexpNow := rfl
@[simp] theorem Cell.onArr_faultq (f : ArrayUnit → ArrayUnit) : (c.onArr f).faultq = c.faultq := rfl
@[simp] theorem Cell.onArr_rbres (f : ArrayUnit → ArrayUnit) : (c.onArr f).rbres = c.rbres := rfl
@[simp] theorem Cell.onArr_xset (f : ArrayUnit → ArrayUnit) : (c.onArr f).xset = c.xset := rfl
@[simp] theorem Cell.onArr_cds (f : ArrayUnit → ArrayUnit) : (c.onArr f).cds = c.cds := rfl
@[simp] theorem Cell.onArr_ops (f : ArrayUnit → ArrayUnit) : (c.onArr f).ops = c.ops := rfl
@[simp] theorem Cell.onArr_engineAt (f : ArrayUnit → ArrayUnit) : (c.onArr f).engineAt = c.engineAt := rfl
@[simp] theorem Cell.onArr_tokens (f : ArrayUnit → ArrayUnit) : (c.onArr f).tokens = c.tokens := rfl
@[simp] theorem Cell.onArr_landings (f : ArrayUnit → ArrayUnit) : (c.onArr f).landings = c.landings := rfl
@[simp] theorem Cell.onArr_hold (f : ArrayUnit → ArrayUnit) : (c.onArr f).hold = c.hold := rfl
@[simp] theorem Cell.onArr_arrivals (f : ArrayUnit → ArrayUnit) : (c.onArr f).arrivals = c.arrivals := rfl
@[simp] theorem Cell.onArr_waits (f : ArrayUnit → ArrayUnit) : (c.onArr f).waits = c.waits := rfl
@[simp] theorem Cell.onArr_deliveries (f : ArrayUnit → ArrayUnit) : (c.onArr f).deliveries = c.deliveries := rfl
@[simp] theorem Cell.onArr_parts (f : ArrayUnit → ArrayUnit) : (c.onArr f).parts = c.parts := rfl
@[simp] theorem Cell.onArr_regWrites (f : ArrayUnit → ArrayUnit) : (c.onArr f).regWrites = c.regWrites := rfl
@[simp] theorem Cell.onArr_cnts (f : ArrayUnit → ArrayUnit) : (c.onArr f).cnts = c.cnts := rfl
@[simp] theorem Cell.onArr_cntsWas (f : ArrayUnit → ArrayUnit) : (c.onArr f).cntsWas = c.cntsWas := rfl
@[simp] theorem Cell.onArr_cntsNew (f : ArrayUnit → ArrayUnit) : (c.onArr f).cntsNew = c.cntsNew := rfl
@[simp] theorem Cell.onArr_cmax (f : ArrayUnit → ArrayUnit) : (c.onArr f).cmax = c.cmax := rfl
@[simp] theorem Cell.onArr_cnan (f : ArrayUnit → ArrayUnit) : (c.onArr f).cnan = c.cnan := rfl
@[simp] theorem Cell.onArr_ins (f : ArrayUnit → ArrayUnit) : (c.onArr f).ins = c.ins := rfl
@[simp] theorem Cell.onArr_outs (f : ArrayUnit → ArrayUnit) : (c.onArr f).outs = c.outs := rfl
@[simp] theorem Cell.onArr_pushes (f : ArrayUnit → ArrayUnit) : (c.onArr f).pushes = c.pushes := rfl
@[simp] theorem Cell.onArr_rels (f : ArrayUnit → ArrayUnit) : (c.onArr f).rels = c.rels := rfl
@[simp] theorem Cell.onArr_tbs (f : ArrayUnit → ArrayUnit) : (c.onArr f).tbs = c.tbs := rfl
@[simp] theorem Cell.onArr_tbjobs (f : ArrayUnit → ArrayUnit) : (c.onArr f).tbjobs = c.tbjobs := rfl
@[simp] theorem Cell.onArr_staging (f : ArrayUnit → ArrayUnit) : (c.onArr f).staging = c.staging := rfl
@[simp] theorem Cell.onArr_logs (f : ArrayUnit → ArrayUnit) : (c.onArr f).logs = c.logs := rfl
@[simp] theorem Cell.onArr_inject (f : ArrayUnit → ArrayUnit) : (c.onArr f).inject = c.inject := rfl
@[simp] theorem Cell.onArr_flips (f : ArrayUnit → ArrayUnit) : (c.onArr f).flips = c.flips := rfl
@[simp] theorem Cell.onArr_repcmd (f : ArrayUnit → ArrayUnit) : (c.onArr f).repcmd = c.repcmd := rfl
@[simp] theorem Cell.onArr_repaired (f : ArrayUnit → ArrayUnit) : (c.onArr f).repaired = c.repaired := rfl
@[simp] theorem Cell.onArr_nospare (f : ArrayUnit → ArrayUnit) : (c.onArr f).nospare = c.nospare := rfl
@[simp] theorem Cell.onArr_repairAt (f : ArrayUnit → ArrayUnit) : (c.onArr f).repairAt = c.repairAt := rfl
@[simp] theorem Cell.onArr_remaps (f : ArrayUnit → ArrayUnit) : (c.onArr f).remaps = c.remaps := rfl
@[simp] theorem Cell.onArr_faults (f : ArrayUnit → ArrayUnit) : (c.onArr f).faults = c.faults := rfl
@[simp] theorem Cell.onArr_qwaits (f : ArrayUnit → ArrayUnit) : (c.onArr f).qwaits = c.qwaits := rfl

@[simp] theorem Cell.onToken_spire (n : Nat) (f : TokEntry → TokEntry) : (c.onToken n f).spire = c.spire := rfl
@[simp] theorem Cell.onToken_strands (n : Nat) (f : TokEntry → TokEntry) : (c.onToken n f).strands = c.strands := rfl
@[simp] theorem Cell.onToken_mem (n : Nat) (f : TokEntry → TokEntry) : (c.onToken n f).mem = c.mem := rfl
@[simp] theorem Cell.onToken_bad (n : Nat) (f : TokEntry → TokEntry) : (c.onToken n f).bad = c.bad := rfl
@[simp] theorem Cell.onToken_races (n : Nat) (f : TokEntry → TokEntry) : (c.onToken n f).races = c.races := rfl
@[simp] theorem Cell.onToken_scb (n : Nat) (f : TokEntry → TokEntry) : (c.onToken n f).scb = c.scb := rfl
@[simp] theorem Cell.onToken_recs (n : Nat) (f : TokEntry → TokEntry) : (c.onToken n f).recs = c.recs := rfl
@[simp] theorem Cell.onToken_ends (n : Nat) (f : TokEntry → TokEntry) : (c.onToken n f).ends = c.ends := rfl
@[simp] theorem Cell.onToken_ctxJob (n : Nat) (f : TokEntry → TokEntry) : (c.onToken n f).ctxJob = c.ctxJob := rfl
@[simp] theorem Cell.onToken_ctxQueue (n : Nat) (f : TokEntry → TokEntry) : (c.onToken n f).ctxQueue = c.ctxQueue := rfl
@[simp] theorem Cell.onToken_binds (n : Nat) (f : TokEntry → TokEntry) : (c.onToken n f).binds = c.binds := rfl
@[simp] theorem Cell.onToken_ptr (n : Nat) (f : TokEntry → TokEntry) : (c.onToken n f).ptr = c.ptr := rfl
@[simp] theorem Cell.onToken_agelim (n : Nat) (f : TokEntry → TokEntry) : (c.onToken n f).agelim = c.agelim := rfl
@[simp] theorem Cell.onToken_tokexp (n : Nat) (f : TokEntry → TokEntry) : (c.onToken n f).tokexp = c.tokexp := rfl
@[simp] theorem Cell.onToken_tokexpNow (n : Nat) (f : TokEntry → TokEntry) : (c.onToken n f).tokexpNow = c.tokexpNow := rfl
@[simp] theorem Cell.onToken_faultq (n : Nat) (f : TokEntry → TokEntry) : (c.onToken n f).faultq = c.faultq := rfl
@[simp] theorem Cell.onToken_rbres (n : Nat) (f : TokEntry → TokEntry) : (c.onToken n f).rbres = c.rbres := rfl
@[simp] theorem Cell.onToken_xset (n : Nat) (f : TokEntry → TokEntry) : (c.onToken n f).xset = c.xset := rfl
@[simp] theorem Cell.onToken_cds (n : Nat) (f : TokEntry → TokEntry) : (c.onToken n f).cds = c.cds := rfl
@[simp] theorem Cell.onToken_ops (n : Nat) (f : TokEntry → TokEntry) : (c.onToken n f).ops = c.ops := rfl
@[simp] theorem Cell.onToken_engineAt (n : Nat) (f : TokEntry → TokEntry) : (c.onToken n f).engineAt = c.engineAt := rfl
@[simp] theorem Cell.onToken_landings (n : Nat) (f : TokEntry → TokEntry) : (c.onToken n f).landings = c.landings := rfl
@[simp] theorem Cell.onToken_hold (n : Nat) (f : TokEntry → TokEntry) : (c.onToken n f).hold = c.hold := rfl
@[simp] theorem Cell.onToken_arrivals (n : Nat) (f : TokEntry → TokEntry) : (c.onToken n f).arrivals = c.arrivals := rfl
@[simp] theorem Cell.onToken_waits (n : Nat) (f : TokEntry → TokEntry) : (c.onToken n f).waits = c.waits := rfl
@[simp] theorem Cell.onToken_deliveries (n : Nat) (f : TokEntry → TokEntry) : (c.onToken n f).deliveries = c.deliveries := rfl
@[simp] theorem Cell.onToken_parts (n : Nat) (f : TokEntry → TokEntry) : (c.onToken n f).parts = c.parts := rfl
@[simp] theorem Cell.onToken_regWrites (n : Nat) (f : TokEntry → TokEntry) : (c.onToken n f).regWrites = c.regWrites := rfl
@[simp] theorem Cell.onToken_cnts (n : Nat) (f : TokEntry → TokEntry) : (c.onToken n f).cnts = c.cnts := rfl
@[simp] theorem Cell.onToken_cntsWas (n : Nat) (f : TokEntry → TokEntry) : (c.onToken n f).cntsWas = c.cntsWas := rfl
@[simp] theorem Cell.onToken_cntsNew (n : Nat) (f : TokEntry → TokEntry) : (c.onToken n f).cntsNew = c.cntsNew := rfl
@[simp] theorem Cell.onToken_cmax (n : Nat) (f : TokEntry → TokEntry) : (c.onToken n f).cmax = c.cmax := rfl
@[simp] theorem Cell.onToken_cnan (n : Nat) (f : TokEntry → TokEntry) : (c.onToken n f).cnan = c.cnan := rfl
@[simp] theorem Cell.onToken_arr (n : Nat) (f : TokEntry → TokEntry) : (c.onToken n f).arr = c.arr := rfl
@[simp] theorem Cell.onToken_ins (n : Nat) (f : TokEntry → TokEntry) : (c.onToken n f).ins = c.ins := rfl
@[simp] theorem Cell.onToken_outs (n : Nat) (f : TokEntry → TokEntry) : (c.onToken n f).outs = c.outs := rfl
@[simp] theorem Cell.onToken_pushes (n : Nat) (f : TokEntry → TokEntry) : (c.onToken n f).pushes = c.pushes := rfl
@[simp] theorem Cell.onToken_rels (n : Nat) (f : TokEntry → TokEntry) : (c.onToken n f).rels = c.rels := rfl
@[simp] theorem Cell.onToken_tbs (n : Nat) (f : TokEntry → TokEntry) : (c.onToken n f).tbs = c.tbs := rfl
@[simp] theorem Cell.onToken_tbjobs (n : Nat) (f : TokEntry → TokEntry) : (c.onToken n f).tbjobs = c.tbjobs := rfl
@[simp] theorem Cell.onToken_staging (n : Nat) (f : TokEntry → TokEntry) : (c.onToken n f).staging = c.staging := rfl
@[simp] theorem Cell.onToken_logs (n : Nat) (f : TokEntry → TokEntry) : (c.onToken n f).logs = c.logs := rfl
@[simp] theorem Cell.onToken_inject (n : Nat) (f : TokEntry → TokEntry) : (c.onToken n f).inject = c.inject := rfl
@[simp] theorem Cell.onToken_flips (n : Nat) (f : TokEntry → TokEntry) : (c.onToken n f).flips = c.flips := rfl
@[simp] theorem Cell.onToken_repcmd (n : Nat) (f : TokEntry → TokEntry) : (c.onToken n f).repcmd = c.repcmd := rfl
@[simp] theorem Cell.onToken_repaired (n : Nat) (f : TokEntry → TokEntry) : (c.onToken n f).repaired = c.repaired := rfl
@[simp] theorem Cell.onToken_nospare (n : Nat) (f : TokEntry → TokEntry) : (c.onToken n f).nospare = c.nospare := rfl
@[simp] theorem Cell.onToken_repairAt (n : Nat) (f : TokEntry → TokEntry) : (c.onToken n f).repairAt = c.repairAt := rfl
@[simp] theorem Cell.onToken_remaps (n : Nat) (f : TokEntry → TokEntry) : (c.onToken n f).remaps = c.remaps := rfl
@[simp] theorem Cell.onToken_faults (n : Nat) (f : TokEntry → TokEntry) : (c.onToken n f).faults = c.faults := rfl
@[simp] theorem Cell.onToken_qwaits (n : Nat) (f : TokEntry → TokEntry) : (c.onToken n f).qwaits = c.qwaits := rfl

@[simp] theorem Cell.endWait_spire (w : WaitFor) : (c.endWait w).spire = c.spire := rfl
@[simp] theorem Cell.endWait_strands (w : WaitFor) : (c.endWait w).strands = c.strands := rfl
@[simp] theorem Cell.endWait_mem (w : WaitFor) : (c.endWait w).mem = c.mem := rfl
@[simp] theorem Cell.endWait_bad (w : WaitFor) : (c.endWait w).bad = c.bad := rfl
@[simp] theorem Cell.endWait_races (w : WaitFor) : (c.endWait w).races = c.races := rfl
@[simp] theorem Cell.endWait_scb (w : WaitFor) : (c.endWait w).scb = c.scb := rfl
@[simp] theorem Cell.endWait_recs (w : WaitFor) : (c.endWait w).recs = c.recs := rfl
@[simp] theorem Cell.endWait_ends (w : WaitFor) : (c.endWait w).ends = c.ends := rfl
@[simp] theorem Cell.endWait_ctxJob (w : WaitFor) : (c.endWait w).ctxJob = c.ctxJob := rfl
@[simp] theorem Cell.endWait_ctxQueue (w : WaitFor) : (c.endWait w).ctxQueue = c.ctxQueue := rfl
@[simp] theorem Cell.endWait_binds (w : WaitFor) : (c.endWait w).binds = c.binds := rfl
@[simp] theorem Cell.endWait_ptr (w : WaitFor) : (c.endWait w).ptr = c.ptr := rfl
@[simp] theorem Cell.endWait_agelim (w : WaitFor) : (c.endWait w).agelim = c.agelim := rfl
@[simp] theorem Cell.endWait_tokexp (w : WaitFor) : (c.endWait w).tokexp = c.tokexp := rfl
@[simp] theorem Cell.endWait_tokexpNow (w : WaitFor) : (c.endWait w).tokexpNow = c.tokexpNow := rfl
@[simp] theorem Cell.endWait_faultq (w : WaitFor) : (c.endWait w).faultq = c.faultq := rfl
@[simp] theorem Cell.endWait_rbres (w : WaitFor) : (c.endWait w).rbres = c.rbres := rfl
@[simp] theorem Cell.endWait_xset (w : WaitFor) : (c.endWait w).xset = c.xset := rfl
@[simp] theorem Cell.endWait_cds (w : WaitFor) : (c.endWait w).cds = c.cds := rfl
@[simp] theorem Cell.endWait_ops (w : WaitFor) : (c.endWait w).ops = c.ops := rfl
@[simp] theorem Cell.endWait_engineAt (w : WaitFor) : (c.endWait w).engineAt = c.engineAt := rfl
@[simp] theorem Cell.endWait_tokens (w : WaitFor) : (c.endWait w).tokens = c.tokens := rfl
@[simp] theorem Cell.endWait_landings (w : WaitFor) : (c.endWait w).landings = c.landings := rfl
@[simp] theorem Cell.endWait_hold (w : WaitFor) : (c.endWait w).hold = c.hold := rfl
@[simp] theorem Cell.endWait_arrivals (w : WaitFor) : (c.endWait w).arrivals = c.arrivals := rfl
@[simp] theorem Cell.endWait_deliveries (w : WaitFor) : (c.endWait w).deliveries = c.deliveries := rfl
@[simp] theorem Cell.endWait_parts (w : WaitFor) : (c.endWait w).parts = c.parts := rfl
@[simp] theorem Cell.endWait_regWrites (w : WaitFor) : (c.endWait w).regWrites = c.regWrites := rfl
@[simp] theorem Cell.endWait_cnts (w : WaitFor) : (c.endWait w).cnts = c.cnts := rfl
@[simp] theorem Cell.endWait_cntsWas (w : WaitFor) : (c.endWait w).cntsWas = c.cntsWas := rfl
@[simp] theorem Cell.endWait_cntsNew (w : WaitFor) : (c.endWait w).cntsNew = c.cntsNew := rfl
@[simp] theorem Cell.endWait_cmax (w : WaitFor) : (c.endWait w).cmax = c.cmax := rfl
@[simp] theorem Cell.endWait_cnan (w : WaitFor) : (c.endWait w).cnan = c.cnan := rfl
@[simp] theorem Cell.endWait_arr (w : WaitFor) : (c.endWait w).arr = c.arr := rfl
@[simp] theorem Cell.endWait_ins (w : WaitFor) : (c.endWait w).ins = c.ins := rfl
@[simp] theorem Cell.endWait_outs (w : WaitFor) : (c.endWait w).outs = c.outs := rfl
@[simp] theorem Cell.endWait_pushes (w : WaitFor) : (c.endWait w).pushes = c.pushes := rfl
@[simp] theorem Cell.endWait_rels (w : WaitFor) : (c.endWait w).rels = c.rels := rfl
@[simp] theorem Cell.endWait_tbs (w : WaitFor) : (c.endWait w).tbs = c.tbs := rfl
@[simp] theorem Cell.endWait_tbjobs (w : WaitFor) : (c.endWait w).tbjobs = c.tbjobs := rfl
@[simp] theorem Cell.endWait_staging (w : WaitFor) : (c.endWait w).staging = c.staging := rfl
@[simp] theorem Cell.endWait_logs (w : WaitFor) : (c.endWait w).logs = c.logs := rfl
@[simp] theorem Cell.endWait_inject (w : WaitFor) : (c.endWait w).inject = c.inject := rfl
@[simp] theorem Cell.endWait_flips (w : WaitFor) : (c.endWait w).flips = c.flips := rfl
@[simp] theorem Cell.endWait_repcmd (w : WaitFor) : (c.endWait w).repcmd = c.repcmd := rfl
@[simp] theorem Cell.endWait_repaired (w : WaitFor) : (c.endWait w).repaired = c.repaired := rfl
@[simp] theorem Cell.endWait_nospare (w : WaitFor) : (c.endWait w).nospare = c.nospare := rfl
@[simp] theorem Cell.endWait_repairAt (w : WaitFor) : (c.endWait w).repairAt = c.repairAt := rfl
@[simp] theorem Cell.endWait_remaps (w : WaitFor) : (c.endWait w).remaps = c.remaps := rfl
@[simp] theorem Cell.endWait_faults (w : WaitFor) : (c.endWait w).faults = c.faults := rfl
@[simp] theorem Cell.endWait_qwaits (w : WaitFor) : (c.endWait w).qwaits = c.qwaits := rfl

@[simp] theorem Cell.deliverAt_spire (due k op reg : Nat) (val : Word) (notes : List Note) : (c.deliverAt due k op reg val notes).spire = c.spire := rfl
@[simp] theorem Cell.deliverAt_strands (due k op reg : Nat) (val : Word) (notes : List Note) : (c.deliverAt due k op reg val notes).strands = c.strands := rfl
@[simp] theorem Cell.deliverAt_mem (due k op reg : Nat) (val : Word) (notes : List Note) : (c.deliverAt due k op reg val notes).mem = c.mem := rfl
@[simp] theorem Cell.deliverAt_bad (due k op reg : Nat) (val : Word) (notes : List Note) : (c.deliverAt due k op reg val notes).bad = c.bad := rfl
@[simp] theorem Cell.deliverAt_races (due k op reg : Nat) (val : Word) (notes : List Note) : (c.deliverAt due k op reg val notes).races = c.races := rfl
@[simp] theorem Cell.deliverAt_scb (due k op reg : Nat) (val : Word) (notes : List Note) : (c.deliverAt due k op reg val notes).scb = c.scb := rfl
@[simp] theorem Cell.deliverAt_recs (due k op reg : Nat) (val : Word) (notes : List Note) : (c.deliverAt due k op reg val notes).recs = c.recs := rfl
@[simp] theorem Cell.deliverAt_ends (due k op reg : Nat) (val : Word) (notes : List Note) : (c.deliverAt due k op reg val notes).ends = c.ends := rfl
@[simp] theorem Cell.deliverAt_ctxJob (due k op reg : Nat) (val : Word) (notes : List Note) : (c.deliverAt due k op reg val notes).ctxJob = c.ctxJob := rfl
@[simp] theorem Cell.deliverAt_ctxQueue (due k op reg : Nat) (val : Word) (notes : List Note) : (c.deliverAt due k op reg val notes).ctxQueue = c.ctxQueue := rfl
@[simp] theorem Cell.deliverAt_binds (due k op reg : Nat) (val : Word) (notes : List Note) : (c.deliverAt due k op reg val notes).binds = c.binds := rfl
@[simp] theorem Cell.deliverAt_ptr (due k op reg : Nat) (val : Word) (notes : List Note) : (c.deliverAt due k op reg val notes).ptr = c.ptr := rfl
@[simp] theorem Cell.deliverAt_agelim (due k op reg : Nat) (val : Word) (notes : List Note) : (c.deliverAt due k op reg val notes).agelim = c.agelim := rfl
@[simp] theorem Cell.deliverAt_tokexp (due k op reg : Nat) (val : Word) (notes : List Note) : (c.deliverAt due k op reg val notes).tokexp = c.tokexp := rfl
@[simp] theorem Cell.deliverAt_tokexpNow (due k op reg : Nat) (val : Word) (notes : List Note) : (c.deliverAt due k op reg val notes).tokexpNow = c.tokexpNow := rfl
@[simp] theorem Cell.deliverAt_faultq (due k op reg : Nat) (val : Word) (notes : List Note) : (c.deliverAt due k op reg val notes).faultq = c.faultq := rfl
@[simp] theorem Cell.deliverAt_rbres (due k op reg : Nat) (val : Word) (notes : List Note) : (c.deliverAt due k op reg val notes).rbres = c.rbres := rfl
@[simp] theorem Cell.deliverAt_xset (due k op reg : Nat) (val : Word) (notes : List Note) : (c.deliverAt due k op reg val notes).xset = c.xset := rfl
@[simp] theorem Cell.deliverAt_cds (due k op reg : Nat) (val : Word) (notes : List Note) : (c.deliverAt due k op reg val notes).cds = c.cds := rfl
@[simp] theorem Cell.deliverAt_ops (due k op reg : Nat) (val : Word) (notes : List Note) : (c.deliverAt due k op reg val notes).ops = c.ops := rfl
@[simp] theorem Cell.deliverAt_engineAt (due k op reg : Nat) (val : Word) (notes : List Note) : (c.deliverAt due k op reg val notes).engineAt = c.engineAt := rfl
@[simp] theorem Cell.deliverAt_tokens (due k op reg : Nat) (val : Word) (notes : List Note) : (c.deliverAt due k op reg val notes).tokens = c.tokens := rfl
@[simp] theorem Cell.deliverAt_landings (due k op reg : Nat) (val : Word) (notes : List Note) : (c.deliverAt due k op reg val notes).landings = c.landings := rfl
@[simp] theorem Cell.deliverAt_hold (due k op reg : Nat) (val : Word) (notes : List Note) : (c.deliverAt due k op reg val notes).hold = c.hold := rfl
@[simp] theorem Cell.deliverAt_arrivals (due k op reg : Nat) (val : Word) (notes : List Note) : (c.deliverAt due k op reg val notes).arrivals = c.arrivals := rfl
@[simp] theorem Cell.deliverAt_waits (due k op reg : Nat) (val : Word) (notes : List Note) : (c.deliverAt due k op reg val notes).waits = c.waits := rfl
@[simp] theorem Cell.deliverAt_parts (due k op reg : Nat) (val : Word) (notes : List Note) : (c.deliverAt due k op reg val notes).parts = c.parts := rfl
@[simp] theorem Cell.deliverAt_regWrites (due k op reg : Nat) (val : Word) (notes : List Note) : (c.deliverAt due k op reg val notes).regWrites = c.regWrites := rfl
@[simp] theorem Cell.deliverAt_cnts (due k op reg : Nat) (val : Word) (notes : List Note) : (c.deliverAt due k op reg val notes).cnts = c.cnts := rfl
@[simp] theorem Cell.deliverAt_cntsWas (due k op reg : Nat) (val : Word) (notes : List Note) : (c.deliverAt due k op reg val notes).cntsWas = c.cntsWas := rfl
@[simp] theorem Cell.deliverAt_cntsNew (due k op reg : Nat) (val : Word) (notes : List Note) : (c.deliverAt due k op reg val notes).cntsNew = c.cntsNew := rfl
@[simp] theorem Cell.deliverAt_cmax (due k op reg : Nat) (val : Word) (notes : List Note) : (c.deliverAt due k op reg val notes).cmax = c.cmax := rfl
@[simp] theorem Cell.deliverAt_cnan (due k op reg : Nat) (val : Word) (notes : List Note) : (c.deliverAt due k op reg val notes).cnan = c.cnan := rfl
@[simp] theorem Cell.deliverAt_arr (due k op reg : Nat) (val : Word) (notes : List Note) : (c.deliverAt due k op reg val notes).arr = c.arr := rfl
@[simp] theorem Cell.deliverAt_ins (due k op reg : Nat) (val : Word) (notes : List Note) : (c.deliverAt due k op reg val notes).ins = c.ins := rfl
@[simp] theorem Cell.deliverAt_outs (due k op reg : Nat) (val : Word) (notes : List Note) : (c.deliverAt due k op reg val notes).outs = c.outs := rfl
@[simp] theorem Cell.deliverAt_pushes (due k op reg : Nat) (val : Word) (notes : List Note) : (c.deliverAt due k op reg val notes).pushes = c.pushes := rfl
@[simp] theorem Cell.deliverAt_rels (due k op reg : Nat) (val : Word) (notes : List Note) : (c.deliverAt due k op reg val notes).rels = c.rels := rfl
@[simp] theorem Cell.deliverAt_tbs (due k op reg : Nat) (val : Word) (notes : List Note) : (c.deliverAt due k op reg val notes).tbs = c.tbs := rfl
@[simp] theorem Cell.deliverAt_tbjobs (due k op reg : Nat) (val : Word) (notes : List Note) : (c.deliverAt due k op reg val notes).tbjobs = c.tbjobs := rfl
@[simp] theorem Cell.deliverAt_staging (due k op reg : Nat) (val : Word) (notes : List Note) : (c.deliverAt due k op reg val notes).staging = c.staging := rfl
@[simp] theorem Cell.deliverAt_logs (due k op reg : Nat) (val : Word) (notes : List Note) : (c.deliverAt due k op reg val notes).logs = c.logs := rfl
@[simp] theorem Cell.deliverAt_inject (due k op reg : Nat) (val : Word) (notes : List Note) : (c.deliverAt due k op reg val notes).inject = c.inject := rfl
@[simp] theorem Cell.deliverAt_flips (due k op reg : Nat) (val : Word) (notes : List Note) : (c.deliverAt due k op reg val notes).flips = c.flips := rfl
@[simp] theorem Cell.deliverAt_repcmd (due k op reg : Nat) (val : Word) (notes : List Note) : (c.deliverAt due k op reg val notes).repcmd = c.repcmd := rfl
@[simp] theorem Cell.deliverAt_repaired (due k op reg : Nat) (val : Word) (notes : List Note) : (c.deliverAt due k op reg val notes).repaired = c.repaired := rfl
@[simp] theorem Cell.deliverAt_nospare (due k op reg : Nat) (val : Word) (notes : List Note) : (c.deliverAt due k op reg val notes).nospare = c.nospare := rfl
@[simp] theorem Cell.deliverAt_repairAt (due k op reg : Nat) (val : Word) (notes : List Note) : (c.deliverAt due k op reg val notes).repairAt = c.repairAt := rfl
@[simp] theorem Cell.deliverAt_remaps (due k op reg : Nat) (val : Word) (notes : List Note) : (c.deliverAt due k op reg val notes).remaps = c.remaps := rfl
@[simp] theorem Cell.deliverAt_faults (due k op reg : Nat) (val : Word) (notes : List Note) : (c.deliverAt due k op reg val notes).faults = c.faults := rfl
@[simp] theorem Cell.deliverAt_qwaits (due k op reg : Nat) (val : Word) (notes : List Note) : (c.deliverAt due k op reg val notes).qwaits = c.qwaits := rfl

@[simp] theorem Cell.storeBytes_spire (off : Nat) (bytes : List Byte) : (c.storeBytes off bytes).spire = c.spire := rfl
@[simp] theorem Cell.storeBytes_strands (off : Nat) (bytes : List Byte) : (c.storeBytes off bytes).strands = c.strands := rfl
@[simp] theorem Cell.storeBytes_races (off : Nat) (bytes : List Byte) : (c.storeBytes off bytes).races = c.races := rfl
@[simp] theorem Cell.storeBytes_scb (off : Nat) (bytes : List Byte) : (c.storeBytes off bytes).scb = c.scb := rfl
@[simp] theorem Cell.storeBytes_recs (off : Nat) (bytes : List Byte) : (c.storeBytes off bytes).recs = c.recs := rfl
@[simp] theorem Cell.storeBytes_ends (off : Nat) (bytes : List Byte) : (c.storeBytes off bytes).ends = c.ends := rfl
@[simp] theorem Cell.storeBytes_ctxJob (off : Nat) (bytes : List Byte) : (c.storeBytes off bytes).ctxJob = c.ctxJob := rfl
@[simp] theorem Cell.storeBytes_ctxQueue (off : Nat) (bytes : List Byte) : (c.storeBytes off bytes).ctxQueue = c.ctxQueue := rfl
@[simp] theorem Cell.storeBytes_binds (off : Nat) (bytes : List Byte) : (c.storeBytes off bytes).binds = c.binds := rfl
@[simp] theorem Cell.storeBytes_ptr (off : Nat) (bytes : List Byte) : (c.storeBytes off bytes).ptr = c.ptr := rfl
@[simp] theorem Cell.storeBytes_agelim (off : Nat) (bytes : List Byte) : (c.storeBytes off bytes).agelim = c.agelim := rfl
@[simp] theorem Cell.storeBytes_tokexp (off : Nat) (bytes : List Byte) : (c.storeBytes off bytes).tokexp = c.tokexp := rfl
@[simp] theorem Cell.storeBytes_tokexpNow (off : Nat) (bytes : List Byte) : (c.storeBytes off bytes).tokexpNow = c.tokexpNow := rfl
@[simp] theorem Cell.storeBytes_faultq (off : Nat) (bytes : List Byte) : (c.storeBytes off bytes).faultq = c.faultq := rfl
@[simp] theorem Cell.storeBytes_rbres (off : Nat) (bytes : List Byte) : (c.storeBytes off bytes).rbres = c.rbres := rfl
@[simp] theorem Cell.storeBytes_xset (off : Nat) (bytes : List Byte) : (c.storeBytes off bytes).xset = c.xset := rfl
@[simp] theorem Cell.storeBytes_cds (off : Nat) (bytes : List Byte) : (c.storeBytes off bytes).cds = c.cds := rfl
@[simp] theorem Cell.storeBytes_ops (off : Nat) (bytes : List Byte) : (c.storeBytes off bytes).ops = c.ops := rfl
@[simp] theorem Cell.storeBytes_engineAt (off : Nat) (bytes : List Byte) : (c.storeBytes off bytes).engineAt = c.engineAt := rfl
@[simp] theorem Cell.storeBytes_tokens (off : Nat) (bytes : List Byte) : (c.storeBytes off bytes).tokens = c.tokens := rfl
@[simp] theorem Cell.storeBytes_landings (off : Nat) (bytes : List Byte) : (c.storeBytes off bytes).landings = c.landings := rfl
@[simp] theorem Cell.storeBytes_hold (off : Nat) (bytes : List Byte) : (c.storeBytes off bytes).hold = c.hold := rfl
@[simp] theorem Cell.storeBytes_arrivals (off : Nat) (bytes : List Byte) : (c.storeBytes off bytes).arrivals = c.arrivals := rfl
@[simp] theorem Cell.storeBytes_waits (off : Nat) (bytes : List Byte) : (c.storeBytes off bytes).waits = c.waits := rfl
@[simp] theorem Cell.storeBytes_deliveries (off : Nat) (bytes : List Byte) : (c.storeBytes off bytes).deliveries = c.deliveries := rfl
@[simp] theorem Cell.storeBytes_parts (off : Nat) (bytes : List Byte) : (c.storeBytes off bytes).parts = c.parts := rfl
@[simp] theorem Cell.storeBytes_regWrites (off : Nat) (bytes : List Byte) : (c.storeBytes off bytes).regWrites = c.regWrites := rfl
@[simp] theorem Cell.storeBytes_cnts (off : Nat) (bytes : List Byte) : (c.storeBytes off bytes).cnts = c.cnts := rfl
@[simp] theorem Cell.storeBytes_cntsWas (off : Nat) (bytes : List Byte) : (c.storeBytes off bytes).cntsWas = c.cntsWas := rfl
@[simp] theorem Cell.storeBytes_cntsNew (off : Nat) (bytes : List Byte) : (c.storeBytes off bytes).cntsNew = c.cntsNew := rfl
@[simp] theorem Cell.storeBytes_cmax (off : Nat) (bytes : List Byte) : (c.storeBytes off bytes).cmax = c.cmax := rfl
@[simp] theorem Cell.storeBytes_cnan (off : Nat) (bytes : List Byte) : (c.storeBytes off bytes).cnan = c.cnan := rfl
@[simp] theorem Cell.storeBytes_arr (off : Nat) (bytes : List Byte) : (c.storeBytes off bytes).arr = c.arr := rfl
@[simp] theorem Cell.storeBytes_ins (off : Nat) (bytes : List Byte) : (c.storeBytes off bytes).ins = c.ins := rfl
@[simp] theorem Cell.storeBytes_outs (off : Nat) (bytes : List Byte) : (c.storeBytes off bytes).outs = c.outs := rfl
@[simp] theorem Cell.storeBytes_pushes (off : Nat) (bytes : List Byte) : (c.storeBytes off bytes).pushes = c.pushes := rfl
@[simp] theorem Cell.storeBytes_rels (off : Nat) (bytes : List Byte) : (c.storeBytes off bytes).rels = c.rels := rfl
@[simp] theorem Cell.storeBytes_tbs (off : Nat) (bytes : List Byte) : (c.storeBytes off bytes).tbs = c.tbs := rfl
@[simp] theorem Cell.storeBytes_tbjobs (off : Nat) (bytes : List Byte) : (c.storeBytes off bytes).tbjobs = c.tbjobs := rfl
@[simp] theorem Cell.storeBytes_staging (off : Nat) (bytes : List Byte) : (c.storeBytes off bytes).staging = c.staging := rfl
@[simp] theorem Cell.storeBytes_logs (off : Nat) (bytes : List Byte) : (c.storeBytes off bytes).logs = c.logs := rfl
@[simp] theorem Cell.storeBytes_inject (off : Nat) (bytes : List Byte) : (c.storeBytes off bytes).inject = c.inject := rfl
@[simp] theorem Cell.storeBytes_repcmd (off : Nat) (bytes : List Byte) : (c.storeBytes off bytes).repcmd = c.repcmd := rfl
@[simp] theorem Cell.storeBytes_repaired (off : Nat) (bytes : List Byte) : (c.storeBytes off bytes).repaired = c.repaired := rfl
@[simp] theorem Cell.storeBytes_nospare (off : Nat) (bytes : List Byte) : (c.storeBytes off bytes).nospare = c.nospare := rfl
@[simp] theorem Cell.storeBytes_repairAt (off : Nat) (bytes : List Byte) : (c.storeBytes off bytes).repairAt = c.repairAt := rfl
@[simp] theorem Cell.storeBytes_remaps (off : Nat) (bytes : List Byte) : (c.storeBytes off bytes).remaps = c.remaps := rfl
@[simp] theorem Cell.storeBytes_faults (off : Nat) (bytes : List Byte) : (c.storeBytes off bytes).faults = c.faults := rfl
@[simp] theorem Cell.storeBytes_qwaits (off : Nat) (bytes : List Byte) : (c.storeBytes off bytes).qwaits = c.qwaits := rfl

@[simp] theorem Cell.endWait_strand (w : WaitFor) : (c.endWait w).strand k = c.strand k := rfl
@[simp] theorem Cell.storeBytes_strand (off : Nat) (bytes : List Byte) : (c.storeBytes off bytes).strand k = c.strand k := rfl
@[simp] theorem Cell.storeBytes_mem (off : Nat) (bytes : List Byte) : (c.storeBytes off bytes).mem = memWrite c.mem off bytes := rfl

end Sys2Proof.Machine
end

