-- ==== Sys2Proof/Laws/Bundle.lean ====
section
/-! SUPPORT. A bundle of one syllable: when it issues, and what its issue leaves. -/

namespace Sys2Proof.Machine

variable {s : State} {m u k off : Nat}

/-- A syllable by itself breaks no rule between syllables (R66, R67, R71, R159). -/
theorem clashes_nil (y : Syl) : clashes [] y = false := by
  cases hc : y.cls <;> simp [clashes, classCount, hc]

theorem staticTrap_single {y : Syl} (h : y.static = []) : staticTrap [y] = none := by
  simp [staticTrap, firstClash, clashes_nil, numbered, List.range_succ, h, pickTrap]

theorem pendingStall_single {st : Strand} {y : Syl} (h : ∀ p ∈ st.pend, p.reg ∉ y.reads ∧ p.reg ∉ y.names) :
    pendingStall st [y] = false := by
  simp [pendingStall, Bool.eq_false_iff]
  intro p hp
  simpa using h p hp

theorem filter_delivered_nil {ds : List Delivered} {reads : List Nat} (h : ∀ d ∈ ds, d.reg ∉ reads) :
    (ds.filter fun d => reads.contains d.reg) = [] := by
  simp only [List.filter_eq_nil_iff, List.contains_eq_mem, decide_eq_true_eq]
  exact h

theorem filter_delivered_same {ds : List Delivered} {reads : List Nat} (h : ∀ d ∈ ds, d.reg ∉ reads) :
    (ds.filter fun d => !reads.contains d.reg) = ds := by
  simp only [List.filter_eq_self, List.contains_eq_mem, Bool.not_eq_true', decide_eq_false_iff_not]
  exact h

theorem dynTrap_single {st : Strand} {y : Syl} (hd : y.dyn = []) (h : ∀ d ∈ st.delivered, d.reg ∉ y.reads) :
    dynTrap st [y] = none := by
  have hn : noteTraps st y = [] := by simp only [noteTraps, filter_delivered_nil h, List.flatMap_nil]
  simp [dynTrap, numbered, List.range_succ, hn, hd, oneLate, pickTrap]

/-- The `loop` case of a bundle of one syllable is the syllable's. -/
theorem loopCaseOf_single (y : Syl) : loopCaseOf [y] = y.loop := by
  by_cases h : y.loop = .none
  · simp [loopCaseOf, h]
  · simp [loopCaseOf, h]

theorem notesOf_none {st : Strand} {reads : List Nat} (h : ∀ d ∈ st.delivered, d.reg ∉ reads) : st.notesOf reads = [] := by
  simp [Strand.notesOf, filter_delivered_nil h, -List.contains_eq_mem]

theorem checkImage_none {y : Syl} {b : Bundle} (h : y.image = none) : y.checkImage s b = y := by
  simp [Syl.checkImage, h]

/-- The conditions under which a bundle of the one syllable `y` issues in R434's order. -/
structure Syl.Issues (st : Strand) (y : Syl) : Prop where
  static : y.static = []
  dyn : y.dyn = []
  image : y.image = none := by rfl
  pend : ∀ p ∈ st.pend, p.reg ∉ y.reads ∧ p.reg ∉ y.names
  notes : ∀ d ∈ st.delivered, d.reg ∉ y.reads
  loop : y.loop = .none ∨ y.loop = .start ∨ y.loop = .fin
  free : y.blocked = false
  room : st.landing.length + landCount [y] ≤ 32

/-- A last syllable that may issue, alone in its bundle, commits. -/
theorem runSyl_commits {i : Instr} {f : View → Syl} (ho : s.Opened m u k)
    (h : (f (s.sees m u k i)).Issues (s.strand m u k)) :
    runSyl s i true f = .next (commitBundle s { s.nextBundle m u k with syls := [f (s.sees m u k i)] }) := by
  have hl : loopCaseOf [f (s.sees m u k i)] ≠ .stop ∧ loopCaseOf [f (s.sees m u k i)] ≠ .park ∧
      loopCaseOf [f (s.sees m u k i)] ≠ .wait := by
    rcases h.loop with e | e | e <;> simp [loopCaseOf_single, e]
  have e1 : s.strand (s.nextBundle m u k).m (s.nextBundle m u k).u (s.nextBundle m u k).k = s.strand m u k := rfl
  have hr : ¬ 32 < (s.strand m u k).landing.length + landCount [f (s.sees m u k i)] := Nat.not_lt.2 h.room
  simp only [State.sees] at h hl hr ⊢
  simp only [runSyl, ho.cur, pushSyl, if_true]
  simp only [closeBundle, State.nextBundle, List.nil_append] at *
  simp [staticTrap_single h.static, pendingStall_single h.pend, checkImage_none h.image, dynTrap_single h.dyn h.notes, hl,
    h.free, hr]

/-! ### What the issue leaves -/

/-- The machine when a bundle of `n` syllables has issued and none of its effects has taken place. -/
def State.committed (s : State) (m u k n : Nat) : State :=
  State.onStrand
    ({ s with cur := none, last := .issued, seq := s.seq + 1 }.onCell m u fun c => c.endWait (.strand k)) m u k fun st =>
      { st with beat := st.beat + 1, pc := st.pc + BitVec.ofNat 15 n, waiting := .none }

/-- A bundle of one syllable commits: its effects in their order, on the machine in which it has issued. -/
theorem commitBundle_single {y : Syl} (h : ∀ d ∈ (s.strand m u k).delivered, d.reg ∉ y.reads) :
    commitBundle s { s.nextBundle m u k with syls := [y] } =
      (orderedEffects [y]).foldl (applyEffect m u k ((s.strand m u k).pc + 1)) (s.committed m u k 1) := by
  simp only [commitBundle, State.nextBundle, State.committed, List.flatMap_cons, List.flatMap_nil, List.append_nil,
    List.length_cons, List.length_nil, notesOf_none h, List.isEmpty_nil, if_true, orderedEffects, List.foldl_append]
  simp only [State.onStrand, State.onCell, State.cell_setCell, and_self, if_true]
  have ht : ((s.cell m u).endWait (.strand k)).strand k = s.strand m u k := rfl
  have e : ({ s with cur := none, last := .issued, seq := s.seq + 1 } : State).cell m u = s.cell m u := rfl
  simp only [e, Cell.onStrand, ht, filter_delivered_same h]
  rfl

theorem committed_issued (hk : k < 4) : Issued s (s.committed m u k 1) m u k [] where
  elsewhere :=
    { machine := rfl
      modules := fun m' h => by simp only [State.committed, State.onStrand, State.mod_onCell_ne _ _ _ _ h]; rfl
      io := by simp only [State.committed, State.io_onStrand, State.io_onCell]; rfl
      cells := fun u' h => by simp only [State.committed, State.onStrand, State.cell_onCell_ne _ _ _ _ _ h]; rfl
      strands := fun k' h => by
        simp only [State.committed, State.strand_onStrand_ne _ _ _ _ _ _ _ h]
        simp only [State.strand, State.cell_onCell_same, Cell.endWait_strand]; rfl }
  cell := by simp only [State.committed, State.onStrand, State.cell_onCell_same]; rfl
  strand := by
    simp only [State.committed, State.strand_onStrand_same _ _ _ _ _ hk, List.append_nil]
    simp only [State.strand, State.cell_onCell_same, Cell.endWait_strand]; rfl

/-- One more result goes into flight. -/
theorem IssuedIn.land {t : State} {c : Cell} {ls : List Landing} (hk : k < 4) (h : IssuedIn s t m u k c ls)
    (next : BitVec 15) (l : Landing) : IssuedIn s (applyEffect m u k next t (.land l)) m u k c (ls ++ [l]) where
  elsewhere :=
    { machine := by rw [h.elsewhere.machine]; rfl
      modules := fun m' e => by
        simp only [applyEffect, State.onStrand, State.mod_onCell_ne _ _ _ _ e, h.elsewhere.modules m' e]
      io := by simp only [applyEffect, State.io_onStrand, h.elsewhere.io]
      cells := fun u' e => by
        simp only [applyEffect, State.onStrand, State.cell_onCell_ne _ _ _ _ _ e, h.elsewhere.cells u' e]
      strands := fun k' e => by
        simp only [applyEffect, State.strand_onStrand_ne _ _ _ _ _ _ _ e, h.elsewhere.strands k' e] }
  cell := by
    simp only [applyEffect, State.onStrand, State.cell_onCell_same]
    rw [Cell.onStrand, h.cell]; rfl
  strand := by
    simp only [applyEffect, State.strand_onStrand_same _ _ _ _ _ hk, h.strand, List.append_assoc]

theorem IssuedIn.lands {c : Cell} (hk : k < 4) (next : BitVec 15) (new : List Landing) :
    ∀ {t : State} {ls : List Landing}, IssuedIn s t m u k c ls →
      IssuedIn s ((new.map Effect.land).foldl (applyEffect m u k next) t) m u k c (ls ++ new) := by
  induction new with
  | nil => intro t ls h; simpa using h
  | cons l r ih =>
    intro t ls h
    have := ih (h.land hk next l)
    simpa using this

/-- An effect on the cell alone that does not look at its waits. -/
theorem IssuedIn.onCell {t : State} {c : Cell} {ls : List Landing} (h : IssuedIn s t m u k c ls) (f : Cell → Cell)
    (hs : ∀ k', (f (t.cell m u)).strand k' = (t.cell m u).strand k')
    (hf : f (t.cell m u) = { f c with strands := (f (t.cell m u)).strands, waits := ((f c).endWait (.strand k)).waits }) :
    IssuedIn s (t.onCell m u f) m u k (f c) ls where
  elsewhere :=
    { machine := by rw [h.elsewhere.machine]; rfl
      modules := fun m' e => by simp only [State.mod_onCell_ne _ _ _ _ e, h.elsewhere.modules m' e]
      io := by simp only [State.io_onCell, h.elsewhere.io]
      cells := fun u' e => by simp only [State.cell_onCell_ne _ _ _ _ _ e, h.elsewhere.cells u' e]
      strands := fun k' e => by
        rw [State.strand, State.cell_onCell_same, hs, ← h.elsewhere.strands k' e]; rfl }
  cell := by rw [State.cell_onCell_same]; exact hf
  strand := by rw [State.strand, State.cell_onCell_same, hs, ← h.strand]; rfl

/-- A plain store. -/
theorem IssuedIn.store {t : State} {c : Cell} {ls : List Landing} (h : IssuedIn s t m u k c ls) (next : BitVec 15)
    (off : Nat) (bytes : List Byte) :
    IssuedIn s (applyEffect m u k next t (.store off bytes)) m u k (c.storeBytes off bytes) ls :=
  h.onCell (fun x => x.storeBytes off bytes) (fun _ => rfl) (by rw [h.cell]; rfl)

/-- The detector of a SHARED region notes the writer. -/
theorem IssuedIn.race {t : State} {c : Cell} {ls : List Landing} (h : IssuedIn s t m u k c ls) (next : BitVec 15)
    {r : Race} (hr : c.raceAt off = some r) (hc : (c.strand k).recid = (s.strand m u k).recid) :
    IssuedIn s (applyEffect m u k next t (.raceWrite r.off)) m u k (c.wrote k off) ls := by
  have e : (t.cell m u).strand k = t.strand m u k := rfl
  have e' : ((t.cell m u).strand k).recid = (c.strand k).recid := by rw [e, h.strand, hc]
  have := h.onCell (fun c' => { c' with races := c'.races.map fun x =>
      if x.off = r.off then { x with wr := some ((c.strand k).recid.toNat, k), wrel := none } else x })
    (fun _ => rfl) (by rw [h.cell]; rfl)
  simp only [Cell.wrote, hr, applyEffect]
  simp only [State.onCell] at this ⊢
  simpa only [e'] using this

/-- The effects of a syllable that only sends results off. -/
theorem orderedEffects_lands {y : Syl} (ls : List Landing) (h : y.effects = ls.map .land) :
    orderedEffects [y] = ls.map .land := by
  have h1 : (ls.map Effect.land).filter Effect.lands = ls.map Effect.land := by
    simp [List.filter_eq_self, Effect.lands]
  have h2 : ∀ p : Effect → Bool, (∀ l, p (.land l) = false) → (ls.map Effect.land).filter p = [] := by
    intro p hp; simp [List.filter_eq_nil_iff, hp]
  have h3 := h2 (fun e => !e.lands) fun _ => rfl
  have h4 := h2 Effect.syncs fun _ => rfl
  have h5 := h2 Effect.reads fun _ => rfl
  have h6 := h2 Effect.writes fun _ => rfl
  have h7 := h2 (fun e => e.writes || e.syncs) fun _ => rfl
  cases hc : y.cls <;> simp [orderedEffects, dataEffects, controlEffects, h, hc, h1, h3, h4, h5, h6, h7]

/-- The order of the effects of a class M syllable, and of a syllable of class E or of a control syllable. -/
theorem orderedEffects_memory {y : Syl} (h : y.cls = .memory) :
    orderedEffects [y] = y.effects.filter Effect.lands ++
      (y.effects.filter Effect.syncs ++ (y.effects.filter Effect.reads ++ y.effects.filter Effect.writes)) := by
  simp [orderedEffects, dataEffects, controlEffects, h]

theorem orderedEffects_engine {y : Syl} (h : y.cls = .engine) :
    orderedEffects [y] = y.effects.filter Effect.lands ++
      (y.effects.filter Effect.reads ++ y.effects.filter fun e => e.writes || e.syncs) := by
  simp [orderedEffects, dataEffects, controlEffects, h]

theorem orderedEffects_control {y : Syl} (h : y.cls = .control) :
    orderedEffects [y] = y.effects.filter Effect.lands ++ y.effects.filter fun e => !e.lands := by
  simp [orderedEffects, dataEffects, controlEffects, h]

theorem landCount_lands {y : Syl} (ls : List Landing) (h : y.effects = ls.map .land) : landCount [y] = ls.length := by
  simp [landCount, h, List.countP_eq_length, Effect.lands]

/-- A last syllable that only sends results off, alone in its bundle: it issues, and its results are in flight. -/
theorem runSyl_lands {i : Instr} {f : View → Syl} (ls : List Landing) (ho : s.Opened m u k)
    (h : (f (s.sees m u k i)).Issues (s.strand m u k)) (he : (f (s.sees m u k i)).effects = ls.map .land) :
    ∃ t, runSyl s i true f = .next t ∧ Issued s t m u k ls := by
  refine ⟨_, runSyl_commits ho h, ?_⟩
  rw [commitBundle_single h.notes, orderedEffects_lands ls he]
  simpa using IssuedIn.lands ho.strand _ ls (committed_issued (s := s) (m := m) (u := u) ho.strand)

end Sys2Proof.Machine
end

