-- ==== Sys2Proof/Laws/Exec.lean ====
section
/-! SUPPORT. The arm of each instruction: which meaning `exec` calls. -/

namespace Sys2Proof.Machine

variable (s : State)

theorem exec_nop (e : Bool) : exec (.nop e) s = execNop e s := rfl
theorem exec_add (e : Bool) (d : BitVec 6) (a : BitVec 6) (b : BitVec 6) : exec (.add e d a b) s = execAdd e d a b s := rfl
theorem exec_sub (e : Bool) (d : BitVec 6) (a : BitVec 6) (b : BitVec 6) : exec (.sub e d a b) s = execSub e d a b s := rfl
theorem exec_and (e : Bool) (d : BitVec 6) (a : BitVec 6) (b : BitVec 6) : exec (.and e d a b) s = execAnd e d a b s := rfl
theorem exec_or (e : Bool) (d : BitVec 6) (a : BitVec 6) (b : BitVec 6) : exec (.or e d a b) s = execOr e d a b s := rfl
theorem exec_xor (e : Bool) (d : BitVec 6) (a : BitVec 6) (b : BitVec 6) : exec (.xor e d a b) s = execXor e d a b s := rfl
theorem exec_andn (e : Bool) (d : BitVec 6) (a : BitVec 6) (b : BitVec 6) : exec (.andn e d a b) s = execAndn e d a b s := rfl
theorem exec_shl (e : Bool) (d : BitVec 6) (a : BitVec 6) (b : BitVec 6) : exec (.shl e d a b) s = execShl e d a b s := rfl
theorem exec_shr (e : Bool) (d : BitVec 6) (a : BitVec 6) (b : BitVec 6) : exec (.shr e d a b) s = execShr e d a b s := rfl
theorem exec_sra (e : Bool) (d : BitVec 6) (a : BitVec 6) (b : BitVec 6) : exec (.sra e d a b) s = execSra e d a b s := rfl
theorem exec_rot (e : Bool) (d : BitVec 6) (a : BitVec 6) (b : BitVec 6) : exec (.rot e d a b) s = execRot e d a b s := rfl
theorem exec_mul (e : Bool) (d : BitVec 6) (a : BitVec 6) (b : BitVec 6) : exec (.mul e d a b) s = execMul e d a b s := rfl
theorem exec_mulh (e : Bool) (d : BitVec 6) (a : BitVec 6) (b : BitVec 6) : exec (.mulh e d a b) s = execMulh e d a b s := rfl
theorem exec_mulhU (e : Bool) (d : BitVec 6) (a : BitVec 6) (b : BitVec 6) : exec (.mulhU e d a b) s = execMulhU e d a b s := rfl
theorem exec_div (e : Bool) (d : BitVec 6) (a : BitVec 6) (b : BitVec 6) : exec (.div e d a b) s = execDiv e d a b s := rfl
theorem exec_divU (e : Bool) (d : BitVec 6) (a : BitVec 6) (b : BitVec 6) : exec (.divU e d a b) s = execDivU e d a b s := rfl
theorem exec_rem (e : Bool) (d : BitVec 6) (a : BitVec 6) (b : BitVec 6) : exec (.rem e d a b) s = execRem e d a b s := rfl
theorem exec_remU (e : Bool) (d : BitVec 6) (a : BitVec 6) (b : BitVec 6) : exec (.remU e d a b) s = execRemU e d a b s := rfl
theorem exec_min (e : Bool) (d : BitVec 6) (a : BitVec 6) (b : BitVec 6) : exec (.min e d a b) s = execMin e d a b s := rfl
theorem exec_minU (e : Bool) (d : BitVec 6) (a : BitVec 6) (b : BitVec 6) : exec (.minU e d a b) s = execMinU e d a b s := rfl
theorem exec_max (e : Bool) (d : BitVec 6) (a : BitVec 6) (b : BitVec 6) : exec (.max e d a b) s = execMax e d a b s := rfl
theorem exec_maxU (e : Bool) (d : BitVec 6) (a : BitVec 6) (b : BitVec 6) : exec (.maxU e d a b) s = execMaxU e d a b s := rfl
theorem exec_cmp (e : Bool) (d : BitVec 6) (a : BitVec 6) (b : BitVec 6) (c : BitVec 5) : exec (.cmp e d a b c) s = execCmp e d a b c s := rfl
theorem exec_cmov (e : Bool) (d : BitVec 6) (a : BitVec 6) (b : BitVec 6) : exec (.cmov e d a b) s = execCmov e d a b s := rfl
theorem exec_clz (e : Bool) (d : BitVec 6) (a : BitVec 6) : exec (.clz e d a) s = execClz e d a s := rfl
theorem exec_popc (e : Bool) (d : BitVec 6) (a : BitVec 6) : exec (.popc e d a) s = execPopc e d a s := rfl
theorem exec_bext (e : Bool) (d : BitVec 6) (a : BitVec 6) (b : BitVec 6) (p : BitVec 5) : exec (.bext e d a b p) s = execBext e d a b p s := rfl
theorem exec_bins (e : Bool) (d : BitVec 6) (a : BitVec 6) (b : BitVec 6) (p : BitVec 5) : exec (.bins e d a b p) s = execBins e d a b p s := rfl
theorem exec_addi (e : Bool) (d : BitVec 6) (a : BitVec 6) (i : BitVec 11) : exec (.addi e d a i) s = execAddi e d a i s := rfl
theorem exec_andi (e : Bool) (d : BitVec 6) (a : BitVec 6) (i : BitVec 11) : exec (.andi e d a i) s = execAndi e d a i s := rfl
theorem exec_ori (e : Bool) (d : BitVec 6) (a : BitVec 6) (i : BitVec 11) : exec (.ori e d a i) s = execOri e d a i s := rfl
theorem exec_xori (e : Bool) (d : BitVec 6) (a : BitVec 6) (i : BitVec 11) : exec (.xori e d a i) s = execXori e d a i s := rfl
theorem exec_shli (e : Bool) (d : BitVec 6) (a : BitVec 6) (i : BitVec 11) : exec (.shli e d a i) s = execShli e d a i s := rfl
theorem exec_shri (e : Bool) (d : BitVec 6) (a : BitVec 6) (i : BitVec 11) : exec (.shri e d a i) s = execShri e d a i s := rfl
theorem exec_srai (e : Bool) (d : BitVec 6) (a : BitVec 6) (i : BitVec 11) : exec (.srai e d a i) s = execSrai e d a i s := rfl
theorem exec_muli (e : Bool) (d : BitVec 6) (a : BitVec 6) (i : BitVec 11) : exec (.muli e d a i) s = execMuli e d a i s := rfl
theorem exec_cmpeqi (e : Bool) (d : BitVec 6) (a : BitVec 6) (i : BitVec 11) : exec (.cmpeqi e d a i) s = execCmpeqi e d a i s := rfl
theorem exec_cmplti (e : Bool) (d : BitVec 6) (a : BitVec 6) (i : BitVec 11) : exec (.cmplti e d a i) s = execCmplti e d a i s := rfl
theorem exec_cmpltui (e : Bool) (d : BitVec 6) (a : BitVec 6) (i : BitVec 11) : exec (.cmpltui e d a i) s = execCmpltui e d a i s := rfl
theorem exec_li (e : Bool) (d : BitVec 6) (i : BitVec 17) : exec (.li e d i) s = execLi e d i s := rfl
theorem exec_lih (e : Bool) (d : BitVec 6) (i : BitVec 17) : exec (.lih e d i) s = execLih e d i s := rfl
theorem exec_mfs (e : Bool) (d : BitVec 6) (n : BitVec 11) : exec (.mfs e d n) s = execMfs e d n s := rfl
theorem exec_mts (e : Bool) (a : BitVec 6) (n : BitVec 11) : exec (.mts e a n) s = execMts e a n s := rfl
theorem exec_rdcyc (e : Bool) (d : BitVec 6) : exec (.rdcyc e d) s = execRdcyc e d s := rfl
theorem exec_rdid (e : Bool) (d : BitVec 6) (n : BitVec 11) : exec (.rdid e d n) s = execRdid e d n s := rfl
theorem exec_pand (e : Bool) (d : BitVec 6) (a : BitVec 6) (b : BitVec 6) : exec (.pand e d a b) s = execPand e d a b s := rfl
theorem exec_por (e : Bool) (d : BitVec 6) (a : BitVec 6) (b : BitVec 6) : exec (.por e d a b) s = execPor e d a b s := rfl
theorem exec_pxor (e : Bool) (d : BitVec 6) (a : BitVec 6) (b : BitVec 6) : exec (.pxor e d a b) s = execPxor e d a b s := rfl
theorem exec_pandn (e : Bool) (d : BitVec 6) (a : BitVec 6) (b : BitVec 6) : exec (.pandn e d a b) s = execPandn e d a b s := rfl
theorem exec_pfs (e : Bool) (d : BitVec 6) (a : BitVec 6) : exec (.pfs e d a) s = execPfs e d a s := rfl
theorem exec_pts (e : Bool) (d : BitVec 6) (a : BitVec 6) : exec (.pts e d a) s = execPts e d a s := rfl
theorem exec_pcnt (e : Bool) (d : BitVec 6) (a : BitVec 6) : exec (.pcnt e d a) s = execPcnt e d a s := rfl
theorem exec_pfirst (e : Bool) (d : BitVec 6) (a : BitVec 6) : exec (.pfirst e d a) s = execPfirst e d a s := rfl
theorem exec_ldb (e : Bool) (d : BitVec 6) (h : BitVec 4) (a : BitVec 6) (i : BitVec 7) : exec (.ldb e d h a i) s = execLdb e d h a i s := rfl
theorem exec_ldbu (e : Bool) (d : BitVec 6) (h : BitVec 4) (a : BitVec 6) (i : BitVec 7) : exec (.ldbu e d h a i) s = execLdbu e d h a i s := rfl
theorem exec_ldh (e : Bool) (d : BitVec 6) (h : BitVec 4) (a : BitVec 6) (i : BitVec 7) : exec (.ldh e d h a i) s = execLdh e d h a i s := rfl
theorem exec_ldhu (e : Bool) (d : BitVec 6) (h : BitVec 4) (a : BitVec 6) (i : BitVec 7) : exec (.ldhu e d h a i) s = execLdhu e d h a i s := rfl
theorem exec_ldw (e : Bool) (d : BitVec 6) (h : BitVec 4) (a : BitVec 6) (i : BitVec 7) : exec (.ldw e d h a i) s = execLdw e d h a i s := rfl
theorem exec_stb (e : Bool) (d : BitVec 6) (h : BitVec 4) (a : BitVec 6) (i : BitVec 7) : exec (.stb e d h a i) s = execStb e d h a i s := rfl
theorem exec_sth (e : Bool) (d : BitVec 6) (h : BitVec 4) (a : BitVec 6) (i : BitVec 7) : exec (.sth e d h a i) s = execSth e d h a i s := rfl
theorem exec_stw (e : Bool) (d : BitVec 6) (h : BitVec 4) (a : BitVec 6) (i : BitVec 7) : exec (.stw e d h a i) s = execStw e d h a i s := rfl
theorem exec_vld (e : Bool) (d : BitVec 6) (h : BitVec 4) (a : BitVec 6) (t : BitVec 3) (i : BitVec 4) : exec (.vld e d h a t i) s = execVld e d h a t i s := rfl
theorem exec_vst (e : Bool) (d : BitVec 6) (h : BitVec 4) (a : BitVec 6) (t : BitVec 3) (i : BitVec 4) : exec (.vst e d h a t i) s = execVst e d h a t i s := rfl
theorem exec_vldb (e : Bool) (d : BitVec 6) (h : BitVec 4) (a : BitVec 6) (t : BitVec 3) (i : BitVec 4) : exec (.vldb e d h a t i) s = execVldb e d h a t i s := rfl
theorem exec_vgth (e : Bool) (d : BitVec 6) (h : BitVec 4) (a : BitVec 6) (t : BitVec 3) (i : BitVec 4) : exec (.vgth e d h a t i) s = execVgth e d h a t i s := rfl
theorem exec_vsct (e : Bool) (d : BitVec 6) (h : BitVec 4) (a : BitVec 6) (t : BitVec 3) (i : BitVec 4) : exec (.vsct e d h a t i) s = execVsct e d h a t i s := rfl
theorem exec_vlds (e : Bool) (d : BitVec 6) (h : BitVec 4) (a : BitVec 6) (t : BitVec 3) (i : BitVec 4) : exec (.vlds e d h a t i) s = execVlds e d h a t i s := rfl
theorem exec_vsts (e : Bool) (d : BitVec 6) (h : BitVec 4) (a : BitVec 6) (t : BitVec 3) (i : BitVec 4) : exec (.vsts e d h a t i) s = execVsts e d h a t i s := rfl
theorem exec_xlat (e : Bool) (d : BitVec 6) (a : BitVec 6) (b : BitVec 6) : exec (.xlat e d a b) s = execXlat e d a b s := rfl
theorem exec_hinv (e : Bool) (d : BitVec 6) : exec (.hinv e d) s = execHinv e d s := rfl
theorem exec_hchk (e : Bool) (d : BitVec 6) (a : BitVec 6) : exec (.hchk e d a) s = execHchk e d a s := rfl
theorem exec_amoadd (e : Bool) (d : BitVec 6) (h : BitVec 4) (a : BitVec 6) (b : BitVec 6) : exec (.amoadd e d h a b) s = execAmoadd e d h a b s := rfl
theorem exec_amoand (e : Bool) (d : BitVec 6) (h : BitVec 4) (a : BitVec 6) (b : BitVec 6) : exec (.amoand e d h a b) s = execAmoand e d h a b s := rfl
theorem exec_amoor (e : Bool) (d : BitVec 6) (h : BitVec 4) (a : BitVec 6) (b : BitVec 6) : exec (.amoor e d h a b) s = execAmoor e d h a b s := rfl
theorem exec_amoxor (e : Bool) (d : BitVec 6) (h : BitVec 4) (a : BitVec 6) (b : BitVec 6) : exec (.amoxor e d h a b) s = execAmoxor e d h a b s := rfl
theorem exec_amomin (e : Bool) (d : BitVec 6) (h : BitVec 4) (a : BitVec 6) (b : BitVec 6) : exec (.amomin e d h a b) s = execAmomin e d h a b s := rfl
theorem exec_amomax (e : Bool) (d : BitVec 6) (h : BitVec 4) (a : BitVec 6) (b : BitVec 6) : exec (.amomax e d h a b) s = execAmomax e d h a b s := rfl
theorem exec_amoswp (e : Bool) (d : BitVec 6) (h : BitVec 4) (a : BitVec 6) (b : BitVec 6) : exec (.amoswp e d h a b) s = execAmoswp e d h a b s := rfl
theorem exec_amocas (e : Bool) (d : BitVec 6) (h : BitVec 4) (a : BitVec 6) (b : BitVec 6) : exec (.amocas e d h a b) s = execAmocas e d h a b s := rfl
theorem exec_amofadd (e : Bool) (d : BitVec 6) (h : BitVec 4) (a : BitVec 6) (b : BitVec 6) : exec (.amofadd e d h a b) s = execAmofadd e d h a b s := rfl
theorem exec_fence (e : Bool) (k : BitVec 2) (w : BitVec 3) : exec (.fence e k w) s = execFence e k w s := rfl
theorem exec_br (e : Bool) (o : BitVec 17) : exec (.br e o) s = execBr e o s := rfl
theorem exec_bz (e : Bool) (c : BitVec 6) (o : BitVec 17) : exec (.bz e c o) s = execBz e c o s := rfl
theorem exec_bnz (e : Bool) (c : BitVec 6) (o : BitVec 17) : exec (.bnz e c o) s = execBnz e c o s := rfl
theorem exec_bqa (e : Bool) (c : BitVec 6) (o : BitVec 17) : exec (.bqa e c o) s = execBqa e c o s := rfl
theorem exec_bqn (e : Bool) (c : BitVec 6) (o : BitVec 17) : exec (.bqn e c o) s = execBqn e c o s := rfl
theorem exec_call (e : Bool) (o : BitVec 17) : exec (.call e o) s = execCall e o s := rfl
theorem exec_jr (e : Bool) (a : BitVec 6) : exec (.jr e a) s = execJr e a s := rfl
theorem exec_loop (e : Bool) : exec (.loop e) s = execLoop e s := rfl
theorem exec_wait (e : Bool) (a : BitVec 6) : exec (.wait e a) s = execWait e a s := rfl
theorem exec_spawn (e : Bool) (c : BitVec 6) (o : BitVec 17) : exec (.spawn e c o) s = execSpawn e c o s := rfl
theorem exec_bind (e : Bool) (d : BitVec 6) (a : BitVec 6) : exec (.bind e d a) s = execBind e d a s := rfl
theorem exec_unbind (e : Bool) (a : BitVec 6) : exec (.unbind e a) s = execUnbind e a s := rfl
theorem exec_cancel (e : Bool) (a : BitVec 6) (l : BitVec 11) : exec (.cancel e a l) s = execCancel e a l s := rfl
theorem exec_prio (e : Bool) (a : BitVec 6) : exec (.prio e a) s = execPrio e a s := rfl
theorem exec_trap (e : Bool) (n : BitVec 23) : exec (.trap e n) s = execTrap e n s := rfl
theorem exec_rtt (e : Bool) : exec (.rtt e) s = execRtt e s := rfl
theorem exec_halt (e : Bool) : exec (.halt e) s = execHalt e s := rfl
theorem exec_yield (e : Bool) : exec (.yield e) s = execYield e s := rfl
theorem exec_ebrk (e : Bool) (n : BitVec 23) : exec (.ebrk e n) s = execEbrk e n s := rfl
theorem exec_mfc (e : Bool) (d : BitVec 6) (n : BitVec 11) : exec (.mfc e d n) s = execMfc e d n s := rfl
theorem exec_mtc (e : Bool) (a : BitVec 6) (n : BitVec 11) : exec (.mtc e a n) s = execMtc e a n s := rfl
theorem exec_qpush (e : Bool) (a : BitVec 6) (b : BitVec 6) (h : BitVec 4) (t : BitVec 6) : exec (.qpush e a b h t) s = execQpush e a b h t s := rfl
theorem exec_qpop (e : Bool) (a : BitVec 6) (b : BitVec 6) (h : BitVec 4) (t : BitVec 6) : exec (.qpop e a b h t) s = execQpop e a b h t s := rfl
theorem exec_vaddI (e : Bool) (d : BitVec 6) (a : BitVec 6) (b : BitVec 6) (q : BitVec 3) (m : BitVec 2) : exec (.vaddI e d a b q m) s = execVaddI e d a b q m s := rfl
theorem exec_vsubI (e : Bool) (d : BitVec 6) (a : BitVec 6) (b : BitVec 6) (q : BitVec 3) (m : BitVec 2) : exec (.vsubI e d a b q m) s = execVsubI e d a b q m s := rfl
theorem exec_vmulI (e : Bool) (d : BitVec 6) (a : BitVec 6) (b : BitVec 6) (q : BitVec 3) (m : BitVec 2) : exec (.vmulI e d a b q m) s = execVmulI e d a b q m s := rfl
theorem exec_vminI (e : Bool) (d : BitVec 6) (a : BitVec 6) (b : BitVec 6) (q : BitVec 3) (m : BitVec 2) : exec (.vminI e d a b q m) s = execVminI e d a b q m s := rfl
theorem exec_vmaxI (e : Bool) (d : BitVec 6) (a : BitVec 6) (b : BitVec 6) (q : BitVec 3) (m : BitVec 2) : exec (.vmaxI e d a b q m) s = execVmaxI e d a b q m s := rfl
theorem exec_vand (e : Bool) (d : BitVec 6) (a : BitVec 6) (b : BitVec 6) (q : BitVec 3) (m : BitVec 2) : exec (.vand e d a b q m) s = execVand e d a b q m s := rfl
theorem exec_vor (e : Bool) (d : BitVec 6) (a : BitVec 6) (b : BitVec 6) (q : BitVec 3) (m : BitVec 2) : exec (.vor e d a b q m) s = execVor e d a b q m s := rfl
theorem exec_vxor (e : Bool) (d : BitVec 6) (a : BitVec 6) (b : BitVec 6) (q : BitVec 3) (m : BitVec 2) : exec (.vxor e d a b q m) s = execVxor e d a b q m s := rfl
theorem exec_vshl (e : Bool) (d : BitVec 6) (a : BitVec 6) (b : BitVec 6) (q : BitVec 3) (m : BitVec 2) : exec (.vshl e d a b q m) s = execVshl e d a b q m s := rfl
theorem exec_vshr (e : Bool) (d : BitVec 6) (a : BitVec 6) (b : BitVec 6) (q : BitVec 3) (m : BitVec 2) : exec (.vshr e d a b q m) s = execVshr e d a b q m s := rfl
theorem exec_vsra (e : Bool) (d : BitVec 6) (a : BitVec 6) (b : BitVec 6) (q : BitVec 3) (m : BitVec 2) : exec (.vsra e d a b q m) s = execVsra e d a b q m s := rfl
theorem exec_vceqI (e : Bool) (d : BitVec 6) (a : BitVec 6) (b : BitVec 6) (q : BitVec 3) (m : BitVec 2) : exec (.vceqI e d a b q m) s = execVceqI e d a b q m s := rfl
theorem exec_vcltI (e : Bool) (d : BitVec 6) (a : BitVec 6) (b : BitVec 6) (q : BitVec 3) (m : BitVec 2) : exec (.vcltI e d a b q m) s = execVcltI e d a b q m s := rfl
theorem exec_vcltuI (e : Bool) (d : BitVec 6) (a : BitVec 6) (b : BitVec 6) (q : BitVec 3) (m : BitVec 2) : exec (.vcltuI e d a b q m) s = execVcltuI e d a b q m s := rfl
theorem exec_vaddF (e : Bool) (d : BitVec 6) (a : BitVec 6) (b : BitVec 6) (q : BitVec 3) (m : BitVec 2) : exec (.vaddF e d a b q m) s = execVaddF e d a b q m s := rfl
theorem exec_vsubF (e : Bool) (d : BitVec 6) (a : BitVec 6) (b : BitVec 6) (q : BitVec 3) (m : BitVec 2) : exec (.vsubF e d a b q m) s = execVsubF e d a b q m s := rfl
theorem exec_vmulF (e : Bool) (d : BitVec 6) (a : BitVec 6) (b : BitVec 6) (q : BitVec 3) (m : BitVec 2) : exec (.vmulF e d a b q m) s = execVmulF e d a b q m s := rfl
theorem exec_vfmaF (e : Bool) (d : BitVec 6) (a : BitVec 6) (b : BitVec 6) (q : BitVec 3) (m : BitVec 2) : exec (.vfmaF e d a b q m) s = execVfmaF e d a b q m s := rfl
theorem exec_vfmsF (e : Bool) (d : BitVec 6) (a : BitVec 6) (b : BitVec 6) (q : BitVec 3) (m : BitVec 2) : exec (.vfmsF e d a b q m) s = execVfmsF e d a b q m s := rfl
theorem exec_vdivF (e : Bool) (d : BitVec 6) (a : BitVec 6) (b : BitVec 6) (q : BitVec 3) (m : BitVec 2) : exec (.vdivF e d a b q m) s = execVdivF e d a b q m s := rfl
theorem exec_vsqrtF (e : Bool) (d : BitVec 6) (a : BitVec 6) (q : BitVec 3) (m : BitVec 2) : exec (.vsqrtF e d a q m) s = execVsqrtF e d a q m s := rfl
theorem exec_vrcpF (e : Bool) (d : BitVec 6) (a : BitVec 6) (q : BitVec 3) (m : BitVec 2) : exec (.vrcpF e d a q m) s = execVrcpF e d a q m s := rfl
theorem exec_vrsqF (e : Bool) (d : BitVec 6) (a : BitVec 6) (q : BitVec 3) (m : BitVec 2) : exec (.vrsqF e d a q m) s = execVrsqF e d a q m s := rfl
theorem exec_vminF (e : Bool) (d : BitVec 6) (a : BitVec 6) (b : BitVec 6) (q : BitVec 3) (m : BitVec 2) : exec (.vminF e d a b q m) s = execVminF e d a b q m s := rfl
theorem exec_vmaxF (e : Bool) (d : BitVec 6) (a : BitVec 6) (b : BitVec 6) (q : BitVec 3) (m : BitVec 2) : exec (.vmaxF e d a b q m) s = execVmaxF e d a b q m s := rfl
theorem exec_vabsF (e : Bool) (d : BitVec 6) (a : BitVec 6) (q : BitVec 3) (m : BitVec 2) : exec (.vabsF e d a q m) s = execVabsF e d a q m s := rfl
theorem exec_vnegF (e : Bool) (d : BitVec 6) (a : BitVec 6) (q : BitVec 3) (m : BitVec 2) : exec (.vnegF e d a q m) s = execVnegF e d a q m s := rfl
theorem exec_vceqF (e : Bool) (d : BitVec 6) (a : BitVec 6) (b : BitVec 6) (q : BitVec 3) (m : BitVec 2) : exec (.vceqF e d a b q m) s = execVceqF e d a b q m s := rfl
theorem exec_vcltF (e : Bool) (d : BitVec 6) (a : BitVec 6) (b : BitVec 6) (q : BitVec 3) (m : BitVec 2) : exec (.vcltF e d a b q m) s = execVcltF e d a b q m s := rfl
theorem exec_vcleF (e : Bool) (d : BitVec 6) (a : BitVec 6) (b : BitVec 6) (q : BitVec 3) (m : BitVec 2) : exec (.vcleF e d a b q m) s = execVcleF e d a b q m s := rfl
theorem exec_vexp2F (e : Bool) (d : BitVec 6) (a : BitVec 6) (q : BitVec 3) (m : BitVec 2) : exec (.vexp2F e d a q m) s = execVexp2F e d a q m s := rfl
theorem exec_vlog2F (e : Bool) (d : BitVec 6) (a : BitVec 6) (q : BitVec 3) (m : BitVec 2) : exec (.vlog2F e d a q m) s = execVlog2F e d a q m s := rfl
theorem exec_vcvtFI (e : Bool) (d : BitVec 6) (a : BitVec 6) (q : BitVec 3) (m : BitVec 2) : exec (.vcvtFI e d a q m) s = execVcvtFI e d a q m s := rfl
theorem exec_vcvtIF (e : Bool) (d : BitVec 6) (a : BitVec 6) (q : BitVec 3) (m : BitVec 2) : exec (.vcvtIF e d a q m) s = execVcvtIF e d a q m s := rfl
theorem exec_vpkE4m3 (e : Bool) (d : BitVec 6) (a : BitVec 6) (p : BitVec 2) (q : BitVec 3) (m : BitVec 2) : exec (.vpkE4m3 e d a p q m) s = execVpkE4m3 e d a p q m s := rfl
theorem exec_vupE4m3 (e : Bool) (d : BitVec 6) (a : BitVec 6) (p : BitVec 2) (q : BitVec 3) (m : BitVec 2) : exec (.vupE4m3 e d a p q m) s = execVupE4m3 e d a p q m s := rfl
theorem exec_vpkI8 (e : Bool) (d : BitVec 6) (a : BitVec 6) (p : BitVec 2) (q : BitVec 3) (m : BitVec 2) : exec (.vpkI8 e d a p q m) s = execVpkI8 e d a p q m s := rfl
theorem exec_vupI8 (e : Bool) (d : BitVec 6) (a : BitVec 6) (p : BitVec 2) (q : BitVec 3) (m : BitVec 2) : exec (.vupI8 e d a p q m) s = execVupI8 e d a p q m s := rfl
theorem exec_vpkBf16 (e : Bool) (d : BitVec 6) (a : BitVec 6) (p : BitVec 1) (q : BitVec 3) (m : BitVec 2) : exec (.vpkBf16 e d a p q m) s = execVpkBf16 e d a p q m s := rfl
theorem exec_vupBf16 (e : Bool) (d : BitVec 6) (a : BitVec 6) (p : BitVec 1) (q : BitVec 3) (m : BitVec 2) : exec (.vupBf16 e d a p q m) s = execVupBf16 e d a p q m s := rfl
theorem exec_vredaddF (e : Bool) (d : BitVec 6) (a : BitVec 6) (q : BitVec 3) (m : BitVec 2) : exec (.vredaddF e d a q m) s = execVredaddF e d a q m s := rfl
theorem exec_vredmaxF (e : Bool) (d : BitVec 6) (a : BitVec 6) (q : BitVec 3) (m : BitVec 2) : exec (.vredmaxF e d a q m) s = execVredmaxF e d a q m s := rfl
theorem exec_vredaddI (e : Bool) (d : BitVec 6) (a : BitVec 6) (q : BitVec 3) (m : BitVec 2) : exec (.vredaddI e d a q m) s = execVredaddI e d a q m s := rfl
theorem exec_vredmaxI (e : Bool) (d : BitVec 6) (a : BitVec 6) (q : BitVec 3) (m : BitVec 2) : exec (.vredmaxI e d a q m) s = execVredmaxI e d a q m s := rfl
theorem exec_vperm (e : Bool) (d : BitVec 6) (a : BitVec 6) (b : BitVec 6) (q : BitVec 3) (m : BitVec 2) : exec (.vperm e d a b q m) s = execVperm e d a b q m s := rfl
theorem exec_vbcast (e : Bool) (d : BitVec 6) (a : BitVec 6) (l : BitVec 6) (q : BitVec 3) (m : BitVec 2) : exec (.vbcast e d a l q m) s = execVbcast e d a l q m s := rfl
theorem exec_vslide (e : Bool) (d : BitVec 6) (a : BitVec 6) (n : BitVec 6) (q : BitVec 3) (m : BitVec 2) : exec (.vslide e d a n q m) s = execVslide e d a n q m s := rfl
theorem exec_vsel (e : Bool) (d : BitVec 6) (a : BitVec 6) (b : BitVec 6) (q : BitVec 3) : exec (.vsel e d a b q) s = execVsel e d a b q s := rfl
theorem exec_vmov (e : Bool) (d : BitVec 6) (a : BitVec 6) (q : BitVec 3) (m : BitVec 2) : exec (.vmov e d a q m) s = execVmov e d a q m s := rfl
theorem exec_vxm (e : Bool) (d : BitVec 6) (a : BitVec 6) (q : BitVec 3) (m : BitVec 2) : exec (.vxm e d a q m) s = execVxm e d a q m s := rfl
theorem exec_vins (e : Bool) (d : BitVec 6) (a : BitVec 6) (b : BitVec 6) (q : BitVec 3) (m : BitVec 2) : exec (.vins e d a b q m) s = execVins e d a b q m s := rfl
theorem exec_vext (e : Bool) (d : BitVec 6) (a : BitVec 6) (b : BitVec 6) : exec (.vext e d a b) s = execVext e d a b s := rfl
theorem exec_vtag (e : Bool) (d : BitVec 6) (g : BitVec 3) (q : BitVec 3) (m : BitVec 2) : exec (.vtag e d g q m) s = execVtag e d g q m s := rfl
theorem exec_vgtag (e : Bool) (d : BitVec 6) (a : BitVec 6) : exec (.vgtag e d a) s = execVgtag e d a s := rfl
theorem exec_viota (e : Bool) (d : BitVec 6) (q : BitVec 3) (m : BitVec 2) : exec (.viota e d q m) s = execViota e d q m s := rfl
theorem exec_vsplat (e : Bool) (d : BitVec 6) (a : BitVec 6) (q : BitVec 3) (m : BitVec 2) : exec (.vsplat e d a q m) s = execVsplat e d a q m s := rfl
theorem exec_vbscl (e : Bool) (d : BitVec 6) (a : BitVec 6) (b : BitVec 6) (q : BitVec 3) (m : BitVec 2) : exec (.vbscl e d a b q m) s = execVbscl e d a b q m s := rfl
theorem exec_mset (e : Bool) (a : BitVec 6) (f : BitVec 5) (n : BitVec 5) : exec (.mset e a f n) s = execMset e a f n s := rfl
theorem exec_mget (e : Bool) (d : BitVec 6) (f : BitVec 5) (n : BitVec 5) : exec (.mget e d f n) s = execMget e d f n s := rfl
theorem exec_wld (e : Bool) (a : BitVec 6) (b : BitVec 6) (w : BitVec 5) (t : BitVec 6) : exec (.wld e a b w t) s = execWld e a b w t s := rfl
theorem exec_mswap (e : Bool) (t : BitVec 6) : exec (.mswap e t) s = execMswap e t s := rfl
theorem exec_mmul (e : Bool) (a : BitVec 6) (b : BitVec 6) (w : BitVec 5) (t : BitVec 6) : exec (.mmul e a b w t) s = execMmul e a b w t s := rfl
theorem exec_macc (e : Bool) (a : BitVec 6) (w : BitVec 5) (t : BitVec 6) : exec (.macc e a w t) s = execMacc e a w t s := rfl
theorem exec_mdrain (e : Bool) (a : BitVec 6) (w : BitVec 5) (t : BitVec 6) : exec (.mdrain e a w t) s = execMdrain e a w t s := rfl
theorem exec_mchain (e : Bool) (a : BitVec 6) (b : BitVec 6) (w : BitVec 5) (t : BitVec 6) : exec (.mchain e a b w t) s = execMchain e a b w t s := rfl
theorem exec_mchk (e : Bool) (a : BitVec 6) (w : BitVec 5) (t : BitVec 6) : exec (.mchk e a w t) s = execMchk e a w t s := rfl
theorem exec_mstat (e : Bool) (a : BitVec 6) (b : BitVec 6) (w : BitVec 5) (t : BitVec 6) : exec (.mstat e a b w t) s = execMstat e a b w t s := rfl
theorem exec_mfence (e : Bool) : exec (.mfence e) s = execMfence e s := rfl
theorem exec_cset (e : Bool) (a : BitVec 6) (f : BitVec 5) (n : BitVec 5) : exec (.cset e a f n) s = execCset e a f n s := rfl
theorem exec_cget (e : Bool) (d : BitVec 6) (f : BitVec 5) (n : BitVec 5) : exec (.cget e d f n) s = execCget e d f n s := rfl
theorem exec_cpy (e : Bool) (a : BitVec 6) (b : BitVec 6) (w : BitVec 5) (t : BitVec 6) : exec (.cpy e a b w t) s = execCpy e a b w t s := rfl
theorem exec_cpyb (e : Bool) (a : BitVec 6) (b : BitVec 6) (w : BitVec 5) (t : BitVec 6) : exec (.cpyb e a b w t) s = execCpyb e a b w t s := rfl
theorem exec_rst (e : Bool) (a : BitVec 6) (b : BitVec 6) (r : BitVec 1) (h : BitVec 4) (t : BitVec 6) : exec (.rst e a b r h t) s = execRst e a b r h t s := rfl
theorem exec_rstc (e : Bool) (a : BitVec 6) (b : BitVec 6) (r : BitVec 1) (h : BitVec 4) (t : BitVec 6) : exec (.rstc e a b r h t) s = execRstc e a b r h t s := rfl
theorem exec_rld (e : Bool) (a : BitVec 6) (r : BitVec 1) (h : BitVec 4) (t : BitVec 6) : exec (.rld e a r h t) s = execRld e a r h t s := rfl
theorem exec_rldBlock (e : Bool) (a : BitVec 6) (b : BitVec 6) (r : BitVec 1) (h : BitVec 4) (t : BitVec 6) : exec (.rldBlock e a b r h t) s = execRldBlock e a b r h t s := rfl
theorem exec_rfadd (e : Bool) (a : BitVec 6) (b : BitVec 6) (r : BitVec 1) (h : BitVec 4) (t : BitVec 6) : exec (.rfadd e a b r h t) s = execRfadd e a b r h t s := rfl
theorem exec_radd (e : Bool) (a : BitVec 6) (b : BitVec 6) (r : BitVec 1) (h : BitVec 4) (t : BitVec 6) : exec (.radd e a b r h t) s = execRadd e a b r h t s := rfl
theorem exec_rmax (e : Bool) (a : BitVec 6) (b : BitVec 6) (r : BitVec 1) (h : BitVec 4) (t : BitVec 6) : exec (.rmax e a b r h t) s = execRmax e a b r h t s := rfl
theorem exec_rswp (e : Bool) (a : BitVec 6) (b : BitVec 6) (r : BitVec 1) (h : BitVec 4) (t : BitVec 6) : exec (.rswp e a b r h t) s = execRswp e a b r h t s := rfl
theorem exec_tchk (e : Bool) (a : BitVec 6) (t : BitVec 6) : exec (.tchk e a t) s = execTchk e a t s := rfl
theorem exec_twt (e : Bool) (a : BitVec 6) : exec (.twt e a) s = execTwt e a s := rfl
theorem exec_tjoin (e : Bool) (a : BitVec 6) (b : BitVec 6) (t : BitVec 6) : exec (.tjoin e a b t) s = execTjoin e a b t s := rfl
theorem exec_spush (e : Bool) (a : BitVec 6) (b : BitVec 6) (w : BitVec 5) (t : BitVec 6) : exec (.spush e a b w t) s = execSpush e a b w t s := rfl
theorem exec_spop (e : Bool) (w : BitVec 5) (t : BitVec 6) : exec (.spop e w t) s = execSpop e w t s := rfl
theorem exec_srel (e : Bool) (a : BitVec 6) (w : BitVec 5) : exec (.srel e a w) s = execSrel e a w s := rfl
theorem exec_sget (e : Bool) (a : BitVec 6) (o : BitVec 1) (c : BitVec 4) (t : BitVec 6) : exec (.sget e a o c t) s = execSget e a o c t s := rfl
theorem exec_sset (e : Bool) (a : BitVec 6) (o : BitVec 1) (c : BitVec 4) (t : BitVec 6) : exec (.sset e a o c t) s = execSset e a o c t s := rfl
theorem exec_mcast (e : Bool) (a : BitVec 6) (b : BitVec 6) (w : BitVec 5) (t : BitVec 6) : exec (.mcast e a b w t) s = execMcast e a b w t s := rfl
theorem exec_rctl (e : Bool) (a : BitVec 6) (b : BitVec 6) (w : BitVec 5) : exec (.rctl e a b w) s = execRctl e a b w s := rfl
theorem exec_tbinit (e : Bool) (a : BitVec 6) (b : BitVec 6) (w : BitVec 5) (t : BitVec 6) : exec (.tbinit e a b w t) s = execTbinit e a b w t s := rfl
theorem exec_tbarr (e : Bool) (a : BitVec 6) (w : BitVec 5) (t : BitVec 6) : exec (.tbarr e a w t) s = execTbarr e a w t s := rfl
theorem exec_tbwait (e : Bool) (a : BitVec 6) (b : BitVec 6) (w : BitVec 5) (t : BitVec 6) : exec (.tbwait e a b w t) s = execTbwait e a b w t s := rfl
theorem exec_reservedEncoding (w : Word) : exec (.reservedEncoding w) s = execReservedEncoding w s := rfl
theorem exec_resultLanding : exec .resultLanding s = execResultLanding s := rfl
theorem exec_faultEntryAppend : exec .faultEntryAppend s = execFaultEntryAppend s := rfl
theorem exec_contextRestore : exec .contextRestore s = execContextRestore s := rfl
theorem exec_recordStart : exec .recordStart s = execRecordStart s := rfl
theorem exec_recordEnd : exec .recordEnd s = execRecordEnd s := rfl
theorem exec_prioAging : exec .prioAging s = execPrioAging s := rfl
theorem exec_rbind : exec .rbind s = execRbind s := rfl
theorem exec_wldExpansionStart : exec .wldExpansionStart s = execWldExpansionStart s := rfl
theorem exec_wldComplete : exec .wldComplete s = execWldComplete s := rfl
theorem exec_mswapFlip : exec .mswapFlip s = execMswapFlip s := rfl
theorem exec_arrayRowAccumulate : exec .arrayRowAccumulate s = execArrayRowAccumulate s := rfl
theorem exec_drainRow : exec .drainRow s = execDrainRow s := rfl
theorem exec_chainParametersRead : exec .chainParametersRead s = execChainParametersRead s := rfl
theorem exec_copySectorPerform : exec .copySectorPerform s = execCopySectorPerform s := rfl
theorem exec_remoteStorePerform : exec .remoteStorePerform s = execRemoteStorePerform s := rfl
theorem exec_remoteReadPerform : exec .remoteReadPerform s = execRemoteReadPerform s := rfl
theorem exec_remoteAtomicPerform : exec .remoteAtomicPerform s = execRemoteAtomicPerform s := rfl
theorem exec_responseArrival : exec .responseArrival s = execResponseArrival s := rfl
theorem exec_errorResponse : exec .errorResponse s = execErrorResponse s := rfl
theorem exec_landedAck : exec .landedAck s = execLandedAck s := rfl
theorem exec_carriedRequestArrival : exec .carriedRequestArrival s = execCarriedRequestArrival s := rfl
theorem exec_held : exec .held s = execHeld s := rfl
theorem exec_nack : exec .nack s = execNack s := rfl
theorem exec_nackBackoffExpiry : exec .nackBackoffExpiry s = execNackBackoffExpiry s := rfl
theorem exec_watch : exec .watch s = execWatch s := rfl
theorem exec_release : exec .release s = execRelease s := rfl
theorem exec_busy : exec .busy s = execBusy s := rfl
theorem exec_watchRetryExpiry : exec .watchRetryExpiry s = execWatchRetryExpiry s := rfl
theorem exec_watchTimeout : exec .watchTimeout s = execWatchTimeout s := rfl
theorem exec_holdEntryPerform : exec .holdEntryPerform s = execHoldEntryPerform s := rfl
theorem exec_holdEntryExpiry : exec .holdEntryExpiry s = execHoldEntryExpiry s := rfl
theorem exec_query : exec .query s = execQuery s := rfl
theorem exec_queryAnswer : exec .queryAnswer s = execQueryAnswer s := rfl
theorem exec_queryTimeout : exec .queryTimeout s = execQueryTimeout s := rfl
theorem exec_packetArrival : exec .packetArrival s = execPacketArrival s := rfl
theorem exec_creditArrival : exec .creditArrival s = execCreditArrival s := rfl
theorem exec_closeNotice : exec .closeNotice s = execCloseNotice s := rfl
theorem exec_deadNotice : exec .deadNotice s = execDeadNotice s := rfl
theorem exec_weightArrival : exec .weightArrival s = execWeightArrival s := rfl
theorem exec_controllerPeriodEnd : exec .controllerPeriodEnd s = execControllerPeriodEnd s := rfl
theorem exec_pushComplete : exec .pushComplete s = execPushComplete s := rfl
theorem exec_spopDelivery : exec .spopDelivery s = execSpopDelivery s := rfl
theorem exec_srelRelease : exec .srelRelease s = execSrelRelease s := rfl
theorem exec_ingressDoorbell : exec .ingressDoorbell s = execIngressDoorbell s := rfl
theorem exec_ingressStageForward : exec .ingressStageForward s = execIngressStageForward s := rfl
theorem exec_ingressEnable : exec .ingressEnable s = execIngressEnable s := rfl
theorem exec_ingressDisable : exec .ingressDisable s = execIngressDisable s := rfl
theorem exec_egressEnable : exec .egressEnable s = execEgressEnable s := rfl
theorem exec_egressDisable : exec .egressDisable s = execEgressDisable s := rfl
theorem exec_egressRelease : exec .egressRelease s = execEgressRelease s := rfl
theorem exec_egressPacketWrite : exec .egressPacketWrite s = execEgressPacketWrite s := rfl
theorem exec_openNotice : exec .openNotice s = execOpenNotice s := rfl
theorem exec_queueNotify : exec .queueNotify s = execQueueNotify s := rfl
theorem exec_queueHeadWrite : exec .queueHeadWrite s = execQueueHeadWrite s := rfl
theorem exec_queueCommandPerform : exec .queueCommandPerform s = execQueueCommandPerform s := rfl
theorem exec_queueAnswer : exec .queueAnswer s = execQueueAnswer s := rfl
theorem exec_linkPacketReceive : exec .linkPacketReceive s = execLinkPacketReceive s := rfl
theorem exec_linkAck : exec .linkAck s = execLinkAck s := rfl
theorem exec_linkNak : exec .linkNak s = execLinkNak s := rfl
theorem exec_ackTimer : exec .ackTimer s = execAckTimer s := rfl
theorem exec_trainingDone : exec .trainingDone s = execTrainingDone s := rfl
theorem exec_trainingFail : exec .trainingFail s = execTrainingFail s := rfl
theorem exec_laneFailure : exec .laneFailure s = execLaneFailure s := rfl
theorem exec_retrainDone : exec .retrainDone s = execRetrainDone s := rfl
theorem exec_retrainTimeout : exec .retrainTimeout s = execRetrainTimeout s := rfl
theorem exec_linkSilenceTimeout : exec .linkSilenceTimeout s = execLinkSilenceTimeout s := rfl
theorem exec_isolateFlit : exec .isolateFlit s = execIsolateFlit s := rfl
theorem exec_linkIsolate : exec .linkIsolate s = execLinkIsolate s := rfl
theorem exec_linkRetrain : exec .linkRetrain s = execLinkRetrain s := rfl
theorem exec_timeFlit : exec .timeFlit s = execTimeFlit s := rfl
theorem exec_timeFlitTimer : exec .timeFlitTimer s = execTimeFlitTimer s := rfl
theorem exec_platMaxClear : exec .platMaxClear s = execPlatMaxClear s := rfl
theorem exec_routingWrite : exec .routingWrite s = execRoutingWrite s := rfl
theorem exec_errorInject : exec .errorInject s = execErrorInject s := rfl
theorem exec_errorLogClear : exec .errorLogClear s = execErrorLogClear s := rfl
theorem exec_tbwaitTimeout : exec .tbwaitTimeout s = execTbwaitTimeout s := rfl
theorem exec_counterClear : exec .counterClear s = execCounterClear s := rfl
theorem exec_bindNotice : exec .bindNotice s = execBindNotice s := rfl
theorem exec_endNotice : exec .endNotice s = execEndNotice s := rfl
theorem exec_unitReport : exec .unitReport s = execUnitReport s := rfl
theorem exec_fireNotice : exec .fireNotice s = execFireNotice s := rfl
theorem exec_cancelNotice : exec .cancelNotice s = execCancelNotice s := rfl
theorem exec_unitWaitAnswer : exec .unitWaitAnswer s = execUnitWaitAnswer s := rfl
theorem exec_cycRead : exec .cycRead s = execCycRead s := rfl
theorem exec_placementImage : exec .placementImage s = execPlacementImage s := rfl
theorem exec_configAck : exec .configAck s = execConfigAck s := rfl
theorem exec_configFailure : exec .configFailure s = execConfigFailure s := rfl
theorem exec_startNotice : exec .startNotice s = execStartNotice s := rfl
theorem exec_moduleReset : exec .moduleReset s = execModuleReset s := rfl
theorem exec_selfTestDone : exec .selfTestDone s = execSelfTestDone s := rfl
theorem exec_bootGo : exec .bootGo s = execBootGo s := rfl
theorem exec_bootImageArrival : exec .bootImageArrival s = execBootImageArrival s := rfl
theorem exec_bootVerifyDone : exec .bootVerifyDone s = execBootVerifyDone s := rfl
theorem exec_functionReady : exec .functionReady s = execFunctionReady s := rfl
theorem exec_checkpointSave : exec .checkpointSave s = execCheckpointSave s := rfl
theorem exec_checkpointRestore : exec .checkpointRestore s = execCheckpointRestore s := rfl
theorem exec_checkpointDone : exec .checkpointDone s = execCheckpointDone s := rfl
theorem exec_attestation : exec .attestation s = execAttestation s := rfl
theorem exec_attestationDone : exec .attestationDone s = execAttestationDone s := rfl
theorem exec_repairRow : exec .repairRow s = execRepairRow s := rfl
theorem exec_repairColumn : exec .repairColumn s = execRepairColumn s := rfl
theorem exec_repairDone : exec .repairDone s = execRepairDone s := rfl
theorem exec_powerCapCheck : exec .powerCapCheck s = execPowerCapCheck s := rfl
theorem exec_thermalThrottle : exec .thermalThrottle s = execThermalThrottle s := rfl
theorem exec_thermalShutdown : exec .thermalShutdown s = execThermalShutdown s := rfl
theorem exec_powerLoss : exec .powerLoss s = execPowerLoss s := rfl
theorem exec_stageMigration : exec .stageMigration s = execStageMigration s := rfl
theorem exec_raRequestService : exec .raRequestService s = execRaRequestService s := rfl
theorem exec_migrationNoticeService : exec .migrationNoticeService s = execMigrationNoticeService s := rfl
theorem exec_registerWrite : exec .registerWrite s = execRegisterWrite s := rfl
theorem exec_pacingBucketRefill : exec .pacingBucketRefill s = execPacingBucketRefill s := rfl
theorem exec_unitClose : exec .unitClose s = execUnitClose s := rfl
theorem exec_contextSaveComplete : exec .contextSaveComplete s = execContextSaveComplete s := rfl

end Sys2Proof.Machine
end

