-- ==== Sys2Proof/Laws/Memory.lean ====
section
/-! SUPPORT. A memory keeps its canonical form when bytes are written, and reads back what was written last. -/

namespace Sys2Proof.Machine

/-- The canonical form without recursion over two cells at once. -/
theorem memWf_cons (a : Nat) (b : Byte) (r : List Host.Cell) :
    memWf ((a, b) :: r) = true ↔ b ≠ 0 ∧ (∀ p ∈ r, a < p.1) ∧ memWf r = true := by
  induction r generalizing a b with
  | nil => simp [memWf]
  | cons q r ih =>
    obtain ⟨c, x⟩ := q
    rw [memWf, Bool.and_eq_true, Bool.and_eq_true, ih]
    simp only [bne_iff_ne, ne_eq, decide_eq_true_eq, List.mem_cons, forall_eq_or_imp]
    constructor
    · rintro ⟨⟨h1, h2⟩, h3, h4, h5⟩
      exact ⟨h1, ⟨h2, fun p hp => Nat.lt_trans h2 (h4 p hp)⟩, h3, h4, h5⟩
    · rintro ⟨h1, ⟨h2, -⟩, h3, h4, h5⟩
      exact ⟨⟨h1, h2⟩, h3, h4, h5⟩

theorem memWf_filter (f : Host.Cell → Bool) {l : List Host.Cell} (h : memWf l = true) : memWf (l.filter f) = true := by
  induction l with
  | nil => rfl
  | cons p r ih =>
    obtain ⟨a, b⟩ := p
    obtain ⟨h1, h2, h3⟩ := (memWf_cons a b r).1 h
    rw [List.filter_cons]
    split
    · exact (memWf_cons _ _ _).2 ⟨h1, fun p hp => h2 p (List.mem_of_mem_filter hp), ih h3⟩
    · exact ih h3

theorem memWf_append {l r : List Host.Cell} (hl : memWf l = true) (hr : memWf r = true)
    (h : ∀ p ∈ l, ∀ q ∈ r, p.1 < q.1) : memWf (l ++ r) = true := by
  induction l with
  | nil => exact hr
  | cons p l ih =>
    obtain ⟨a, b⟩ := p
    obtain ⟨h1, h2, h3⟩ := (memWf_cons a b l).1 hl
    refine (memWf_cons _ _ _).2 ⟨h1, fun q hq => ?_, ih h3 fun p hp => h p (List.mem_cons_of_mem _ hp)⟩
    rcases List.mem_append.1 hq with hq | hq
    · exact h2 q hq
    · exact h (a, b) (List.mem_cons_self) q hq

theorem memRun_bounds (a : Nat) (bytes : List Byte) : ∀ p ∈ memRun a bytes, a ≤ p.1 ∧ p.1 < a + bytes.length := by
  induction bytes generalizing a with
  | nil => simp [memRun]
  | cons b r ih =>
    intro p hp
    rw [memRun] at hp
    split at hp
    · have := ih (a + 1) p hp
      simp only [List.length_cons]; omega
    · rcases List.mem_cons.1 hp with rfl | hp
      · simp
      · have := ih (a + 1) p hp
        simp only [List.length_cons]; omega

theorem memWf_memRun (a : Nat) (bytes : List Byte) : memWf (memRun a bytes) = true := by
  induction bytes generalizing a with
  | nil => rfl
  | cons b r ih =>
    rw [memRun]
    split
    · exact ih (a + 1)
    · next h => exact (memWf_cons _ _ _).2 ⟨h, fun p hp => by have := memRun_bounds _ _ p hp; omega, ih (a + 1)⟩

/-- Every write keeps the canonical form. -/
theorem memWf_memWrite {mem : List Host.Cell} (h : memWf mem = true) (a : Nat) (bytes : List Byte) :
    memWf (memWrite mem a bytes) = true := by
  refine memWf_append (memWf_append (memWf_filter _ h) (memWf_memRun _ _) ?_) (memWf_filter _ h) ?_
  · intro p hp q hq
    have hp := (List.mem_filter.1 hp).2
    have hq := memRun_bounds _ _ q hq
    simp only [decide_eq_true_eq] at hp; omega
  · intro p hp q hq
    have hq := (List.mem_filter.1 hq).2
    simp only [decide_eq_true_eq] at hq
    rcases List.mem_append.1 hp with hp | hp
    · have hp := (List.mem_filter.1 hp).2
      simp only [decide_eq_true_eq] at hp; omega
    · have hp := memRun_bounds _ _ p hp
      omega

theorem memByte_append (l r : List Host.Cell) (a : Nat) :
    memByte (l ++ r) a = if l.any (fun p => p.1 == a) then memByte l a else memByte r a := by
  induction l with
  | nil => simp
  | cons p l ih =>
    obtain ⟨j, x⟩ := p
    by_cases h : j = a <;> simp [memByte, h, ih]

theorem memByte_filter (f : Nat → Bool) (l : List Host.Cell) (a : Nat) :
    memByte (l.filter fun p => f p.1) a = if f a then memByte l a else 0 := by
  induction l with
  | nil => simp [memByte]
  | cons p l ih =>
    obtain ⟨j, x⟩ := p
    by_cases h : j = a
    · subst h
      by_cases g : f j <;> simp_all [memByte]
    · by_cases g : f j <;> simp [memByte, g, h, ih]

theorem memByte_of_not_any (l : List Host.Cell) (a : Nat) (h : (l.any fun p => p.1 == a) = false) : memByte l a = 0 := by
  induction l with
  | nil => rfl
  | cons p l ih =>
    obtain ⟨j, x⟩ := p
    simp only [List.any_cons, Bool.or_eq_false_iff, beq_eq_false_iff_ne] at h
    simp [memByte, h.1, ih h.2]

theorem memByte_memRun (a : Nat) (bytes : List Byte) (x : Nat) :
    memByte (memRun a bytes) x = if a ≤ x then bytes.getD (x - a) 0 else 0 := by
  induction bytes generalizing a with
  | nil => simp [memRun, memByte]
  | cons b r ih =>
    rw [memRun]
    rcases Nat.lt_trichotomy x a with h | h | h
    · have h1 : ¬ a ≤ x := by omega
      have h2 : ¬ a + 1 ≤ x := by omega
      have h3 : a ≠ x := by omega
      split <;> simp [memByte, ih, h2, h3]
    · subst h
      split <;> simp_all [memByte]
    · have h1 : a ≤ x := by omega
      have h2 : a + 1 ≤ x := by omega
      have h3 : a ≠ x := by omega
      obtain ⟨d, rfl⟩ := Nat.exists_eq_add_of_lt h
      have e1 : a + d + 1 - a = d + 1 := by omega
      have e2 : a + d + 1 - (a + 1) = d := by omega
      split <;> simp [memByte, ih, h2, h3, e1, e2]

/-- A byte reads as it was written last. -/
theorem memByte_memWrite (mem : List Host.Cell) (a : Nat) (bytes : List Byte) (x : Nat) :
    memByte (memWrite mem a bytes) x =
      if a ≤ x ∧ x < a + bytes.length then bytes.getD (x - a) 0 else memByte mem x := by
  rw [memWrite, memByte_append, memByte_append]
  have lo := memByte_filter (fun j => decide (j < a)) mem x
  have hi := memByte_filter (fun j => decide (a + bytes.length ≤ j)) mem x
  have run := memByte_memRun a bytes x
  have mLo : ((mem.filter fun p => decide (p.1 < a)).any fun p => p.1 == x) = true → x < a := by
    intro h
    obtain ⟨p, hp, e⟩ := List.any_eq_true.1 h
    have := (List.mem_filter.1 hp).2
    simp only [decide_eq_true_eq, beq_iff_eq] at this e; omega
  have mRun : ((memRun a bytes).any fun p => p.1 == x) = true → a ≤ x ∧ x < a + bytes.length := by
    intro h
    obtain ⟨p, hp, e⟩ := List.any_eq_true.1 h
    have := memRun_bounds _ _ p hp
    simp only [beq_iff_eq] at e; omega
  rcases Nat.lt_trichotomy x a with h | h | h
  · have nr : ((memRun a bytes).any fun p => p.1 == x) = false := by
      by_contra hh; have := mRun (by simpa using hh); omega
    have e : ¬ (a ≤ x ∧ x < a + bytes.length) := by omega
    rw [List.any_append, nr, Bool.or_false, if_neg e]
    by_cases g : ((mem.filter fun p => decide (p.1 < a)).any fun p => p.1 == x) = true
    · rw [if_pos g, if_pos g, lo]; simp [h]
    · have g' : ((mem.filter fun p => decide (p.1 < a)).any fun p => p.1 == x) = false := Bool.eq_false_iff.2 g
      rw [if_neg g, hi]
      have : memByte (mem.filter fun p => decide (p.1 < a)) x = 0 := memByte_of_not_any _ _ g'
      rw [lo] at this
      simp only [h, decide_true, if_true] at this
      rw [this]
      simp
  all_goals
    have nl : ((mem.filter fun p => decide (p.1 < a)).any fun p => p.1 == x) = false := by
      by_contra hh; have := mLo (by simpa using hh); omega
    rw [List.any_append, nl, Bool.false_or]
    simp only [Bool.false_eq_true, if_false]
    by_cases g : x < a + bytes.length
    · have e : a ≤ x ∧ x < a + bytes.length := by omega
      rw [if_pos e]
      have hz : memByte (mem.filter fun p => decide (a + bytes.length ≤ p.1)) x = 0 := by rw [hi]; simp; omega
      have ha : a ≤ x := e.1
      by_cases q : ((memRun a bytes).any fun p => p.1 == x) = true
      · rw [if_pos q, run]; simp [ha]
      · have q' : ((memRun a bytes).any fun p => p.1 == x) = false := Bool.eq_false_iff.2 q
        rw [if_neg q, hz]
        have := memByte_of_not_any _ _ q'
        rw [run] at this
        simp only [ha, if_true] at this
        exact this.symm
    · have e : ¬ (a ≤ x ∧ x < a + bytes.length) := by omega
      rw [if_neg e]
      have q : ((memRun a bytes).any fun p => p.1 == x) = false := by
        by_contra hh; have := mRun (by simpa using hh); omega
      rw [q]
      simp only [Bool.false_eq_true, if_false]
      rw [hi]
      have : a + bytes.length ≤ x := by omega
      simp [this]

/-- A byte of a segment that holds it. -/
theorem memByte_segment (mem : List Host.Cell) (a n i : Nat) (h : i < n) :
    memByte (mem.filter fun p => a ≤ p.1 && p.1 < a + n) (a + i) = memByte mem (a + i) := by
  induction mem with
  | nil => rfl
  | cons p r ih =>
    obtain ⟨j, x⟩ := p
    by_cases e : j = a + i
    · subst e; simp [memByte, h]
    · simp only [List.filter_cons, memByte, if_neg e, ← ih]
      split
      · simp [memByte, e]
      · rfl

/-- A run of bytes, byte by byte. -/
theorem memBytes_eq (mem : List Host.Cell) (a n : Nat) :
    memBytes mem a n = (List.range n).map fun i => memByte mem (a + i) := by
  simp only [memBytes]
  apply List.map_congr_left
  intro i hi
  exact memByte_segment mem a n i (by simpa using hi)

end Sys2Proof.Machine
end

