-- ==== Sys2Proof/Laws/Operands.lean ====
section
/-! SUPPORT. What a syllable of a ready strand sees: its operands, its declarations, and its checks. -/

namespace Sys2Proof.Machine

variable {s : State} {m u k : Nat} {i : Instr}

@[simp] theorem sees_s : (s.sees m u k i).s = s := rfl
@[simp] theorem sees_i : (s.sees m u k i).i = i := rfl
@[simp] theorem sees_b : (s.sees m u k i).b = s.nextBundle m u k := rfl
@[simp] theorem sees_cell : (s.sees m u k i).cell = s.cell m u := rfl
@[simp] theorem sees_st : (s.sees m u k i).st = s.strand m u k := rfl
@[simp] theorem sees_rcd : (s.sees m u k i).rcd = (s.cell m u).record (s.strand m u k).entry := rfl
@[simp] theorem sees_rs (r : BitVec 6) : (s.sees m u k i).rs r = s.rs m u k r := rfl
@[simp] theorem sees_rq (n : Nat) : (s.sees m u k i).rq n = s.rq m u k n := rfl
@[simp] theorem sees_rv (r : BitVec 6) : (s.sees m u k i).rv r = s.rv m u k r := rfl
@[simp] theorem sees_rh (n : Nat) : (s.sees m u k i).rh n = s.rh m u k n := rfl
@[simp] theorem sees_ps (r : BitVec 6) : (s.sees m u k i).ps r = s.ps m u k r := rfl
@[simp] theorem sees_spire : (s.sees m u k i).spire = (s.cell m u).spire := rfl
@[simp] theorem nextBundle_m : (s.nextBundle m u k).m = m := rfl
@[simp] theorem nextBundle_u : (s.nextBundle m u k).u = u := rfl
@[simp] theorem nextBundle_k : (s.nextBundle m u k).k = k := rfl
@[simp] theorem nextBundle_pc : (s.nextBundle m u k).pc = (s.strand m u k).pc := rfl

theorem sees_landing (r : Reg) (x : Val) (lat : Nat) : (s.sees m u k i).landing r x lat = s.result m u k r x lat := rfl

/-- A well-formed syllable that a Spire core may execute passes the field checks. -/
theorem illegal_nil (h : i.wellFormed = true) : (s.sees m u k i).illegal true = [] := by
  simp [View.illegal, View.illegalIf, h]

theorem illegal_cell (h : i.wellFormed = true) (hc : (s.cell m u).spire = false) :
    (s.sees m u k i).illegal false = [] := by
  simp [View.illegal, View.illegalIf, h, hc]

theorem declChecks_nil {α : Type} {f : α → Nat} {limit : Nat} {ns : List α} (h : ∀ n ∈ ns, f n ≤ limit) :
    (ns.flatMap fun n => declCheck limit (f n)) = [] := by
  simp only [List.flatMap_eq_nil_iff, declCheck]
  exact fun n hn => if_neg (Nat.not_lt.2 (h n hn))

theorem declS_nil {rs : List (BitVec 6)} (h : s.DeclaresS m u k rs) : (s.sees m u k i).declS rs = [] := by
  rcases h with h | h
  · simp [View.declS, h]
  · have g : (rs.flatMap fun r => declCheck (s.desc m u k).smax r.toNat) = [] := declChecks_nil h
    simp only [View.declS, sees_spire, sees_rcd]
    exact (ite_eq_left_iff.2 fun _ => g)

theorem declV_nil {rs : List (BitVec 6)} (h : s.DeclaresV m u k rs) : (s.sees m u k i).declV rs = [] := by
  rcases h with h | h
  · simp [View.declV, h]
  · have g : (rs.flatMap fun r => declCheck (s.desc m u k).vmax r.toNat) = [] := declChecks_nil h
    simp only [View.declV, sees_spire, sees_rcd]
    exact (ite_eq_left_iff.2 fun _ => g)

theorem declQ_nil {ns : List Nat} (h : s.DeclaresQ m u k ns) : (s.sees m u k i).declQ ns = [] := by
  rcases h with h | h
  · simp [View.declQ, h]
  · have g : (ns.flatMap fun r => declCheck (s.desc m u k).qmax r) = [] := declChecks_nil h
    simp only [View.declQ, sees_spire, sees_rcd]
    exact (ite_eq_left_iff.2 fun _ => g)

theorem declH_nil {ns : List Nat} (h : s.DeclaresH m u k ns) : (s.sees m u k i).declH ns = [] := by
  rcases h with h | h
  · simp [View.declH, h]
  · have g : (ns.flatMap fun r => declCheck (s.desc m u k).hmax r) = [] := declChecks_nil h
    simp only [View.declH, sees_spire, sees_rcd]
    exact (ite_eq_left_iff.2 fun _ => g)

theorem State.DeclaresS.mono {rs rs' : List (BitVec 6)} (h : s.DeclaresS m u k rs) (hs : ∀ r ∈ rs', r ∈ rs) :
    s.DeclaresS m u k rs' := h.imp id fun g r hr => g r (hs r hr)

/-- A syllable of class S with a scalar destination issues, and its result is in flight. -/
theorem sylToS_issues {d : BitVec 6} {srcs : List (BitVec 6)} {val : Word} {lat : Nat}
    (h : s.Ready m u k srcs [d]) (hi : i.wellFormed = true) :
    (sylToS (s.sees m u k i) d srcs [] val lat).Issues (s.strand m u k) where
  static := by
    simp [sylToS, View.syl, illegal_nil hi, View.declQ]
    exact declS_nil h.declared
  dyn := rfl
  pend := fun p hp => h.settled.pend p hp
  notes := fun d hd => h.settled.notes d hd
  loop := .inl rfl
  free := rfl
  room := by rw [landCount_lands [_] rfl]; exact h.room

/-- What `exec` of `i` is. -/
theorem sends_of_lands {f : View → Syl} (ls : List Landing) (ho : s.Opened m u k) (he : exec i s = runSyl s i true f)
    (h : (f (s.sees m u k i)).Issues (s.strand m u k)) (hl : (f (s.sees m u k i)).effects = ls.map .land) :
    s.Sends m u k i ls := by
  rw [State.Sends, he]
  exact runSyl_lands ls ho h hl

/-- A syllable that makes one result and passes its checks, in a strand that is ready for it. -/
theorem gives_of_syl {f : View → Syl} {reads names : List (BitVec 6)} {r : Reg} {val : Val} {lat : Nat}
    (h : s.Ready m u k reads names) (he : exec i s = runSyl s i true f)
    (static : (f (s.sees m u k i)).static = []) (dyn : (f (s.sees m u k i)).dyn = [])
    (hr : (f (s.sees m u k i)).reads = reads.map (s.ps m u k))
    (hn : ∀ p ∈ (f (s.sees m u k i)).names, p ∈ names.map (s.ps m u k))
    (loop : (f (s.sees m u k i)).loop = .none) (free : (f (s.sees m u k i)).blocked = false)
    (hf : (f (s.sees m u k i)).effects = [.land (s.result m u k r val lat)])
    (image : (f (s.sees m u k i)).image = none := by rfl) : s.Gives m u k i r val lat :=
  sends_of_lands [_] h.opened he
    { static := static
      dyn := dyn
      image := image
      pend := fun p hp => ⟨hr ▸ (h.settled.pend p hp).1, fun e => (h.settled.pend p hp).2 (hn _ e)⟩
      notes := fun d hd => hr ▸ h.settled.notes d hd
      loop := .inl loop
      free := free
      room := by rw [landCount_lands [_] hf]; exact h.room } hf

theorem givesS_of_sylToS {d : BitVec 6} {srcs : List (BitVec 6)} {val : Word} {lat : Nat} {f : View → Syl}
    (h : s.Ready m u k srcs [d]) (he : exec i s = runSyl s i true f) (hi : i.wellFormed = true)
    (hf : f (s.sees m u k i) = sylToS (s.sees m u k i) d srcs [] val lat) : s.GivesS m u k i d val lat :=
  sends_of_lands _ h.opened he (hf ▸ sylToS_issues h hi) (by rw [hf]; rfl)

/-! ### The checks of engine ranges and handles -/

theorem firstTrap_eq_nil {ts : List TrapReq} : firstTrap ts = [] ↔ ts = [] := by
  cases ts <;> simp [firstTrap]

theorem engineRange_eq_nil {v : View} {off n : Nat} {write wld : Bool} :
    v.engineRange off n write wld = [] ↔
      v.engineRegionAt off n write wld (BitVec.ofNat 32 off) = [] ∧ v.engineRaceAt off n (BitVec.ofNat 32 off) = [] := by
  unfold View.engineRange View.engineRangeAt
  rw [← firstTrap, firstTrap_eq_nil, List.append_eq_nil_iff]

/-- A range that must be aligned passes its checks where it passes those of any range and is aligned. -/
theorem engineAligned_eq_nil {v : View} {off n align : Nat} {write wld : Bool} :
    v.engineAligned off n align write wld = [] ↔ v.engineRange off n write wld = [] ∧ off % align = 0 := by
  rw [engineRange_eq_nil]
  unfold View.engineAligned
  rw [firstTrap_eq_nil]
  by_cases h : off % align = 0 <;> simp [h]

theorem handleValid_eq_nil {v : View} {hn : Nat} : v.handleValid hn = [] ↔ (v.rh hn).valid = true := by
  unfold View.handleValid; split <;> simp_all

end Sys2Proof.Machine
end

