-- ==== Sys2Proof/Laws/Traps.lean ====
section
/-! SUPPORT. What taking a trap and returning from one leave: one lemma for each field of the strand that stays, and the
values of those that change. -/

namespace Sys2Proof.Machine

@[simp] theorem Strand.bank_setBank (st : Strand) (n : Nat) (b : TrapBank) : (st.setBank n b).bank n = b := by
  unfold Strand.bank Strand.setBank; split <;> rfl

/-- A level's bank is one of the two. -/
theorem Strand.bank_of_banks (x y : Strand) (n : Nat) (h1 : x.bank1 = y.bank1) (h2 : x.bank2 = y.bank2) :
    x.bank n = y.bank n := by
  unfold Strand.bank; rw [h1, h2]

@[simp] theorem Strand.setBank_mode (st : Strand) (n : Nat) (b : TrapBank) : (st.setBank n b).mode = st.mode := by
  unfold Strand.setBank; split <;> rfl
@[simp] theorem Strand.setBank_entry (st : Strand) (n : Nat) (b : TrapBank) : (st.setBank n b).entry = st.entry := by
  unfold Strand.setBank; split <;> rfl
@[simp] theorem Strand.setBank_sibling (st : Strand) (n : Nat) (b : TrapBank) : (st.setBank n b).sibling = st.sibling := by
  unfold Strand.setBank; split <;> rfl
@[simp] theorem Strand.setBank_halted (st : Strand) (n : Nat) (b : TrapBank) : (st.setBank n b).halted = st.halted := by
  unfold Strand.setBank; split <;> rfl
@[simp] theorem Strand.setBank_pc (st : Strand) (n : Nat) (b : TrapBank) : (st.setBank n b).pc = st.pc := by
  unfold Strand.setBank; split <;> rfl
@[simp] theorem Strand.setBank_s (st : Strand) (n : Nat) (b : TrapBank) : (st.setBank n b).s = st.s := by
  unfold Strand.setBank; split <;> rfl
@[simp] theorem Strand.setBank_q (st : Strand) (n : Nat) (b : TrapBank) : (st.setBank n b).q = st.q := by
  unfold Strand.setBank; split <;> rfl
@[simp] theorem Strand.setBank_h (st : Strand) (n : Nat) (b : TrapBank) : (st.setBank n b).h = st.h := by
  unfold Strand.setBank; split <;> rfl
@[simp] theorem Strand.setBank_v (st : Strand) (n : Nat) (b : TrapBank) : (st.setBank n b).v = st.v := by
  unfold Strand.setBank; split <;> rfl
@[simp] theorem Strand.setBank_lc (st : Strand) (n : Nat) (b : TrapBank) : (st.setBank n b).lc = st.lc := by
  unfold Strand.setBank; split <;> rfl
@[simp] theorem Strand.setBank_rrb (st : Strand) (n : Nat) (b : TrapBank) : (st.setBank n b).rrb = st.rrb := by
  unfold Strand.setBank; split <;> rfl
@[simp] theorem Strand.setBank_fpc (st : Strand) (n : Nat) (b : TrapBank) : (st.setBank n b).fpc = st.fpc := by
  unfold Strand.setBank; split <;> rfl
@[simp] theorem Strand.setBank_fpf (st : Strand) (n : Nat) (b : TrapBank) : (st.setBank n b).fpf = st.fpf := by
  unfold Strand.setBank; split <;> rfl
@[simp] theorem Strand.setBank_ltok (st : Strand) (n : Nat) (b : TrapBank) : (st.setBank n b).ltok = st.ltok := by
  unfold Strand.setBank; split <;> rfl
@[simp] theorem Strand.setBank_iter (st : Strand) (n : Nat) (b : TrapBank) : (st.setBank n b).iter = st.iter := by
  unfold Strand.setBank; split <;> rfl
@[simp] theorem Strand.setBank_recid (st : Strand) (n : Nat) (b : TrapBank) : (st.setBank n b).recid = st.recid := by
  unfold Strand.setBank; split <;> rfl
@[simp] theorem Strand.setBank_tl (st : Strand) (n : Nat) (b : TrapBank) : (st.setBank n b).tl = st.tl := by
  unfold Strand.setBank; split <;> rfl
@[simp] theorem Strand.setBank_etag (st : Strand) (n : Nat) (b : TrapBank) : (st.setBank n b).etag = st.etag := by
  unfold Strand.setBank; split <;> rfl
@[simp] theorem Strand.setBank_preq (st : Strand) (n : Nat) (b : TrapBank) : (st.setBank n b).preq = st.preq := by
  unfold Strand.setBank; split <;> rfl
@[simp] theorem Strand.setBank_sdctrap (st : Strand) (n : Nat) (b : TrapBank) : (st.setBank n b).sdctrap = st.sdctrap := by
  unfold Strand.setBank; split <;> rfl
@[simp] theorem Strand.setBank_taint (st : Strand) (n : Nat) (b : TrapBank) : (st.setBank n b).taint = st.taint := by
  unfold Strand.setBank; split <;> rfl
@[simp] theorem Strand.setBank_taintAt (st : Strand) (n : Nat) (b : TrapBank) : (st.setBank n b).taintAt = st.taintAt := by
  unfold Strand.setBank; split <;> rfl
@[simp] theorem Strand.setBank_spill (st : Strand) (n : Nat) (b : TrapBank) : (st.setBank n b).spill = st.spill := by
  unfold Strand.setBank; split <;> rfl
@[simp] theorem Strand.setBank_tvec (st : Strand) (n : Nat) (b : TrapBank) : (st.setBank n b).tvec = st.tvec := by
  unfold Strand.setBank; split <;> rfl
@[simp] theorem Strand.setBank_xword (st : Strand) (n : Nat) (b : TrapBank) : (st.setBank n b).xword = st.xword := by
  unfold Strand.setBank; split <;> rfl
@[simp] theorem Strand.setBank_xidx (st : Strand) (n : Nat) (b : TrapBank) : (st.setBank n b).xidx = st.xidx := by
  unfold Strand.setBank; split <;> rfl
@[simp] theorem Strand.setBank_landing (st : Strand) (n : Nat) (b : TrapBank) : (st.setBank n b).landing = st.landing := by
  unfold Strand.setBank; split <;> rfl
@[simp] theorem Strand.setBank_pend (st : Strand) (n : Nat) (b : TrapBank) : (st.setBank n b).pend = st.pend := by
  unfold Strand.setBank; split <;> rfl
@[simp] theorem Strand.setBank_delivered (st : Strand) (n : Nat) (b : TrapBank) : (st.setBank n b).delivered = st.delivered := by
  unfold Strand.setBank; split <;> rfl
@[simp] theorem Strand.setBank_errs (st : Strand) (n : Nat) (b : TrapBank) : (st.setBank n b).errs = st.errs := by
  unfold Strand.setBank; split <;> rfl
@[simp] theorem Strand.setBank_beat (st : Strand) (n : Nat) (b : TrapBank) : (st.setBank n b).beat = st.beat := by
  unfold Strand.setBank; split <;> rfl
@[simp] theorem Strand.setBank_idleUntil (st : Strand) (n : Nat) (b : TrapBank) : (st.setBank n b).idleUntil = st.idleUntil := by
  unfold Strand.setBank; split <;> rfl
@[simp] theorem Strand.setBank_bucket (st : Strand) (n : Nat) (b : TrapBank) : (st.setBank n b).bucket = st.bucket := by
  unfold Strand.setBank; split <;> rfl
@[simp] theorem Strand.setBank_deficit (st : Strand) (n : Nat) (b : TrapBank) : (st.setBank n b).deficit = st.deficit := by
  unfold Strand.setBank; split <;> rfl
@[simp] theorem Strand.setBank_lacq (st : Strand) (n : Nat) (b : TrapBank) : (st.setBank n b).lacq = st.lacq := by
  unfold Strand.setBank; split <;> rfl
@[simp] theorem Strand.setBank_lastSeq (st : Strand) (n : Nat) (b : TrapBank) : (st.setBank n b).lastSeq = st.lastSeq := by
  unfold Strand.setBank; split <;> rfl
@[simp] theorem Strand.setBank_lastIssue (st : Strand) (n : Nat) (b : TrapBank) : (st.setBank n b).lastIssue = st.lastIssue := by
  unfold Strand.setBank; split <;> rfl
@[simp] theorem Strand.setBank_yielded (st : Strand) (n : Nat) (b : TrapBank) : (st.setBank n b).yielded = st.yielded := by
  unfold Strand.setBank; split <;> rfl
@[simp] theorem Strand.setBank_waiting (st : Strand) (n : Nat) (b : TrapBank) : (st.setBank n b).waiting = st.waiting := by
  unfold Strand.setBank; split <;> rfl
@[simp] theorem Strand.setBank_ready (st : Strand) (n : Nat) (b : TrapBank) : (st.setBank n b).ready = st.ready := by
  unfold Strand.setBank; split <;> rfl
@[simp] theorem Strand.setBank_fbcWait (st : Strand) (n : Nat) (b : TrapBank) : (st.setBank n b).fbcWait = st.fbcWait := by
  unfold Strand.setBank; split <;> rfl

section enter

variable (st : Strand) (cycle : Nat) (pc : BitVec 15) (slot : Nat) (cause : BitVec 8) (val : Word)

/-- Trap entry goes to the level above, at the handler of the cause, with nothing in flight, after 2 idle cycles. -/
theorem Strand.enterTrap_goes :
    (st.enterTrap cycle pc slot cause val).tl = st.tl + 1 ∧
    (st.enterTrap cycle pc slot cause val).pc = BitVec.ofNat 15 (st.tvec.toNat * 64 + 64 * cause.toNat) ∧
    (st.enterTrap cycle pc slot cause val).landing = [] ∧
    (st.enterTrap cycle pc slot cause val).idleUntil = cycle + 3 := ⟨rfl, rfl, rfl, rfl⟩

/-- The bank of the new level holds the cause, the value, the bundle's address, RRB and what was in flight. -/
theorem Strand.enterTrap_bank :
    (st.enterTrap cycle pc slot cause val).bank (st.tl.toNat + 1) =
      { st.bank (st.tl.toNat + 1) with
        cause := cause, val := val, pc := pc, rrb := st.rrb, slot := BitVec.ofNat 3 slot, taint := st.taint,
        adv := false, replay := st.landing.map fun l => { l with due := l.due - st.beat } } :=
  (Strand.bank_of_banks _ _ _ rfl rfl).trans (Strand.bank_setBank _ _ _)

@[simp] theorem Strand.enterTrap_mode : (st.enterTrap cycle pc slot cause val).mode = st.mode := by
  simp [Strand.enterTrap]
@[simp] theorem Strand.enterTrap_entry : (st.enterTrap cycle pc slot cause val).entry = st.entry := by
  simp [Strand.enterTrap]
@[simp] theorem Strand.enterTrap_sibling : (st.enterTrap cycle pc slot cause val).sibling = st.sibling := by
  simp [Strand.enterTrap]
@[simp] theorem Strand.enterTrap_halted : (st.enterTrap cycle pc slot cause val).halted = st.halted := by
  simp [Strand.enterTrap]
@[simp] theorem Strand.enterTrap_s : (st.enterTrap cycle pc slot cause val).s = st.s := by
  simp [Strand.enterTrap]
@[simp] theorem Strand.enterTrap_q : (st.enterTrap cycle pc slot cause val).q = st.q := by
  simp [Strand.enterTrap]
@[simp] theorem Strand.enterTrap_h : (st.enterTrap cycle pc slot cause val).h = st.h := by
  simp [Strand.enterTrap]
@[simp] theorem Strand.enterTrap_v : (st.enterTrap cycle pc slot cause val).v = st.v := by
  simp [Strand.enterTrap]
@[simp] theorem Strand.enterTrap_lc : (st.enterTrap cycle pc slot cause val).lc = st.lc := by
  simp [Strand.enterTrap]
@[simp] theorem Strand.enterTrap_rrb : (st.enterTrap cycle pc slot cause val).rrb = st.rrb := by
  simp [Strand.enterTrap]
@[simp] theorem Strand.enterTrap_fpc : (st.enterTrap cycle pc slot cause val).fpc = st.fpc := by
  simp [Strand.enterTrap]
@[simp] theorem Strand.enterTrap_fpf : (st.enterTrap cycle pc slot cause val).fpf = st.fpf := by
  simp [Strand.enterTrap]
@[simp] theorem Strand.enterTrap_ltok : (st.enterTrap cycle pc slot cause val).ltok = st.ltok := by
  simp [Strand.enterTrap]
@[simp] theorem Strand.enterTrap_iter : (st.enterTrap cycle pc slot cause val).iter = st.iter := by
  simp [Strand.enterTrap]
@[simp] theorem Strand.enterTrap_recid : (st.enterTrap cycle pc slot cause val).recid = st.recid := by
  simp [Strand.enterTrap]
@[simp] theorem Strand.enterTrap_etag : (st.enterTrap cycle pc slot cause val).etag = st.etag := by
  simp [Strand.enterTrap]
@[simp] theorem Strand.enterTrap_preq : (st.enterTrap cycle pc slot cause val).preq = st.preq := by
  simp [Strand.enterTrap]
@[simp] theorem Strand.enterTrap_sdctrap : (st.enterTrap cycle pc slot cause val).sdctrap = st.sdctrap := by
  simp [Strand.enterTrap]
@[simp] theorem Strand.enterTrap_taint : (st.enterTrap cycle pc slot cause val).taint = st.taint := by
  simp [Strand.enterTrap]
@[simp] theorem Strand.enterTrap_taintAt : (st.enterTrap cycle pc slot cause val).taintAt = st.taintAt := by
  simp [Strand.enterTrap]
@[simp] theorem Strand.enterTrap_spill : (st.enterTrap cycle pc slot cause val).spill = st.spill := by
  simp [Strand.enterTrap]
@[simp] theorem Strand.enterTrap_tvec : (st.enterTrap cycle pc slot cause val).tvec = st.tvec := by
  simp [Strand.enterTrap]
@[simp] theorem Strand.enterTrap_xword : (st.enterTrap cycle pc slot cause val).xword = st.xword := by
  simp [Strand.enterTrap]
@[simp] theorem Strand.enterTrap_xidx : (st.enterTrap cycle pc slot cause val).xidx = st.xidx := by
  simp [Strand.enterTrap]
@[simp] theorem Strand.enterTrap_pend : (st.enterTrap cycle pc slot cause val).pend = st.pend := by
  simp [Strand.enterTrap]
@[simp] theorem Strand.enterTrap_delivered : (st.enterTrap cycle pc slot cause val).delivered = st.delivered := by
  simp [Strand.enterTrap]
@[simp] theorem Strand.enterTrap_errs : (st.enterTrap cycle pc slot cause val).errs = st.errs := by
  simp [Strand.enterTrap]
@[simp] theorem Strand.enterTrap_beat : (st.enterTrap cycle pc slot cause val).beat = st.beat := by
  simp [Strand.enterTrap]
@[simp] theorem Strand.enterTrap_bucket : (st.enterTrap cycle pc slot cause val).bucket = st.bucket := by
  simp [Strand.enterTrap]
@[simp] theorem Strand.enterTrap_deficit : (st.enterTrap cycle pc slot cause val).deficit = st.deficit := by
  simp [Strand.enterTrap]
@[simp] theorem Strand.enterTrap_lacq : (st.enterTrap cycle pc slot cause val).lacq = st.lacq := by
  simp [Strand.enterTrap]
@[simp] theorem Strand.enterTrap_lastSeq : (st.enterTrap cycle pc slot cause val).lastSeq = st.lastSeq := by
  simp [Strand.enterTrap]
@[simp] theorem Strand.enterTrap_lastIssue : (st.enterTrap cycle pc slot cause val).lastIssue = st.lastIssue := by
  simp [Strand.enterTrap]
@[simp] theorem Strand.enterTrap_yielded : (st.enterTrap cycle pc slot cause val).yielded = st.yielded := by
  simp [Strand.enterTrap]
@[simp] theorem Strand.enterTrap_ready : (st.enterTrap cycle pc slot cause val).ready = st.ready := by
  simp [Strand.enterTrap]
@[simp] theorem Strand.enterTrap_fbcWait : (st.enterTrap cycle pc slot cause val).fbcWait = st.fbcWait := by
  simp [Strand.enterTrap]

end enter

section leave

variable (st : Strand) (cycle level : Nat)

/-- A return goes to the level below, at the bank's address and RRB, after 2 idle cycles. -/
theorem Strand.leaveTrap_goes :
    (st.leaveTrap cycle level).tl = BitVec.ofNat 2 (level - 1) ∧
    (st.leaveTrap cycle level).pc = (st.bank level).pc ∧
    (st.leaveTrap cycle level).rrb = (st.bank level).rrb ∧
    (st.leaveTrap cycle level).idleUntil = cycle + 3 := ⟨rfl, rfl, rfl, rfl⟩

/-- The bank that a return leaves holds no replay entry. -/
theorem Strand.leaveTrap_bank : (st.leaveTrap cycle level).bank level = { st.bank level with replay := [] } :=
  (Strand.bank_of_banks _ _ _ rfl rfl).trans (Strand.bank_setBank _ _ _)

@[simp] theorem Strand.leaveTrap_mode : (st.leaveTrap cycle level).mode = st.mode := by
  simp [Strand.leaveTrap]
@[simp] theorem Strand.leaveTrap_entry : (st.leaveTrap cycle level).entry = st.entry := by
  simp [Strand.leaveTrap]
@[simp] theorem Strand.leaveTrap_sibling : (st.leaveTrap cycle level).sibling = st.sibling := by
  simp [Strand.leaveTrap]
@[simp] theorem Strand.leaveTrap_halted : (st.leaveTrap cycle level).halted = st.halted := by
  simp [Strand.leaveTrap]
@[simp] theorem Strand.leaveTrap_s : (st.leaveTrap cycle level).s = st.s := by
  simp [Strand.leaveTrap]
@[simp] theorem Strand.leaveTrap_q : (st.leaveTrap cycle level).q = st.q := by
  simp [Strand.leaveTrap]
@[simp] theorem Strand.leaveTrap_h : (st.leaveTrap cycle level).h = st.h := by
  simp [Strand.leaveTrap]
@[simp] theorem Strand.leaveTrap_v : (st.leaveTrap cycle level).v = st.v := by
  simp [Strand.leaveTrap]
@[simp] theorem Strand.leaveTrap_lc : (st.leaveTrap cycle level).lc = st.lc := by
  simp [Strand.leaveTrap]
@[simp] theorem Strand.leaveTrap_fpc : (st.leaveTrap cycle level).fpc = st.fpc := by
  simp [Strand.leaveTrap]
@[simp] theorem Strand.leaveTrap_fpf : (st.leaveTrap cycle level).fpf = st.fpf := by
  simp [Strand.leaveTrap]
@[simp] theorem Strand.leaveTrap_ltok : (st.leaveTrap cycle level).ltok = st.ltok := by
  simp [Strand.leaveTrap]
@[simp] theorem Strand.leaveTrap_iter : (st.leaveTrap cycle level).iter = st.iter := by
  simp [Strand.leaveTrap]
@[simp] theorem Strand.leaveTrap_recid : (st.leaveTrap cycle level).recid = st.recid := by
  simp [Strand.leaveTrap]
@[simp] theorem Strand.leaveTrap_etag : (st.leaveTrap cycle level).etag = st.etag := by
  simp [Strand.leaveTrap]
@[simp] theorem Strand.leaveTrap_preq : (st.leaveTrap cycle level).preq = st.preq := by
  simp [Strand.leaveTrap]
@[simp] theorem Strand.leaveTrap_sdctrap : (st.leaveTrap cycle level).sdctrap = st.sdctrap := by
  simp [Strand.leaveTrap]
@[simp] theorem Strand.leaveTrap_taint : (st.leaveTrap cycle level).taint = st.taint := by
  simp [Strand.leaveTrap]
@[simp] theorem Strand.leaveTrap_taintAt : (st.leaveTrap cycle level).taintAt = st.taintAt := by
  simp [Strand.leaveTrap]
@[simp] theorem Strand.leaveTrap_spill : (st.leaveTrap cycle level).spill = st.spill := by
  simp [Strand.leaveTrap]
@[simp] theorem Strand.leaveTrap_tvec : (st.leaveTrap cycle level).tvec = st.tvec := by
  simp [Strand.leaveTrap]
@[simp] theorem Strand.leaveTrap_xword : (st.leaveTrap cycle level).xword = st.xword := by
  simp [Strand.leaveTrap]
@[simp] theorem Strand.leaveTrap_xidx : (st.leaveTrap cycle level).xidx = st.xidx := by
  simp [Strand.leaveTrap]
@[simp] theorem Strand.leaveTrap_pend : (st.leaveTrap cycle level).pend = st.pend := by
  simp [Strand.leaveTrap]
@[simp] theorem Strand.leaveTrap_delivered : (st.leaveTrap cycle level).delivered = st.delivered := by
  simp [Strand.leaveTrap]
@[simp] theorem Strand.leaveTrap_errs : (st.leaveTrap cycle level).errs = st.errs := by
  simp [Strand.leaveTrap]
@[simp] theorem Strand.leaveTrap_beat : (st.leaveTrap cycle level).beat = st.beat := by
  simp [Strand.leaveTrap]
@[simp] theorem Strand.leaveTrap_bucket : (st.leaveTrap cycle level).bucket = st.bucket := by
  simp [Strand.leaveTrap]
@[simp] theorem Strand.leaveTrap_deficit : (st.leaveTrap cycle level).deficit = st.deficit := by
  simp [Strand.leaveTrap]
@[simp] theorem Strand.leaveTrap_lacq : (st.leaveTrap cycle level).lacq = st.lacq := by
  simp [Strand.leaveTrap]
@[simp] theorem Strand.leaveTrap_lastSeq : (st.leaveTrap cycle level).lastSeq = st.lastSeq := by
  simp [Strand.leaveTrap]
@[simp] theorem Strand.leaveTrap_lastIssue : (st.leaveTrap cycle level).lastIssue = st.lastIssue := by
  simp [Strand.leaveTrap]
@[simp] theorem Strand.leaveTrap_yielded : (st.leaveTrap cycle level).yielded = st.yielded := by
  simp [Strand.leaveTrap]
@[simp] theorem Strand.leaveTrap_waiting : (st.leaveTrap cycle level).waiting = st.waiting := by
  simp [Strand.leaveTrap]
@[simp] theorem Strand.leaveTrap_ready : (st.leaveTrap cycle level).ready = st.ready := by
  simp [Strand.leaveTrap]
@[simp] theorem Strand.leaveTrap_fbcWait : (st.leaveTrap cycle level).fbcWait = st.fbcWait := by
  simp [Strand.leaveTrap]

end leave

end Sys2Proof.Machine
end

