-- ==== Sys2Proof/Laws/Vector.lean ====
section
/-! SUPPORT. What a vector syllable of a ready strand gives. -/

namespace Sys2Proof.Machine

variable {s : State} {m u k : Nat} {i : Instr} {d : BitVec 6} {q : BitVec 3} {w : BitVec 2}

/-- A source that is RAW or has the required tag passes the check. -/
theorem checkTag_nil {x : VReg} {num : BitVec 6} {want : BitVec 3} (h : x.Has want) : checkTag x num want = [] := by
  rcases h with h | h <;> simp [checkTag, h]

theorem mergeCheck_nil {tag : BitVec 3} (h : s.Merges m u k d q w tag) :
    mergeCheck (s.sees m u k i) d q w tag = [] := by
  rcases h with h | h | h | h
  · simp [mergeCheck, h]
  · simp [mergeCheck, h]
  · simp [mergeCheck, checkTag, h]
  · simp [mergeCheck, checkTag_nil h]

theorem clusterCheck_nil {n : Nat} {vecs : List (BitVec 6)} (h : ∀ r ∈ vecs, clusterOf r.toNat = n) :
    clusterCheck n vecs = [] := by
  have : (vecs.find? fun r => clusterOf r.toNat != n) = none := by
    simpa [List.find?_eq_none] using h
  simp [clusterCheck, this]

/-- Folding over a list of lanes adds up what each of them has. -/
theorem foldl_map_ite {α β : Type} (p : Nat → Bool) (f g : Nat → α) (h : α → β) (op : β → β → β)
    (hz : ∀ x j, op x (h (g j)) = x) :
    ∀ (l : List Nat) (x : β), (l.map fun j => if p j then f j else g j).foldl (fun x y => op x (h y)) x =
      l.foldl (fun x j => if p j then op x (h (f j)) else x) x := by
  intro l
  induction l with
  | nil => intro x; rfl
  | cons j r ih =>
    intro x
    simp only [List.map_cons, List.foldl_cons]
    rw [ih]
    cases p j <;> simp [hz]

theorem frameLanes_sees {f : Nat → LaneOut} : frameLanes (s.sees m u k i) d q w f =
    (List.range 32).map fun j =>
      if (s.rq m u k q.toNat).getLsbD j then f j
      else if w = 1 then laneVal 0 else laneVal ((s.rv m u k d).lanes.getD j 0) := rfl

/-- The landing of a framed result, by its lanes. -/
theorem vLand_frame {lat : Nat} {tag : BitVec 3} {f : Nat → LaneOut} :
    vLand (s.sees m u k i) d lat tag (frameLanes (s.sees m u k i) d q w f) =
      { s.result m u k (.v (s.pv m u k d))
          (.vec ⟨Vector.ofFn fun j : Fin 32 => s.laneOf m u k d q w (fun j => (f j).val) j, tag⟩) lat with
        flags := s.flagsOf m u k q fun j => (f j).flags
        cvtSat := s.countOf m u k q fun j => (f j).cvt
        nanScale := s.countOf m u k q fun j => (f j).nan } := by
  have hg : ∀ j, ∃ x, (if w = 1 then laneVal 0 else laneVal ((s.rv m u k d).lanes.getD j 0)) = laneVal x := by
    intro j
    by_cases h : w = 1
    · exact ⟨_, if_pos h⟩
    · exact ⟨_, if_neg h⟩
  have e : vregOf ((frameLanes (s.sees m u k i) d q w f).map fun l => l.val) tag =
      ⟨Vector.ofFn fun j : Fin 32 => s.laneOf m u k d q w (fun j => (f j).val) j, tag⟩ := by
    simp only [vregOf, frameLanes_sees, State.laneOf, VReg.mk.injEq, and_true]
    congr 1
    funext j
    have hj : j.val < 32 := j.isLt
    simp only [List.map_map, List.getD_eq_getElem?_getD, List.getElem?_map, List.getElem?_range hj, Option.map_some,
      Option.getD_some, Function.comp]
    by_cases hp : (s.rq m u k q.toNat).getLsbD j = true
    · rw [if_pos hp, if_pos hp]
    · rw [if_neg hp, if_neg hp]
      by_cases hw : w = 1
      · rw [if_pos hw, if_pos hw]; rfl
      · rw [if_neg hw, if_neg hw]; rfl
  simp only [vLand, e]
  simp only [frameLanes_sees, State.flagsOf, State.countOf]
  rw [foldl_map_ite _ f _ (fun l => l.flags) (fun x y => x ||| y)
      (by intro x j; obtain ⟨y, hy⟩ := hg j; rw [hy]; simp [laneVal]),
    foldl_map_ite _ f _ (fun l => l.cvt) (fun x y => x + y)
      (by intro x j; obtain ⟨y, hy⟩ := hg j; rw [hy]; simp [laneVal]),
    foldl_map_ite _ f _ (fun l => l.nan) (fun x y => x + y)
      (by intro x j; obtain ⟨y, hy⟩ := hg j; rw [hy]; simp [laneVal])]
  rfl

/-- The static checks of a vector syllable of a ready strand. -/
theorem vBase_static {vecs reads names : List (BitVec 6)} {preds : List Nat} {one : Bool} {c : Nat}
    (h : s.ReadyV m u k vecs d q w reads names) (hi : i.wellFormed = true) (hc : c = clusterOf d.toNat)
    {ss : List (BitVec 6)} (hs : ∀ r ∈ ss, r ∈ names ++ reads) (hp : s.DeclaresQ m u k preds) :
    (vBase (s.sees m u k i) c vecs ss preds one).static = [] := by
  have h1 : (s.sees m u k i).declS ss = [] := declS_nil (h.ready.declared.mono hs)
  have h2 : clusterCheck c vecs = [] := clusterCheck_nil fun r hr => (h.cluster r hr).trans hc.symm
  cases one <;> simp [vBase, illegal_cell hi h.cell, h1, h2, declV_nil h.declaredV, declQ_nil hp]

/-- A vector syllable of the frame, in a strand that is ready for it. -/
theorem givesV_of_frame {vecs reads names ss : List (BitVec 6)} {tag : BitVec 3} {lat : Nat} {one : Bool} {c : Nat}
    {checks : List TrapReq} {g : Nat → LaneOut} {f : View → Syl} (h : s.ReadyV m u k vecs d q w reads names)
    (he : exec i s = runSyl s i true f) (hi : i.wellFormed = true) (hc : c = clusterOf d.toNat)
    (hf : f (s.sees m u k i) = sylFrame (s.sees m u k i) (vBase (s.sees m u k i) c vecs ss [q.toNat] one) d q w lat tag
      checks g)
    (hss : ss = reads) (hn : checks = []) (hm : s.Merges m u k d q w tag) : s.GivesV m u k i d q w tag lat g := by
  subst hss
  refine sends_of_lands _ h.ready.opened he (hf ▸ ?_) (by rw [hf, sylFrame, vLand_frame]; rfl)
  exact
    { static := vBase_static h hi hc (fun r hr => List.mem_append.2 (.inr hr)) h.declaredQ
      dyn := by simp [sylFrame, hn, mergeCheck_nil hm]
      pend := fun p hp => ⟨(h.ready.settled.pend p hp).1, by simp [sylFrame, vBase, View.syl]⟩
      notes := fun d hd => h.ready.settled.notes d hd
      loop := .inl rfl
      free := rfl
      room := by rw [landCount_lands [_] rfl]; exact h.ready.room }

end Sys2Proof.Machine
end

