-- ==== Sys2Proof/Tests/Slice0.lean ====
section
/-! SUPPORT. Tests: words written out bit by bit from the encodings of the spec, terms that well-formedness refuses, steps with
results taken from the rules, and for each statement states that meet its hypotheses. -/

open Sys2Proof Sys2Proof.Machine

namespace Sys2Proof.Tests

/-! ### Decoding: every constructor's word, laid out by the format of R62 from the code that R74 to R79 give it -/

/-- The formats of R62, after the opcode in bits 30:23. -/
def rrr (c d a b x : Nat) : Nat := c * 2 ^ 23 + d * 2 ^ 17 + a * 2 ^ 11 + b * 2 ^ 5 + x
def rri (c d a i : Nat) : Nat := c * 2 ^ 23 + d * 2 ^ 17 + a * 2 ^ 11 + i
def ri (c d i : Nat) : Nat := c * 2 ^ 23 + d * 2 ^ 17 + i
def br (c d o : Nat) : Nat := c * 2 ^ 23 + d * 2 ^ 17 + o
def ms (c d h a i : Nat) : Nat := c * 2 ^ 23 + d * 2 ^ 17 + h * 2 ^ 13 + a * 2 ^ 7 + i
def mv (c d h a t i : Nat) : Nat := c * 2 ^ 23 + d * 2 ^ 17 + h * 2 ^ 13 + a * 2 ^ 7 + t * 2 ^ 4 + i
def at' (c d h a b : Nat) : Nat := c * 2 ^ 23 + d * 2 ^ 17 + h * 2 ^ 13 + a * 2 ^ 7 + b * 2
def vv (c d a b q m : Nat) : Nat := c * 2 ^ 23 + d * 2 ^ 17 + a * 2 ^ 11 + b * 2 ^ 5 + q * 2 ^ 2 + m
def en (c a b s t : Nat) : Nat := c * 2 ^ 23 + a * 2 ^ 17 + b * 2 ^ 11 + s * 2 ^ 6 + t
def sy (c i : Nat) : Nat := c * 2 ^ 23 + i

/-- Each word, with E = 0, decodes to the instruction beside it, which is well formed and whose encoding is the word. -/
def decodesAll (l : List (Nat × Instr)) : Bool :=
  l.all fun p => decode (BitVec.ofNat 32 p.1) == p.2 && p.2.wellFormed && encode p.2 == BitVec.ofNat 32 p.1

/-- R74, register forms. -/
theorem test_decode_scalar : decodesAll
    [(rrr 0x00 0 0 0 0, .nop false), (rrr 0x01 41 22 51 0, .add false 41 22 51),
     (rrr 0x02 41 22 51 0, .sub false 41 22 51), (rrr 0x03 41 22 51 0, .and false 41 22 51),
     (rrr 0x04 41 22 51 0, .or false 41 22 51), (rrr 0x05 41 22 51 0, .xor false 41 22 51),
     (rrr 0x06 41 22 51 0, .andn false 41 22 51), (rrr 0x07 41 22 51 0, .shl false 41 22 51),
     (rrr 0x08 41 22 51 0, .shr false 41 22 51), (rrr 0x09 41 22 51 0, .sra false 41 22 51),
     (rrr 0x0A 41 22 51 0, .rot false 41 22 51), (rrr 0x0B 41 22 51 0, .mul false 41 22 51),
     (rrr 0x0C 41 22 51 0, .mulh false 41 22 51), (rrr 0x0C 41 22 51 1, .mulhU false 41 22 51),
     (rrr 0x0D 41 22 51 0, .div false 41 22 51), (rrr 0x0D 41 22 51 1, .divU false 41 22 51),
     (rrr 0x0E 41 22 51 0, .rem false 41 22 51), (rrr 0x0E 41 22 51 1, .remU false 41 22 51),
     (rrr 0x0F 41 22 51 0, .min false 41 22 51), (rrr 0x0F 41 22 51 1, .minU false 41 22 51),
     (rrr 0x10 41 22 51 0, .max false 41 22 51), (rrr 0x10 41 22 51 1, .maxU false 41 22 51),
     (rrr 0x11 41 22 51 5, .cmp false 41 22 51 5), (rrr 0x12 41 22 51 0, .cmov false 41 22 51),
     (rrr 0x13 41 22 0 0, .clz false 41 22), (rrr 0x14 41 22 0 0, .popc false 41 22),
     (rrr 0x15 41 22 51 26, .bext false 41 22 51 26), (rrr 0x16 41 22 51 26, .bins false 41 22 51 26)] = true := by decide

/-- R74, immediate forms, special registers and predicates. -/
theorem test_decode_scalar_immediate : decodesAll
    [(rri 0x17 41 22 0x5a5, .addi false 41 22 0x5a5), (rri 0x18 41 22 0x5a5, .andi false 41 22 0x5a5),
     (rri 0x19 41 22 0x5a5, .ori false 41 22 0x5a5), (rri 0x1A 41 22 0x5a5, .xori false 41 22 0x5a5),
     (rri 0x1B 41 22 0x1e, .shli false 41 22 0x1e), (rri 0x1C 41 22 0x1e, .shri false 41 22 0x1e),
     (rri 0x1D 41 22 0x1e, .srai false 41 22 0x1e), (rri 0x1E 41 22 0x5a5, .muli false 41 22 0x5a5),
     (rri 0x1F 41 22 0x5a5, .cmpeqi false 41 22 0x5a5), (rri 0x20 41 22 0x5a5, .cmplti false 41 22 0x5a5),
     (rri 0x21 41 22 0x5a5, .cmpltui false 41 22 0x5a5), (ri 0x22 41 0x15A5A, .li false 41 0x15A5A),
     (ri 0x23 41 0x15A5A, .lih false 41 0x15A5A), (rri 0x24 41 0 10, .mfs false 41 10),
     (rri 0x25 0 22 4, .mts false 22 4), (rrr 0x26 41 0 0 0, .rdcyc false 41), (rri 0x27 41 0 5, .rdid false 41 5),
     (rrr 0x28 5 6 3 0, .pand false 5 6 3), (rrr 0x29 5 6 3 0, .por false 5 6 3),
     (rrr 0x2A 5 6 3 0, .pxor false 5 6 3), (rrr 0x2B 5 6 3 0, .pandn false 5 6 3),
     (rrr 0x2C 5 22 0 0, .pfs false 5 22), (rrr 0x2D 41 6 0 0, .pts false 41 6),
     (rrr 0x2E 41 6 0 0, .pcnt false 41 6), (rrr 0x2F 41 6 0 0, .pfirst false 41 6)] = true := by decide

/-- R75. -/
theorem test_decode_memory : decodesAll
    [(ms 0x40 41 13 22 0x59, .ldb false 41 13 22 0x59), (ms 0x41 41 13 22 0x59, .ldbu false 41 13 22 0x59),
     (ms 0x42 41 13 22 0x59, .ldh false 41 13 22 0x59), (ms 0x43 41 13 22 0x59, .ldhu false 41 13 22 0x59),
     (ms 0x44 41 13 22 0x59, .ldw false 41 13 22 0x59), (ms 0x45 41 13 22 0x59, .stb false 41 13 22 0x59),
     (ms 0x46 41 13 22 0x59, .sth false 41 13 22 0x59), (ms 0x47 41 13 22 0x59, .stw false 41 13 22 0x59),
     (mv 0x48 41 13 22 5 9, .vld false 41 13 22 5 9), (mv 0x49 41 13 22 5 9, .vst false 41 13 22 5 9),
     (mv 0x4A 41 13 22 5 9, .vldb false 41 13 22 5 9), (mv 0x4B 41 13 22 5 9, .vgth false 41 13 22 5 9),
     (mv 0x4C 41 13 22 5 9, .vsct false 41 13 22 5 9), (mv 0x4D 41 13 22 5 9, .vlds false 41 13 22 5 9),
     (mv 0x4E 41 13 22 5 9, .vsts false 41 13 22 5 9), (rrr 0x4F 13 22 51 0, .xlat false 13 22 51),
     (rrr 0x50 13 0 0 0, .hinv false 13), (rrr 0x51 41 13 0 0, .hchk false 41 13),
     (at' 0x52 41 13 22 51, .amoadd false 41 13 22 51), (at' 0x53 41 13 22 51, .amoand false 41 13 22 51),
     (at' 0x54 41 13 22 51, .amoor false 41 13 22 51), (at' 0x55 41 13 22 51, .amoxor false 41 13 22 51),
     (at' 0x56 41 13 22 51, .amomin false 41 13 22 51), (at' 0x57 41 13 22 51, .amomax false 41 13 22 51),
     (at' 0x58 41 13 22 51, .amoswp false 41 13 22 51), (at' 0x59 41 13 22 51, .amocas false 41 13 22 51),
     (at' 0x5A 41 13 22 51, .amofadd false 41 13 22 51), (sy 0x5B (2 * 2 ^ 3 + 4), .fence false 2 4)] = true := by decide

/-- R76. -/
theorem test_decode_control : decodesAll
    [(br 0x60 0 0x15A5A, .br false 0x15A5A), (br 0x61 41 0x15A5A, .bz false 41 0x15A5A),
     (br 0x62 41 0x15A5A, .bnz false 41 0x15A5A), (br 0x63 5 0x15A5A, .bqa false 5 0x15A5A),
     (br 0x64 5 0x15A5A, .bqn false 5 0x15A5A), (br 0x65 0 0x15A5A, .call false 0x15A5A),
     (rrr 0x66 0 22 0 0, .jr false 22), (sy 0x67 0, .loop false), (rrr 0x68 0 22 0 0, .wait false 22),
     (br 0x69 41 0x15A5A, .spawn false 41 0x15A5A), (rrr 0x6A 41 22 0 0, .bind false 41 22),
     (rrr 0x6B 0 22 0 0, .unbind false 22), (rri 0x6C 0 22 3, .cancel false 22 3),
     (rrr 0x6D 0 22 0 0, .prio false 22), (sy 0x6E 0x5A5A5A, .trap false 0x5A5A5A), (sy 0x6F 0, .rtt false),
     (sy 0x70 0, .halt false), (sy 0x71 0, .yield false), (sy 0x72 0x5A5A5A, .ebrk false 0x5A5A5A),
     (rri 0x73 41 0 13, .mfc false 41 13), (rri 0x74 0 22 13, .mtc false 22 13),
     (en 0x75 22 51 13 41, .qpush false 22 51 13 41), (en 0x76 22 51 13 41, .qpop false 22 51 13 41)] = true := by decide

/-- R78, 0x80 to 0x9F. -/
theorem test_decode_vector : decodesAll
    [(vv 0x80 41 22 51 6 1, .vaddI false 41 22 51 6 1), (vv 0x81 41 22 51 6 1, .vsubI false 41 22 51 6 1),
     (vv 0x82 41 22 51 6 1, .vmulI false 41 22 51 6 1), (vv 0x83 41 22 51 6 1, .vminI false 41 22 51 6 1),
     (vv 0x84 41 22 51 6 1, .vmaxI false 41 22 51 6 1), (vv 0x85 41 22 51 6 1, .vand false 41 22 51 6 1),
     (vv 0x86 41 22 51 6 1, .vor false 41 22 51 6 1), (vv 0x87 41 22 51 6 1, .vxor false 41 22 51 6 1),
     (vv 0x88 41 22 51 6 1, .vshl false 41 22 51 6 1), (vv 0x89 41 22 51 6 1, .vshr false 41 22 51 6 1),
     (vv 0x8A 41 22 51 6 1, .vsra false 41 22 51 6 1), (vv 0x8B 5 22 51 6 1, .vceqI false 5 22 51 6 1),
     (vv 0x8C 5 22 51 6 1, .vcltI false 5 22 51 6 1), (vv 0x8D 5 22 51 6 1, .vcltuI false 5 22 51 6 1),
     (vv 0x8E 41 22 51 6 1, .vaddF false 41 22 51 6 1), (vv 0x8F 41 22 51 6 1, .vsubF false 41 22 51 6 1),
     (vv 0x90 41 22 51 6 1, .vmulF false 41 22 51 6 1), (vv 0x91 41 22 51 6 1, .vfmaF false 41 22 51 6 1),
     (vv 0x92 41 22 51 6 1, .vfmsF false 41 22 51 6 1), (vv 0x93 41 22 51 6 1, .vdivF false 41 22 51 6 1),
     (vv 0x94 41 22 0 6 1, .vsqrtF false 41 22 6 1), (vv 0x95 41 22 0 6 1, .vrcpF false 41 22 6 1),
     (vv 0x96 41 22 0 6 1, .vrsqF false 41 22 6 1), (vv 0x97 41 22 51 6 1, .vminF false 41 22 51 6 1),
     (vv 0x98 41 22 51 6 1, .vmaxF false 41 22 51 6 1), (vv 0x99 41 22 0 6 1, .vabsF false 41 22 6 1),
     (vv 0x9A 41 22 0 6 1, .vnegF false 41 22 6 1), (vv 0x9B 5 22 51 6 1, .vceqF false 5 22 51 6 1),
     (vv 0x9C 5 22 51 6 1, .vcltF false 5 22 51 6 1), (vv 0x9D 5 22 51 6 1, .vcleF false 5 22 51 6 1),
     (vv 0x9E 41 22 0 6 1, .vexp2F false 41 22 6 1), (vv 0x9F 41 22 0 6 1, .vlog2F false 41 22 6 1)] = true := by decide

/-- R78, 0xA0 to 0xB8. -/
theorem test_decode_vector_more : decodesAll
    [(vv 0xA0 41 22 0 6 1, .vcvtFI false 41 22 6 1), (vv 0xA1 41 22 0 6 1, .vcvtIF false 41 22 6 1),
     (vv 0xA2 41 22 3 6 1, .vpkE4m3 false 41 22 3 6 1), (vv 0xA3 41 22 3 6 1, .vupE4m3 false 41 22 3 6 1),
     (vv 0xA4 41 22 3 6 1, .vpkI8 false 41 22 3 6 1), (vv 0xA5 41 22 3 6 1, .vupI8 false 41 22 3 6 1),
     (vv 0xA6 41 22 1 6 1, .vpkBf16 false 41 22 1 6 1), (vv 0xA7 41 22 1 6 1, .vupBf16 false 41 22 1 6 1),
     (vv 0xA8 41 22 0 6 1, .vredaddF false 41 22 6 1), (vv 0xA9 41 22 0 6 1, .vredmaxF false 41 22 6 1),
     (vv 0xAA 41 22 0 6 1, .vredaddI false 41 22 6 1), (vv 0xAB 41 22 0 6 1, .vredmaxI false 41 22 6 1),
     (vv 0xAC 41 22 51 6 1, .vperm false 41 22 51 6 1), (vv 0xAD 41 22 31 6 1, .vbcast false 41 22 31 6 1),
     (vv 0xAE 41 22 33 6 1, .vslide false 41 22 33 6 1), (vv 0xAF 41 22 51 6 0, .vsel false 41 22 51 6),
     (vv 0xB0 41 22 0 6 1, .vmov false 41 22 6 1), (vv 0xB1 41 22 0 6 1, .vxm false 41 22 6 1),
     (vv 0xB2 41 22 51 6 1, .vins false 41 22 51 6 1), (vv 0xB3 41 22 51 0 0, .vext false 41 22 51),
     (vv 0xB4 41 0 5 6 1, .vtag false 41 5 6 1), (vv 0xB5 41 22 0 0 0, .vgtag false 41 22),
     (vv 0xB6 41 0 0 6 1, .viota false 41 6 1), (vv 0xB7 41 22 0 6 1, .vsplat false 41 22 6 1),
     (vv 0xB8 41 22 51 6 1, .vbscl false 41 22 51 6 1)] = true := by decide

/-- R79, 0xC0 to 0xE3. -/
theorem test_decode_array : decodesAll
    [(rri 0xC0 0 22 (10 * 2 ^ 5 + 29), .mset false 22 10 29), (rri 0xC1 41 0 (10 * 2 ^ 5 + 29), .mget false 41 10 29),
     (en 0xC2 22 51 29 41, .wld false 22 51 29 41), (en 0xC3 0 0 0 41, .mswap false 41),
     (en 0xC4 22 51 29 41, .mmul false 22 51 29 41), (en 0xC5 22 0 29 41, .macc false 22 29 41),
     (en 0xC6 22 0 29 41, .mdrain false 22 29 41), (en 0xC7 22 51 7 41, .mchain false 22 51 7 41),
     (en 0xC8 22 0 29 41, .mchk false 22 29 41), (en 0xC9 22 51 29 41, .mstat false 22 51 29 41),
     (en 0xCA 0 0 0 0, .mfence false), (rri 0xE0 0 22 (6 * 2 ^ 5 + 29), .cset false 22 6 29),
     (rri 0xE1 41 0 (6 * 2 ^ 5 + 29), .cget false 41 6 29), (en 0xE2 22 51 29 41, .cpy false 22 51 29 41),
     (en 0xE3 22 51 29 41, .cpyb false 22 51 29 41)] = true := by decide

/-- R79, 0xE4 to 0xF9. -/
theorem test_decode_engine : decodesAll
    [(en 0xE4 22 51 (2 ^ 4 + 13) 41, .rst false 22 51 1 13 41),
     (en 0xE5 22 51 (2 ^ 4 + 13) 41, .rstc false 22 51 1 13 41),
     (en 0xE6 22 0 (2 ^ 4 + 13) 41, .rld false 22 1 13 41),
     (en 0xE6 22 51 (2 ^ 4 + 13) 41, .rldBlock false 22 51 1 13 41),
     (en 0xE7 22 51 (2 ^ 4 + 13) 41, .rfadd false 22 51 1 13 41),
     (en 0xE8 22 51 (2 ^ 4 + 13) 41, .radd false 22 51 1 13 41),
     (en 0xE9 22 51 (2 ^ 4 + 13) 41, .rmax false 22 51 1 13 41),
     (en 0xEA 22 51 (2 ^ 4 + 13) 41, .rswp false 22 51 1 13 41), (en 0xEB 22 0 0 41, .tchk false 22 41),
     (en 0xEC 22 0 0 0, .twt false 22), (en 0xED 22 51 0 41, .tjoin false 22 51 41),
     (en 0xF0 22 51 13 41, .spush false 22 51 13 41), (en 0xF1 0 0 13 41, .spop false 13 41),
     (en 0xF2 22 0 13 0, .srel false 22 13), (en 0xF3 22 0 (2 ^ 4 + 13) 41, .sget false 22 1 13 41),
     (en 0xF4 22 0 (2 ^ 4 + 13) 41, .sset false 22 1 13 41), (en 0xF5 22 51 13 41, .mcast false 22 51 13 41),
     (en 0xF6 22 51 13 0, .rctl false 22 51 13), (en 0xF7 22 51 29 41, .tbinit false 22 51 29 41),
     (en 0xF8 22 0 29 41, .tbarr false 22 29 41), (en 0xF9 22 51 29 41, .tbwait false 22 51 29 41)] = true := by decide

/-- One word of each class bit by bit, with E = 1: add s5, s6, s7; ldw s5, h3[s6-4]; bz s5, -2; vadd.f v5, v6, v7 ?q1 zero;
cpy cd3, s5, s6 -> s7. -/
theorem test_decode_bits :
    decode 0b10000000100010100011000011100000#32 = .add true 5 6 7 ∧
    decode 0b10100010000010100110001101111111#32 = .ldw true 5 3 6 0x7F ∧
    decode 0b10110000100010111111111111111110#32 = .bz true 5 0x1FFFE ∧
    decode 0b11000111000010100011000011100101#32 = .vaddF true 5 6 7 1 1 ∧
    decode 0b11110001000010100011000011000111#32 = .cpy true 5 6 3 7 := by decide

/-- A reserved code, and a nonzero bit in a field that its row marks as zero, stand for no row (R64, R73). -/
theorem test_decode_reserved :
    decodeTableWord 32 (0x30 * 2 ^ 23) = none ∧ decodeTableWord 32 (0x5C * 2 ^ 23) = none ∧
    decodeTableWord 32 (0x77 * 2 ^ 23) = none ∧ decodeTableWord 32 (0xB9 * 2 ^ 23) = none ∧
    decodeTableWord 32 (rrr 0x01 1 2 3 1) = none ∧ decodeTableWord 32 (sy 0x67 1) = none := by decide

/-! ### Small states -/

/-- A descriptor that declares every register, with a region of each class. -/
def desc0 : Desc :=
  { Desc.zero with
    smax := 63, vmax := 63, qmax := 7, hmax := 15, ceil := 9, tbars := 32
    regions := [⟨0, .priv, 0, 0x10000⟩, ⟨1, .shared, 0x10000, 0x10000⟩, ⟨2, .inbox, 0x20000, 0x10000⟩,
      ⟨3, .weight, 0x200000, 0x10000⟩] }

/-- Record 0 of generation 1, running. -/
def rec0 : RecEntry := { RecEntry.free with gen := 1, state := .running, desc := desc0 }

/-- A page handle of the cell's own first page with every permission, and one of another cell's. -/
def near : Handle := ⟨0x87800000, 0, 0, 0⟩
def far : Handle := ⟨0x8F800000, 0, 0, 0x00001000⟩

/-- Its strand: s1 is 8, s2 is -2, s3 is 0x12345678, s4 is 256, q1 is 5; h1 is `near` and h2 is `far`. -/
def strand0 : Strand :=
  { Strand.reset with
    mode := .running, recid := 0x0010
    s := (((Strand.reset.s.set 1 8).set 2 0xFFFFFFFE).set 3 0x12345678).set 4 256
    q := Strand.reset.q.set 1 5
    h := (Strand.reset.h.set 1 near).set 2 far }

/-- A cell whose strand 0 runs record 0. -/
def cell0 : Cell := { Cell.reset false with strands := (Cell.reset false).strands.set 0 strand0, recs := [(0, rec0)] }

/-- The cell with its strand 0 changed. -/
def with0 (f : Strand → Strand) : Cell := cell0.setStrand 0 (f strand0)

/-- A chain of one module whose cell 0 is `c`, with a bundle of its strand 0 open. -/
def on (c : Cell) : State :=
  let s := State.reset.setCell 0 0 c
  { s with cur := some (s.nextBundle 0 0 0) }

/-- Nothing holds a syllable back: every register is declared and none waits, and the landing queue has room. -/
def plain (c : Cell) : Bool :=
  let st := c.strand 0
  let d := (c.record st.entry).desc
  d.smax == 63 && d.vmax == 63 && d.qmax == 7 && d.hmax == 15 && st.pend == [] && st.delivered == [] && decide (st.landing.length < 32)

theorem cell_on (c : Cell) : (on c).cell 0 0 = c := rfl
theorem strand_on (c : Cell) : (on c).strand 0 0 0 = c.strand 0 := rfl
theorem opened_on (c : Cell) : (on c).Opened 0 0 0 := ⟨rfl, by decide⟩

theorem ready_on {c : Cell} (h : plain c = true) (reads dests : List (BitVec 6)) : (on c).Ready 0 0 0 reads dests := by
  simp only [plain, Bool.and_eq_true, beq_iff_eq, decide_eq_true_eq] at h
  obtain ⟨⟨⟨⟨⟨⟨h1, h2⟩, h3⟩, h4⟩, h5⟩, h6⟩, h7⟩ := h
  have hp : ((on c).strand 0 0 0).pend = [] := h5
  have hd : ((on c).strand 0 0 0).delivered = [] := h6
  refine ⟨opened_on c, .inr fun r _ => ?_, ⟨by rw [hp]; simp, by rw [hd]; simp⟩, h7⟩
  have : ((on c).desc 0 0 0).smax = 63 := h1
  omega

theorem declares_on {c : Cell} (h : plain c = true) :
    (∀ ns, (∀ n ∈ ns, n ≤ 7) → (on c).DeclaresQ 0 0 0 ns) ∧ (∀ ns, (∀ n ∈ ns, n ≤ 15) → (on c).DeclaresH 0 0 0 ns) ∧
      ∀ rs, (on c).DeclaresV 0 0 0 rs := by
  simp only [plain, Bool.and_eq_true, beq_iff_eq, decide_eq_true_eq] at h
  obtain ⟨⟨⟨⟨⟨⟨h1, h2⟩, h3⟩, h4⟩, h5⟩, h6⟩, h7⟩ := h
  have e1 : ((on c).desc 0 0 0).vmax = 63 := h2
  have e2 : ((on c).desc 0 0 0).qmax = 7 := h3
  have e3 : ((on c).desc 0 0 0).hmax = 15 := h4
  exact ⟨fun ns hn => .inr (by simpa [e2] using hn), fun ns hn => .inr (by simpa [e3] using hn), fun rs => .inr fun r _ => by omega⟩

theorem readyV_on {c : Cell} (h : plain c = true) (hc : c.spire = false) (vecs : List (BitVec 6)) (d : BitVec 6) (q : BitVec 3)
    (w : BitVec 2) (reads names : List (BitVec 6)) (hv : ∀ r ∈ vecs, clusterOf r.toNat = clusterOf d.toNat)
    (hw : w.toNat ≤ 1) : (on c).ReadyV 0 0 0 vecs d q w reads names :=
  ⟨ready_on h _ _, hc, (declares_on h).2.2 _, (declares_on h).1 _ (by simp; omega), hv, hw⟩

/-! ### Checks of well-formedness: for each, the last value that it admits and the first that it refuses -/

/-- Of each pair the first is well formed and the second is not. -/
def admitsOnly (l : List (Instr × Instr)) : Bool := l.all fun p => p.1.wellFormed && !p.2.wellFormed

/-- R63, R64, R74 to R79: an ill-formed term for each check, beside a well-formed one. -/
theorem test_wellFormed :
    admitsOnly
     [(.cmp true 1 2 3 5, Instr.cmp true 1 2 3 6), (.shli true 1 2 31, .shli true 1 2 32), (.mfs true 1 11, .mfs true 1 12),
      (.mts true 1 4, .mts true 1 5), (.mts true 1 10, .mts true 1 9), (.rdid true 1 5, .rdid true 1 6),
      (.pand true 7 7 7, .pand true 8 7 7), (.pts true 1 7, .pts true 1 8), (.pfs true 7 1, .pfs true 8 1),
      (.vlds true 1 1 62 0 0, .vlds true 1 1 63 0 0), (.xlat true 15 1 2, .xlat true 16 1 2), (.hinv true 15, .hinv true 16),
      (.hchk true 1 15, .hchk true 1 16), (.fence true 2 4, .fence true 3 4), (.fence true 2 4, .fence true 2 5)] = true ∧
    admitsOnly
     [(.bqa true 7 0, .bqa true 8 0), (.spawn true 56 0, .spawn true 57 0), (.cancel true 1 3, .cancel true 1 4),
      (.mfc true 1 13, .mfc true 1 14), (.mtc true 1 13, .mtc true 1 14), (.qpush true 1 2 3 1, .qpush true 1 2 3 0),
      (.vaddI true 1 2 3 0 1, .vaddI true 1 2 3 0 2), (.vceqI true 7 2 3 0 1, .vceqI true 8 2 3 0 1),
      (.vbcast true 1 2 31 0 0, .vbcast true 1 2 32 0 0), (.vslide true 1 2 33 0 0, .vslide true 1 2 32 0 0)] = true ∧
    admitsOnly
     [(.mset true 1 10 0, .mset true 1 11 0), (.mchain true 1 2 7 0, .mchain true 1 2 8 0), (.mstat true 1 2 14 1, .mstat true 1 2 15 1),
      (.mstat true 1 2 14 1, .mstat true 1 2 14 0), (.cset true 1 6 0, .cset true 1 7 0), (.rld true 1 0 1 1, .rld true 1 0 1 0),
      (.rldBlock true 1 1 0 1 1, .rldBlock true 1 0 0 1 1), (.tchk true 1 1, .tchk true 1 0), (.tjoin true 1 2 1, .tjoin true 1 2 0),
      (.spush true 1 2 15 0, .spush true 1 2 16 0), (.spop true 15 1, .spop true 15 0), (.sget true 1 0 0 1, .sget true 1 0 0 0),
      (.rctl true 1 2 15, .rctl true 1 2 16), (.reservedEncoding 0x18000000, .reservedEncoding 0x00800020)] = true := by decide


/-! ### Witnesses: for the hypotheses of each statement, states and operands that meet them -/

/-- StepRunsDecoded: an open bundle, an agenda with a step (a reset), and an agenda that is done with a bundle chosen. -/
theorem wit_StepRunsDecoded :
    ((on cell0).cur = some ⟨0, 0, 0, 0, []⟩ ∧ ((on cell0).cell 0 0).flips = []) ∧
    (let s := { State.reset with todo := [(Instr.moduleReset, Focus.zero)] }
     s.cur = none ∧ s.mods ≠ [] ∧ (∃ t, exec .moduleReset { s with todo := [], focus := Focus.zero } = .next t)) ∧
    (let s := { State.reset with phase := .open' 0 ⟨0, 0, 0, 0, []⟩ }
     s.cur = none ∧ s.mods ≠ [] ∧ s.todo = []) :=
  ⟨⟨rfl, rfl⟩, ⟨rfl, by decide, ⟨_, rfl⟩⟩, rfl, by decide, rfl⟩

/-- StepAlwaysAnswers and StepKeepsMemoryCanonical: the machine after reset, and its first step. -/
theorem wit_StepKeepsMemoryCanonical :
    State.reset.mods ≠ [] ∧ (∀ m u, memWf (State.reset.cell m u).mem = true) ∧ ∃ t, step State.reset = .next t := by
  refine ⟨by decide, fun m u => ?_, ⟨_, rfl⟩⟩
  have : (State.reset.cell m u).mem = [] := by
    simp only [State.cell, State.mod, State.reset, tget, Module.reset, tget]
    split <;> rfl
  rw [this]; rfl

/-- BundleReadsBeforeWrites: a syllable that joins its bundle is the seventh of eight syllables, at the last address but one; DecodeOfEncode on the same syllable. -/
theorem wit_BundleReadsBeforeWrites_joins :
    let i := Instr.add false 1 2 3
    let y := ((on cell0).sees 0 0 0 (.nop false)).syl .scalar true
    let b : Bundle := ⟨0, 0, 0, 32760, List.replicate 6 y⟩
    i.isSyllable = true ∧ i.wellFormed = true ∧ (encode i).getLsbD 31 = false ∧
      ({ on cell0 with cur := some b } : State).cur = some b ∧ b.syls.length + 1 < 8 ∧
      b.pc.toNat + b.syls.length + 1 < 32768 := by
  refine ⟨rfl, rfl, rfl, rfl, ?_, ?_⟩ <;> simp

/-- BundleReadsBeforeWrites: 30 results in flight, and two registers. -/
theorem wit_BundleReadsBeforeWrites :
    let s := on (with0 fun st => { st with landing := List.replicate 30 ⟨.s 9, .word 0, 1, 0, 0, 0, 0, none⟩, pc := 32765 })
    s.Ready 0 0 0 [62, 63] [62, 63] ∧ s.ps 0 0 0 62 ≠ s.ps 0 0 0 63 ∧ (s.strand 0 0 0).landing.length < 31 ∧
      (s.strand 0 0 0).pc.toNat < 32766 :=
  ⟨ready_on (by decide) _ _, by decide, by decide, by decide⟩

/-- ResultsLand: a result for each kind of register, the first of them due. -/
theorem wit_ResultsLand (reg : Reg) (val : Val) :
    let l : Landing := ⟨reg, val, 7, 0, 0, 0, 0, none⟩
    let r : List Landing := [⟨.s 9, .word 0, 8, 0, 0, 0, 0, none⟩]
    let s := on (with0 fun st => { st with landing := l :: r, beat := 7 })
    s.focus.m = 0 ∧ s.focus.u = 0 ∧ s.focus.j = 0 ∧ (s.strand 0 0 0).landing = l :: r ∧ l.due ≤ (s.strand 0 0 0).beat ∧
      (∀ x ∈ r, (s.strand 0 0 0).beat < x.due) ∧ l.taint = none ∧ l.reg = reg ∧ l.val = val := by
  refine ⟨rfl, rfl, rfl, rfl, Nat.le_refl 7, ?_, rfl, rfl, rfl⟩
  intro x hx
  cases List.mem_singleton.mp hx
  show 7 < 8
  decide

/-- IllFormedTraps: a reserved code, and a condition code above 5, at level 1. -/
theorem wit_IllFormedTraps :
    let s := on (with0 fun st => { st with tl := 1 })
    s.Opened 0 0 0 ∧ (s.strand 0 0 0).tl ≠ 2 ∧ (Instr.cmp true 1 2 3 6).isSyllable = true ∧
      (encode (.cmp true 1 2 3 6)).getLsbD 31 = true ∧ (Instr.cmp true 1 2 3 6).wellFormed = false ∧
      (Instr.reservedEncoding 0x98000000).isSyllable = true ∧ (encode (.reservedEncoding 0x98000000)).getLsbD 31 = true :=
  ⟨opened_on _, by decide, by decide, by decide, by decide, by decide, by decide⟩

/-- TrapsEnter: levels 0 and 1, and level 2 for a kill. -/
theorem wit_TrapsEnter :
    (∀ tl : BitVec 2, tl ≠ 2 →
      (on (with0 fun st => { st with tl := tl })).Ready 0 0 0 [] [] ∧ ((on (with0 fun st => { st with tl := tl })).strand 0 0 0).tl ≠ 2) ∧
    (let s := on (with0 fun st => { st with tl := 2 })
     s.Opened 0 0 0 ∧ (s.strand 0 0 0).tl = 2 ∧ (s.strand 0 0 0).mode = .running) :=
  ⟨fun _ h => ⟨ready_on rfl _ _, h⟩, opened_on _, rfl, rfl⟩

/-- PrivilegeTraps: level 0, the last privileged register and the last in-channel. -/
theorem wit_PrivilegeTraps :
    (on cell0).Opened 0 0 0 ∧ ((on cell0).strand 0 0 0).tl = 0 ∧ ((on cell0).strand 0 0 0).pend = [] ∧
      (13 : BitVec 11).toNat ≤ 13 ∧ ((on cell0).cell 0 0).spire = false ∧ (63 : BitVec 6) ≠ 0 ∧ (15 : BitVec 5).toNat ≤ 15 :=
  ⟨opened_on _, rfl, rfl, by decide, rfl, by decide, by decide⟩

/-- A vector register of tag `tag` with lanes `f`. -/
def vreg (tag : BitVec 3) (f : Nat → Word) : VReg := ⟨Vector.ofFn fun j : Fin 32 => f j, tag⟩

/-- A cell whose strand holds `x` in v1, `y` in v2 and `z` in v3. -/
def vecs (x y z : VReg) : Cell := with0 fun st => { st with v := ((st.v.set 1 x).set 2 y).set 3 z }

/-- OperandTraps: s63 above a declaration of s0 to s62; a zero divisor; v1 of tag INT8 before vadd.f; clusters X and Y. -/
theorem wit_OperandTraps :
    (let s := on { cell0 with recs := [(0, { rec0 with desc := { desc0 with smax := 62 } })] }
     s.Opened 0 0 0 ∧ (s.strand 0 0 0).tl ≠ 2 ∧ (s.cell 0 0).spire = false ∧ (s.desc 0 0 0).smax < (63 : BitVec 6).toNat) ∧
    ((on cell0).Ready 0 0 0 [1, 0] [5] ∧ (on cell0).rs 0 0 0 0 = 0) ∧
    (let s := on (vecs (vreg 3 fun _ => 0) VReg.zero VReg.zero)
     s.ReadyV 0 0 0 [3, 1, 2] 3 0 0 [] [] ∧ ¬ (s.rv 0 0 0 1).Has 2) ∧
    ((on cell0).Opened 0 0 0 ∧ clusterOf (32 : BitVec 6).toNat ≠ clusterOf (31 : BitVec 6).toNat ∧ (1 : BitVec 2).toNat ≤ 1) :=
  ⟨⟨opened_on _, by decide, rfl, by decide⟩, ⟨ready_on rfl _ _, rfl⟩,
    ⟨readyV_on rfl rfl _ _ _ _ _ _ (by decide) (by decide), by decide⟩, opened_on _, by decide, by decide⟩

/-- RttReturns: levels 1 and 2, with a result to land again. -/
theorem wit_RttReturns (tl : BitVec 2) (h : tl ≠ 0) :
    let b : TrapBank := { TrapBank.zero with adv := true, replay := [⟨.s 9, .word 5, 3, 0, 0, 0, 0, none⟩] }
    let s := on (with0 fun st => { st with tl := tl, bank1 := b, bank2 := b })
    s.Ready 0 0 0 [] [] ∧ (s.strand 0 0 0).tl ≠ 0 ∧ (s.strand 0 0 0).landing = [] :=
  ⟨ready_on rfl _ _, h, rfl⟩

/-- The scalar statements (ScalarTwoSource, MultiplyDivide, MovesAndBitFields, ScalarImmediates): every register, with a
nonzero divisor in s3 and the largest shift. -/
theorem wit_Scalar (reads dests : List (BitVec 6)) :
    (on cell0).Ready 0 0 0 reads dests ∧ (on cell0).rs 0 0 0 3 ≠ 0 ∧ (31 : BitVec 11).toNat ≤ 31 :=
  ⟨ready_on rfl _ _, by decide, by decide⟩

/-- PredicateResults: q7. -/
theorem wit_PredicateResults :
    (7 : BitVec 6).toNat ≤ 7 ∧ (on cell0).Ready 0 0 0 [] [] ∧ (on cell0).DeclaresQ 0 0 0 [7, 7, 7] ∧
      (on cell0).Ready 0 0 0 [63] [] ∧ (on cell0).Ready 0 0 0 [] [63] :=
  ⟨by decide, ready_on rfl _ _, (declares_on rfl).1 _ (by simp), ready_on rfl _ _, ready_on rfl _ _⟩

/-- SpecialReads: a cell, at level 1 for mfc; a Spire core for the identity words of R160. -/
theorem wit_SpecialReads :
    (let s := on (with0 fun st => { st with tl := 1 })
     s.Ready 0 0 0 [] [63] ∧ (s.cell 0 0).spire = false ∧ (s.strand 0 0 0).tl ≠ 0) ∧
    (let s := State.reset.setCell 0 1031 ((Cell.reset true).setStrand 0 { Strand.reset with mode := .running })
     let s := { s with cur := some (s.nextBundle 0 1031 0) }
     s.Ready 0 1031 0 [] [63] ∧ 1024 ≤ 1031 ∧ 1031 < 1032) :=
  ⟨⟨ready_on rfl _ _, rfl, by decide⟩,
    ⟨⟨rfl, by decide⟩, .inl rfl, ⟨by simp only [State.strand]; decide, by simp only [State.strand]; decide⟩, by decide⟩,
    by decide, by decide⟩

/-- SpecialWrites: the largest word of each register with reserved bits, at level 1 for mtc, and an XDATA write that R355
admits. -/
theorem wit_SpecialWrites :
    let s (x : Word) := on (with0 fun st => { st with tl := 1, s := st.s.set 5 x })
    (∀ x, (s x).Ready 0 0 0 [5] [] ∧ ((s x).strand 0 0 0).tl ≠ 0) ∧
      ((s 7).rs 0 0 0 5).toNat < 8 ∧ ((s 15).rs 0 0 0 5).toNat < 16 ∧ ((s 31).rs 0 0 0 5).toNat < 32 ∧
      (s 0x00FF00F3).rs 0 0 0 5 &&& 0xFF00FF0C = 0 ∧ (s 0x7FC0).rs 0 0 0 5 &&& 0xFFFF803F = 0 ∧
      ((s 0xFF).rs 0 0 0 5).toNat < 2 ^ 8 ∧ ((s 0x7FFF).rs 0 0 0 5).toNat < 2 ^ 15 ∧ ((s 0x3FFF).rs 0 0 0 5).toNat < 2 ^ 14 ∧
      ((s 0x2FF).rs 0 0 0 5).toNat < 3 * 2 ^ 8 ∧ 0x10000 ≤ ((s 0x10000).rs 0 0 0 5).toNat ∧
      (((s 0).cell 0 0).xentry 0).refuses ((s 0).chip 0) 0 0 ((s 0).rs 0 0 0 5) true = false :=
  ⟨fun _ => ⟨ready_on rfl _ _, (by decide : (1 : BitVec 2) ≠ 0)⟩, by decide, by decide, by decide, by decide, by decide, by decide,
    by decide, by decide,
    by decide, by decide, by decide⟩


/-- A cell with `mem` in its D-store and the handle h1 changed. -/
def handled (w0 : Word) : Cell := with0 fun st => { st with h := st.h.set 1 { near with w0 := w0 } }

/-- AccessChecks: for each check the last access that passes it and the first that does not: an invalid handle, one of another
cell, a negative offset, the end of the page, no R, no region, a region of another class, a misaligned offset, no W, no LA, a
discarded page, and a race. -/
theorem wit_AccessChecks :
    ((on cell0).cell 0 0).spire = false ∧
    ((on (handled 0)).rh 0 0 0 1).valid = false ∧ ((on (handled 0x40000000)).rh 0 0 0 1).rev = true ∧
    ((on cell0).rh 0 0 0 1).valid = true ∧ ((on cell0).rh 0 0 0 1).aper = 0 ∧ ((on cell0).rh 0 0 0 2).aper ≠ 0 ∧
    (65532 : Int) + (4 : Nat) ≤ 65536 ∧ (65536 : Int) < 65533 + (4 : Nat) ∧
    ((on cell0).rh 0 0 0 1).permR = true ∧ ((on (handled 0x83800000)).rh 0 0 0 1).permR = false ∧
    regionCheck ((on cell0).desc 0 0 0) true .store 65532 4 = none ∧
    regionCheck ((on cell0).desc 0 0 0) true .store 0x20000 4 = some causeBounds ∧
    regionCheck ((on cell0).desc 0 0 0) true .load 0x30000 4 = some causeDecl ∧
    (65532 : Int).toNat % 4 = 0 ∧ (65530 : Int).toNat % 4 ≠ 0 ∧
    ((on cell0).rh 0 0 0 1).permW = true ∧ ((on (handled 0x85800000)).rh 0 0 0 1).permW = false ∧
    ((on (handled 0x86800000)).rh 0 0 0 1).permLa = false ∧
    ((on cell0).rh 0 0 0 1).disc = false ∧ ((on (handled 0x87C00000)).rh 0 0 0 1).disc = true ∧
    (let r : Race := ⟨0x10000, 0x10000, some (0x0010, 1), none⟩
     ((on { cell0 with races := [r] }).cell 0 0).raceAt 0x10000 = some r ∧ r.conflict (0x0010, 0) 0 = true ∧
       r.conflict (0x0010, 1) 0 = false) := by
  decide

/-- ScalarLoadsAndStores and LocalAtomics: the last word of the page, by s4 = 65472 and an offset of 15 words, and by
s4 = 65532; a discarded page for its second clause. -/
def atEnd (x : Word) : Cell := with0 fun st => { st with s := st.s.set 4 x }

theorem wit_ScalarLoads :
    let s := on (atEnd 65472)
    s.Ready 0 0 0 [4] [63] ∧ s.DeclaresH 0 0 0 [1] ∧
      s.ea 0 0 0 1 ((s.rs 0 0 0 4 + (15 : BitVec 7).signExtend 32 * BitVec.ofNat 32 4).toInt) 4 .load = .ok 65532 false false ∧
      s.ea 0 0 0 1 ((s.rs 0 0 0 4 + (15 : BitVec 7).signExtend 32 * BitVec.ofNat 32 2).toInt) 2 .load = .ok 65502 false false ∧
      s.ea 0 0 0 1 ((s.rs 0 0 0 4 + (15 : BitVec 7).signExtend 32 * BitVec.ofNat 32 1).toInt) 1 .load = .ok 65487 false false ∧
      s.Reaches 0 0 .load 65532 4 ∧ s.Reaches 0 0 .load 65502 2 ∧ s.Reaches 0 0 .load 65487 1 :=
  ⟨ready_on rfl _ _, (declares_on rfl).2.1 _ (by simp), by decide, by decide, by decide, ⟨by decide, rfl, by decide⟩,
    ⟨by decide, rfl, by decide⟩, ⟨by decide, rfl, by decide⟩⟩

theorem wit_ScalarLoads_discarded :
    let s := on (handled 0x87C00000)
    s.Ready 0 0 0 [1] [63] ∧ s.DeclaresH 0 0 0 [1] ∧
      s.ea 0 0 0 1 ((s.rs 0 0 0 1 + (0 : BitVec 7).signExtend 32 * BitVec.ofNat 32 4).toInt) 4 .load = .ok 8 true false ∧
      s.ea 0 0 0 1 ((s.rs 0 0 0 1 + (0 : BitVec 7).signExtend 32 * BitVec.ofNat 32 2).toInt) 2 .load = .ok 8 true false ∧
      s.ea 0 0 0 1 ((s.rs 0 0 0 1 + (0 : BitVec 7).signExtend 32 * BitVec.ofNat 32 1).toInt) 1 .load = .ok 8 true false ∧
      s.Reaches 0 0 .load 8 4 ∧ s.Reaches 0 0 .load 8 2 ∧ s.Reaches 0 0 .load 8 1 :=
  ⟨ready_on rfl _ _, (declares_on rfl).2.1 _ (by simp), by decide, by decide, by decide, ⟨by decide, rfl, by decide⟩,
    ⟨by decide, rfl, by decide⟩, ⟨by decide, rfl, by decide⟩⟩

theorem wit_ScalarStores :
    let s := on (atEnd 65472)
    s.Ready 0 0 0 [3, 4] [] ∧ s.DeclaresH 0 0 0 [1] ∧
      s.ea 0 0 0 1 ((s.rs 0 0 0 4 + (15 : BitVec 7).signExtend 32 * BitVec.ofNat 32 4).toInt) 4 .store = .ok 65532 false false ∧
      s.ea 0 0 0 1 ((s.rs 0 0 0 4 + (15 : BitVec 7).signExtend 32 * BitVec.ofNat 32 2).toInt) 2 .store = .ok 65502 false false ∧
      s.ea 0 0 0 1 ((s.rs 0 0 0 4 + (15 : BitVec 7).signExtend 32 * BitVec.ofNat 32 1).toInt) 1 .store = .ok 65487 false false ∧
      s.Reaches 0 0 .store 65532 4 ∧ s.Reaches 0 0 .store 65502 2 ∧ s.Reaches 0 0 .store 65487 1 :=
  ⟨ready_on rfl _ _, (declares_on rfl).2.1 _ (by simp), by decide, by decide, by decide, ⟨by decide, rfl, by decide⟩,
    ⟨by decide, rfl, by decide⟩, ⟨by decide, rfl, by decide⟩⟩

theorem wit_LocalAtomics :
    let s := on (atEnd 65532)
    s.Ready 0 0 0 [4, 3] [63] ∧ s.Ready 0 0 0 [4, 3, 63] [63] ∧ s.DeclaresH 0 0 0 [1] ∧
      s.ea 0 0 0 1 (s.rs 0 0 0 4).toInt 4 .atomic = .ok 65532 false false ∧ s.Reaches 0 0 .atomic 65532 4 ∧
      memWord (s.cell 0 0).mem 65532 = s.rs 0 0 0 63 ∧ memWord (s.cell 0 0).mem 65532 ≠ s.rs 0 0 0 3 :=
  ⟨ready_on rfl _ _, ready_on rfl _ _, (declares_on rfl).2.1 _ (by simp), by decide, ⟨by decide, rfl, by decide⟩, by decide,
    by decide⟩

/-- VectorLoads and VectorStores: the last 128 bytes of the page (s4 = 65408); one word for all lanes; a stride of 4 in s5; and
the offsets 4 j in v1. -/
def vmem : Cell := with0 fun st =>
  { st with s := (st.s.set 4 65408).set 5 4, v := st.v.set 1 (vreg 1 fun j => BitVec.ofNat 32 (65408 + 4 * j)) }

theorem wit_VectorLoads :
    let s := on vmem
    let c := fun j : Nat => 65408 + 4 * j
    s.DeclaresH 0 0 0 [1] ∧ s.DeclaresV 0 0 0 [3] ∧ s.DeclaresV 0 0 0 [1] ∧ (s.cell 0 0).spire = false ∧
      (∀ j < 32, (memWord (s.cell 0 0).mem (c j)).toNat < 2 ^ 20) ∧ (∀ j < 32, (s.cell 0 0).corrupt (c j) 4 = false) ∧
      (s.cell 0 0).flips = [] ∧ s.Ready 0 0 0 [4] [] ∧
      s.ea 0 0 0 1 (s.rs 0 0 0 4 + (0 : BitVec 4).signExtend 32 * 128).toInt 128 .load = .ok (c 0) false false ∧
      (∀ j, c j = c 0 + 4 * j) ∧ (s.cell 0 0).held .load (c 0) 128 = false ∧
      s.ea 0 0 0 1 (s.rs 0 0 0 4 + (0 : BitVec 4).signExtend 32 * 128).toInt 4 .load = .ok (c 0) false false ∧
      (∀ j < 32, (s.cell 0 0).held .load (c j) 4 = false) ∧ s.Ready 0 0 0 [4, 4 + 1] [] ∧ (4 : BitVec 6).toNat % 2 = 0 ∧
      (∀ j : Nat, j < 32 → s.ea 0 0 0 1 (BitVec.ofInt 32 ((s.rs 0 0 0 4 + (0 : BitVec 4).signExtend 32 * 128).toInt +
        j * (s.rs 0 0 0 (4 + 1)).toInt)).toInt 4 .load = .ok (c j) false false) ∧
      s.Ready 0 0 0 [] [] ∧ clusterOf (1 : BitVec 6).toNat = clusterOf (3 : BitVec 6).toNat ∧ (s.rv 0 0 0 1).tag = 1 ∧
      ∀ j < 32, s.ea 0 0 0 1 ((s.rv 0 0 0 1).lanes.getD j 0 + (0 : BitVec 4).signExtend 32 * 128).toInt 4 .load =
        .ok (c j) false false :=
  ⟨(declares_on rfl).2.1 _ (by simp), (declares_on rfl).2.2 _, (declares_on rfl).2.2 _, rfl, by decide, by decide, rfl,
    ready_on rfl _ _, by decide, fun j => rfl, by decide, by decide, by decide, ready_on rfl _ _, by decide, by decide,
    ready_on rfl _ _, by decide, by decide, by decide⟩

theorem wit_VectorStores :
    let s := on vmem
    let c := fun j : Nat => 65408 + 4 * j
    s.DeclaresH 0 0 0 [1] ∧ s.DeclaresV 0 0 0 [3] ∧ (s.cell 0 0).spire = false ∧ (s.rv 0 0 0 3).tag = 0 ∧
      s.Ready 0 0 0 [4] [] ∧
      s.ea 0 0 0 1 (s.rs 0 0 0 4 + (0 : BitVec 4).signExtend 32 * 128).toInt 128 .store = .ok (c 0) false false ∧
      (s.cell 0 0).held .store (c 0) 128 = false ∧ s.Ready 0 0 0 [4, 4 + 1] [] ∧
      (∀ j : Nat, j < 32 → s.ea 0 0 0 1 (BitVec.ofInt 32 ((s.rs 0 0 0 4 + (0 : BitVec 4).signExtend 32 * 128).toInt +
        j * (s.rs 0 0 0 (4 + 1)).toInt)).toInt 4 .store = .ok (c j) false false ∧
        (s.cell 0 0).held .store (c j) 4 = false) ∧
      s.Ready 0 0 0 [] [] ∧ s.DeclaresV 0 0 0 [1] ∧
      ∀ j < 32, s.ea 0 0 0 1 ((s.rv 0 0 0 1).lanes.getD j 0 + (0 : BitVec 4).signExtend 32 * 128).toInt 4 .store =
        .ok (c j) false false ∧ (s.cell 0 0).held .store (c j) 4 = false :=
  ⟨(declares_on rfl).2.1 _ (by simp), (declares_on rfl).2.2 _, rfl, by decide, ready_on rfl _ _, by decide, by decide,
    ready_on rfl _ _, by decide, ready_on rfl _ _, (declares_on rfl).2.2 _, by decide⟩

/-- HandleInstructions: the last entry of the translation set, after one that is not valid, and h15. -/
theorem wit_HandleInstructions :
    let x : XEntry := ⟨0x87800000, 0x00081234, 0⟩
    let s := on { with0 fun st => { st with s := (st.s.set 5 8).set 6 0x12340000 } with xset := [(7, ⟨0, 0x00081234, 0⟩), (255, x)] }
    s.Ready 0 0 0 [5, 6] [] ∧ (15 : BitVec 6).toNat ≤ 15 ∧ s.DeclaresH 0 0 0 [15] ∧ (255, x) ∈ (s.cell 0 0).xset ∧
      x.flags.getLsbD 31 = true ∧
      x.tag.toNat = (s.rs 0 0 0 5).toNat % 2 ^ 16 * 2 ^ 16 + (s.rs 0 0 0 6).toNat / 2 ^ 16 ∧
      (∀ p ∈ (s.cell 0 0).xset.takeWhile (fun p => p.1 != 255), p.2.flags.getLsbD 31 = false) ∧
      (∀ p ∈ (s.cell 0 0).xset, p.1 = 255 → p.2 = x) ∧ s.Ready 0 0 0 [] [] ∧ s.Ready 0 0 0 [] [63] :=
  ⟨ready_on rfl _ _, by decide, (declares_on rfl).2.1 _ (by simp), by decide, by decide, by decide, by decide, by decide,
    ready_on rfl _ _, ready_on rfl _ _⟩

/-- FenceCompletes: a full fence of the chain with nothing in flight. -/
theorem wit_FenceCompletes :
    let s := on cell0
    let v := s.sees 0 0 0 (.nop true)
    s.Ready 0 0 0 [] [] ∧ (2 : BitVec 2).toNat ≤ 2 ∧ (4 : BitVec 3).toNat ≤ 4 ∧ v.readsOpen 4 = false ∧
      v.writesOpen 4 = false ∧ v.tokensOpen = false ∧ (s.strand 0 0 0).errs = [] :=
  ⟨ready_on rfl _ _, by decide, by decide, by decide, by decide, by decide, rfl⟩

/-- The vector statements (VectorIntegerLanes, VectorFpLanes, VectorConversions): v1 and v2 of the required tag into v3 in both
modes, under q1, in merge mode into a register with the result's tag. -/
theorem wit_Vector (tag : BitVec 3) (w : BitVec 2) (hw : w.toNat ≤ 1) (reads names : List (BitVec 6)) :
    let x := vreg tag fun j => BitVec.ofNat 32 j
    let s := on (vecs x x x)
    s.ReadyV 0 0 0 [3, 1, 2] 3 1 w reads names ∧ s.ReadyV 0 0 0 [3, 1] 3 1 w reads names ∧ (s.rv 0 0 0 1).Has tag ∧
      (s.rv 0 0 0 2).Has tag ∧ s.Merges 0 0 0 3 1 w tag :=
  ⟨readyV_on rfl rfl _ _ _ _ _ _ (by decide) hw, readyV_on rfl rfl _ _ _ _ _ _ (by decide) hw, .inr rfl, .inr rfl,
    .inr (.inr (.inr (.inr rfl)))⟩

/-- VectorIntegerLanes, the bitwise forms: RAW with a tag, and the tag with RAW. -/
theorem wit_VectorIntegerLanes :
    let s := on (vecs VReg.zero (vreg 4 fun _ => 0) VReg.zero)
    s.ReadyV 0 0 0 [3, 1, 2] 3 0 0 [] [] ∧ (s.rv 0 0 0 1).tag = 0 ∧ (s.rv 0 0 0 2).tag = 4 ∧ s.Merges 0 0 0 3 0 0 4 ∧
      (s.rv 0 0 0 2).tag = 4 ∧ (s.rv 0 0 0 1).Has 4 :=
  ⟨readyV_on rfl rfl _ _ _ _ _ _ (by decide) (by decide), rfl, rfl, .inl rfl, rfl, .inl rfl⟩

/-- VectorCompares: into q7. -/
theorem wit_VectorCompares (tag : BitVec 3) :
    let x := vreg tag fun j => BitVec.ofNat 32 j
    let s := on (vecs x x x)
    s.ReadyV 0 0 0 [1, 2] 1 1 0 [] [] ∧ (7 : BitVec 6).toNat ≤ 7 ∧ s.DeclaresQ 0 0 0 [7] ∧ (s.rv 0 0 0 1).Has tag ∧
      (s.rv 0 0 0 2).Has tag :=
  ⟨readyV_on rfl rfl _ _ _ _ _ _ (by decide) (by decide), by decide, (declares_on rfl).1 _ (by simp), .inr rfl, .inr rfl⟩

/-- VectorConversions, vbscl: scales of 2^20 - 1 under tag SCL with FP32 lanes. -/
theorem wit_VectorConversions :
    let s := on (vecs (vreg 7 fun _ => 0xFFFFF) (vreg 2 fun _ => 0x3F800000) VReg.zero)
    s.ReadyV 0 0 0 [3, 1, 2] 3 0 0 [] [] ∧ (s.rv 0 0 0 1).Has 7 ∧ (s.rv 0 0 0 2).Has 2 ∧ s.Merges 0 0 0 3 0 0 2 ∧
      ∀ j < 32, (s.rq 0 0 0 0).getLsbD j = true → ((s.rv 0 0 0 1).lanes.getD j 0).toNat < 2 ^ 20 :=
  ⟨readyV_on rfl rfl _ _ _ _ _ _ (by decide) (by decide), .inr rfl, .inr rfl, .inl rfl, by decide⟩

/-- VectorReductionsAndMoves: the clauses that wit_Vector does not meet: vsel's tags, lane 31, a slide by -31, the exchange of the
clusters, and the scalar operands. -/
theorem wit_VectorReductionsAndMoves :
    let s := on (vecs (vreg 1 fun j => BitVec.ofNat 32 j) (vreg 1 fun j => BitVec.ofNat 32 j) VReg.zero)
    (s.rv 0 0 0 1).tag = 1 ∧ (s.rv 0 0 0 2).Has 1 ∧ (31 : BitVec 6).toNat ≤ 31 ∧ (33 : BitVec 6) ≠ 32 ∧
      s.ReadyV 0 0 0 [3] 3 0 0 [] [] ∧ s.DeclaresV 0 0 0 [3, 35] ∧ s.ReadyV 0 0 0 [3] 3 0 0 [62, 63] [] ∧
      s.ReadyV 0 0 0 [3] 3 0 0 [63] [] ∧ s.Merges 0 0 0 3 0 0 1 ∧ s.ReadyV 0 0 0 [1] 1 0 0 [2] [63] ∧
      s.ReadyV 0 0 0 [1] 1 0 0 [] [63] :=
  ⟨rfl, .inr rfl, by decide, by decide, readyV_on rfl rfl _ _ _ _ _ _ (by decide) (by decide), (declares_on rfl).2.2 _,
    readyV_on rfl rfl _ _ _ _ _ _ (by decide) (by decide), readyV_on rfl rfl _ _ _ _ _ _ (by decide) (by decide), .inl rfl,
    readyV_on rfl rfl _ _ _ _ _ _ (by decide) (by decide), readyV_on rfl rfl _ _ _ _ _ _ (by decide) (by decide)⟩


/-- Branches: s5 = 0 and s3 ≠ 0; q7 all ones, q6 all zeros and q1 neither; the last address and the greatest offset back. -/
def branchOn : State := on (with0 fun st => { st with pc := 32767, q := st.q.set 7 0xFFFFFFFF })

theorem wit_Branches :
    let s := branchOn
    s.Ready 0 0 0 [] [] ∧ s.Ready 0 0 0 [5] [] ∧ s.rs 0 0 0 5 = 0 ∧ s.Ready 0 0 0 [3] [] ∧ s.rs 0 0 0 3 ≠ 0 ∧
      s.DeclaresQ 0 0 0 [7] ∧ s.rq 0 0 0 7 = 0xFFFFFFFF ∧ s.DeclaresQ 0 0 0 [6] ∧ s.rq 0 0 0 6 = 0 ∧
      s.rq 0 0 0 1 ≠ 0xFFFFFFFF ∧ s.rq 0 0 0 1 ≠ 0 ∧ (7 : BitVec 6).toNat ≤ 7 ∧ s.Ready 0 0 0 [] [63] :=
  ⟨ready_on rfl _ _, ready_on rfl _ _, by decide, ready_on rfl _ _, by decide, (declares_on rfl).1 _ (by simp), by decide,
    (declares_on rfl).1 _ (by simp), by decide, by decide, by decide, by decide, ready_on rfl _ _⟩

/-- A cell whose strand is at `loop` of a kernel of 2 bundles at 4, with its epilogue at 6. -/
def loopOn (f : RecEntry → RecEntry) (g : Strand → Strand) (h : Cell → Cell) : State :=
  on (h { (with0 fun st => g { st with pc := 5, lc := 1 }) with
    recs := [(0, f { rec0 with desc := { desc0 with ker := 4, epi := 6, need := List.replicate 16 1, outmask := 1 } })]
    outs := [(0, { OutChan.reset with state := .opened, fbc := 2, owner := 0x0010, slots := 2 })]
    ins := [(0, { InChan.reset with state := .opened, owner := 0x0010, occ := 1, arrived := [⟨0, 7, false, false, 0⟩] })] })

theorem plain_loopOn (f : RecEntry → RecEntry) (g : Strand → Strand) (h : Cell → Cell)
    (hp : plain ((loopOn f g h).cell 0 0) = true) : (loopOn f g h).Ready 0 0 0 [] [] := ready_on hp [] []

def loopCancelled : State := loopOn (fun r => { r with cancelled := true }) id id
def loopDead : State := loopOn id id fun c => { c with outs := [(0, { OutChan.reset with state := .dead, owner := 0x0010 })] }
def loopEnds : State := loopOn id (fun st => { st with lc := 0 }) id
def loopEos : State := loopOn (fun r => { r with desc := { r.desc with arrival := true, trig := 0 } }) id fun c =>
  { c with ins := [(0, { InChan.reset with state := .opened, owner := 0x0010, occ := 1, arrived := [⟨0, 7, true, false, 0⟩] })] }
def loopParks : State := loopOn id (fun st => { st with preq := true }) id
def loopGoes : State := loopOn (fun r => { r with desc := { r.desc with arrival := true, trig := 0 } }) id id

/-- LoopCases: cancelled; a dead out-channel; LC = 0 and an EOS packet; a parking request; and a packet with its need met. -/
theorem wit_LoopCases :
    loopCancelled.Ready 0 0 0 [] [] ∧ loopDead.Ready 0 0 0 [] [] ∧ loopEnds.Ready 0 0 0 [] [] ∧ loopEos.Ready 0 0 0 [] [] ∧
      loopParks.Ready 0 0 0 [] [] ∧ loopGoes.Ready 0 0 0 [] [] ∧
      ((loopGoes.strand 0 0 0).sibling = false ∧ (loopGoes.strand 0 0 0).tl = 0 ∧ (loopGoes.cell 0 0).spire = false) ∧
      ((loopCancelled.cell 0 0).record 0).cancelled = true ∧
      (loopDead.cell 0 0).deadEnd (loopDead.desc 0 0 0) = some 16 ∧
      ((loopEnds.cell 0 0).deadEnd (loopEnds.desc 0 0 0) = none ∧ (loopEnds.strand 0 0 0).lc = 0) ∧
      (loopEos.cell 0 0).trigOf (loopEos.desc 0 0 0) = .eos ∧
      ((loopParks.strand 0 0 0).lc ≠ 0 ∧ (loopParks.strand 0 0 0).preq = true) ∧
      ((loopGoes.cell 0 0).trigOf (loopGoes.desc 0 0 0) = .packet ∧ (loopGoes.cell 0 0).shortOf (loopGoes.desc 0 0 0) = [] ∧
        (loopGoes.strand 0 0 0).preq = false) :=
  ⟨plain_loopOn _ _ _ rfl, plain_loopOn _ _ _ rfl, plain_loopOn _ _ _ rfl, plain_loopOn _ _ _ rfl, plain_loopOn _ _ _ rfl,
    plain_loopOn _ _ _ rfl, ⟨rfl, rfl, rfl⟩, rfl, by decide, ⟨by decide, rfl⟩, by decide, ⟨by decide, rfl⟩, by decide, by decide, rfl⟩

/-- A cell whose strand waits for what s5 = `x` names, at trap level 0. -/
def waitOn (x : Word) (w : Option Waiting) : State :=
  on (with0 fun st => { st with s := st.s.set 5 x, waiting := { Waits.none with unit := w } })

/-- A Spire core 0 whose strand has a bundle open. -/
def onSpire (f : Strand → Strand) : State :=
  let s := State.reset.setCell 0 1024 ((Cell.reset true).setStrand 0 (f { strand0 with recid := 0 }))
  { s with cur := some (s.nextBundle 0 1024 0) }

theorem ready_onSpire (f : Strand → Strand) (hp : ((onSpire f).strand 0 1024 0).pend = [])
    (hd : ((onSpire f).strand 0 1024 0).delivered = []) (hl : ((onSpire f).strand 0 1024 0).landing.length < 32)
    (reads dests : List (BitVec 6)) : (onSpire f).Ready 0 1024 0 reads dests :=
  ⟨⟨rfl, by decide⟩, .inl rfl, ⟨by rw [hp]; simp, by rw [hd]; simp⟩, hl⟩

/-- WaitHaltYield: a record that is not there; a placement that has fired; one that has not been asked for; halt in a cell, of
a sibling, and on a Spire core. -/
theorem wit_WaitHaltYield :
    ((waitOn 0x0FF0 none).Ready 0 0 0 [5] [] ∧ ((waitOn 0x0FF0 none).cell 0 0).entryOf 0x0FF0 = none ∧
      (((waitOn 0 none).cell 0 0).record 0).cancelled = false) ∧
    (∃ w, ((waitOn 0x10001 (some ⟨0, none, true, false⟩)).strand 0 0 0).waiting.unit = some w ∧ w.answered = true) ∧
    ((waitOn 0x10001 none).Ready 0 0 0 [5] [] ∧ ((waitOn 0x10001 none).rs 0 0 0 5).toNat / 2 ^ 16 % 4 ≠ 0 ∧
      ((waitOn 0x10001 none).strand 0 0 0).waiting = Waits.none) ∧
    ((on cell0).Ready 0 0 0 [] [] ∧ ((on cell0).cell 0 0).busy 0x0010 (some 0) = false ∧ ((on cell0).strand 0 0 0).sibling = false) ∧
    ((on (with0 fun st => { st with sibling := true })).Ready 0 0 0 [] [] ∧
      ((on (with0 fun st => { st with sibling := true })).cell 0 0).busy 0x0010 (some 0) = false) ∧
    ((onSpire id).Ready 0 1024 0 [] [] ∧ ((onSpire id).cell 0 1024).busy 0 (some 0) = false ∧
      ((onSpire id).cell 0 1024).spire = true ∧ isSpire 1024 = true ∧ isSpire 0 = false) :=
  ⟨⟨ready_on rfl _ _, by decide, rfl⟩, ⟨_, rfl, rfl⟩, ⟨ready_on rfl _ _, by decide, rfl⟩, ⟨ready_on rfl _ _, by decide, rfl⟩,
    ⟨ready_on rfl _ _, by decide⟩, ready_onSpire id rfl rfl (by decide) _ _, by decide, rfl, rfl, rfl⟩

/-- A cell with a second record in entry 1, id 0x0011, in state `x`; s5 names it and s6 names no record. -/
def twoOn (x : RecState) : State :=
  on { (with0 fun st => { st with s := ((st.s.set 5 0x0011).set 6 0x0FF1).set 7 0x100 }) with
    recs := [(0, rec0), (1, { RecEntry.free with gen := 1, state := x, strand := 1, desc := { desc0 with regions := [] } })] }

/-- Every other strand is taken. -/
def fullOn : State := on { cell0 with strands := (cell0.strands.set 1 strand0).set 2 strand0 |>.set 3 strand0 }

/-- RecordInstructions: a free strand and none; a descriptor at 256; entries in each state; a level. -/
theorem wit_RecordInstructions (reads dests : List (BitVec 6)) :
    ((on cell0).Ready 0 0 0 reads dests ∧ (56 : BitVec 6).toNat ≤ 56 ∧ ((on cell0).cell 0 0).strandFree 1 = true ∧
      ∀ i < 1, ((on cell0).cell 0 0).strandFree i = false) ∧
    (fullOn.Ready 0 0 0 reads [] ∧ ∀ i < 4, (fullOn.cell 0 0).strandFree i = false) ∧
    (∀ x, (twoOn x).Ready 0 0 0 reads dests) ∧
    (((twoOn .bound).rs 0 0 0 7).toNat % 256 = 0 ∧ (twoOn .bound).Admits 0 0 0 ((twoOn .bound).rs 0 0 0 7).toNat 256 false false ∧
      ((twoOn .bound).cell 0 0).scb.length < 32) ∧
    (((twoOn .bound).cell 0 0).entryOf 0x0011 = some 1 ∧ ((twoOn .parked).cell 0 0).entryOf 0x0011 = some 1 ∧
      ((twoOn .running).cell 0 0).entryOf 0x0011 = some 1 ∧ ((twoOn .ended).cell 0 0).entryOf 0x0011 = some 1 ∧
      ((twoOn .ended).cell 0 0).entryOf 0x0FF1 = none ∧ (3 : BitVec 11).toNat ≤ 3) ∧
    ((onSpire id).Ready 0 1024 0 reads dests ∧ ((onSpire id).cell 0 1024).spire = true) :=
  ⟨⟨ready_on rfl _ _, by decide, by decide, by decide⟩, ⟨ready_on rfl _ _, by decide⟩, fun _ => ready_on rfl _ _,
    ⟨by decide, rfl, by decide⟩, by decide, ready_onSpire id rfl rfl (by decide) _ _, rfl⟩


/-- A strand with scalars set, by their numbers. -/
def scalars (ps : List (Nat × Word)) (st : Strand) : Strand :=
  { st with s := ps.foldl (fun v p => v.setIfInBounds p.1 p.2) st.s }

/-- A cell whose strand has scalars set. -/
def regs (ps : List (Nat × Word)) : Cell := with0 (scalars ps)

theorem plain_regs (ps : List (Nat × Word)) : plain (regs ps) = true := rfl

/-- DescriptorFields: the last field and the last set, with its greatest value and one above it; a field of an in-channel and one
of an out-channel; an item of mstat with its clear. -/
theorem wit_DescriptorFields (reads dests : List (BitVec 6)) :
    let s := on (regs [(5, 4096), (6, 4160), (7, 2), (8, 17), (9, 14)])
    s.Ready 0 0 0 reads dests ∧ (s.cell 0 0).spire = false ∧ (10 : BitVec 5).toNat ≤ 10 ∧ (6 : BitVec 5).toNat ≤ 6 ∧
      matrixValue 10 (s.rs 0 0 0 5).toNat = true ∧ matrixValue 10 (s.rs 0 0 0 6).toNat = false ∧
      copyValue 6 (s.rs 0 0 0 7) = true ∧ (s.strand 0 0 0).errs = [] ∧
      ((s.cell 0 0).inCh 15).field ((s.rs 0 0 0 8).toNat % 256) = some 0 ∧
      ((s.cell 0 0).outCh 15).field ((s.rs 0 0 0 9).toNat % 256) = some 0x01000100 ∧ (31 : BitVec 5).toNat ≠ 15 :=
  ⟨ready_on rfl _ _, rfl, by decide, by decide, by decide, by decide, by decide, rfl, by decide, by decide, by decide⟩

/-- The nodes DEQ and OUT, and with a BIAS between them. -/
def dequantOut : List Node := [⟨0x10000000, 0⟩, ⟨0x80000000, 0⟩] ++ List.replicate 6 ⟨0, 0⟩
def biasOut : List Node := [⟨0x10000000, 0⟩, ⟨0x30000400, 0⟩, ⟨0x80000000, 0⟩] ++ List.replicate 5 ⟨0, 0⟩

/-- An array whose active bank will be full, with chain 0 armed and `rows` predicted. -/
def arrayOn (rows : Tab (Nat × Nat × Nat)) : State :=
  on { regs [(5, 0x1000), (6, 0x2000), (7, 0x8000)] with
    arr := { ArrayUnit.reset with chains := [(0, ⟨dequantOut, true, 0⟩)], pred := ⟨0, [true, false], [false, false], rows⟩ } }

/-- What set 31 leaves in each of its rows once it has accumulated block 0. -/
def oneBlock : Tab (Nat × Nat × Nat) := (List.range 64).map fun r => (r, 1, 64, 0)

/-- The drain that mmul or mdrain enters, as ArrayCommands has it. -/
def drainOf (op dst : Nat) (mmul : Bool) : DrainCmd :=
  ⟨op, 0, 0x0010, 9, 0, mmul, !mmul, 31, 64, 64, 0, liveNodes dequantOut, 0, dst, true, ⟨none, false, 0, 0x0010⟩, 0, 0, none, false,
    false, false, false, []⟩

theorem wit_ArrayCommands (reads dests : List (BitVec 6)) :
    let s := arrayOn []
    let t := arrayOn oneBlock
    let set := (s.cell 0 0).arr.setAt 31
    s.Ready 0 0 0 reads dests ∧ t.Ready 0 0 0 reads dests ∧ (s.cell 0 0).spire = false ∧ (s.strand 0 0 0).errs = [] ∧
      (s.cell 0 0).arr.queued < 16 ∧ (s.cell 0 0).scb.length < 31 ∧
      ((BitVec.ofNat 32 set.wsrc + s.rs 0 0 0 0).toNat % 128 = 0 ∧ (BitVec.ofNat 32 set.wscl + s.rs 0 0 0 7).toNat % 128 = 0 ∧
        s.Admits 0 0 0 0x200000 (tileBytes set.wfmt) false true ∧ s.Admits 0 0 0 0x208000 256 false true) ∧
      ((s.cell 0 0).arr.pred.full.getD (s.cell 0 0).arr.pred.act false = true ∧
        (∀ r < 64, (tget (0, 0, 0) (s.cell 0 0).arr.pred.rows r).1 = 0) ∧ set.rows = 64 ∧ set.kblk = 1 ∧
        s.Admits 0 0 0 0x1000 (set.astr * (set.rows - 1) + 64) false false ∧ s.Admits 0 0 0 set.ascl (4 * set.rows) false false) ∧
      ((s.cell 0 0).arr.chain set.chain).armed = true ∧ (drainOf 3 0x2000 true).tileReads 0 = [] ∧
      (drainOf 3 0x2000 true).writes 0 = [(0x2000, 0x4000)] ∧ s.Admits 0 0 0 0x2000 0x4000 true false ∧
      (∀ r < 64, (tget (0, 0, 0) (t.cell 0 0).arr.pred.rows r).1 = 1) ∧ t.Admits 0 0 0 0x2000 0x4000 true false :=
  ⟨ready_on rfl _ _, ready_on rfl _ _, rfl, rfl, by decide, by decide, ⟨by decide, by decide, rfl, rfl⟩,
    ⟨rfl, by decide, rfl, rfl, rfl, rfl⟩, rfl, by decide, by decide, rfl, by decide, rfl⟩

/-- ChainCheckFence: an armed chain of DEQ, BIAS and OUT, and one that is loaded from D-store offset 64; array commands in
flight. -/
def chainOn : State :=
  on { regs [(5, 64), (6, 1)] with
    mem := memRun 64 ((dequantOut.take 2).flatMap fun n => bytesOf [n.word0, n.arg])
    arr := { ArrayUnit.reset with chains := [(7, ⟨biasOut, false, 0⟩)] } }

theorem wit_ChainCheckFence (reads dests : List (BitVec 6)) :
    let s := chainOn
    s.Ready 0 0 0 reads dests ∧ (7 : BitVec 5).toNat ≤ 7 ∧ s.NoErrors 0 0 0 ∧
      (chainFault ((s.cell 0 0).arr.chain 7).nodes 0 .acc false = none ∧
        paramReads (liveNodes ((s.cell 0 0).arr.chain 7).nodes) = [(0x400, 256)] ∧ s.Admits 0 0 0 0x400 256 false false) ∧
      ((s.rs 0 0 0 6).getLsbD 0 = true ∧ chainFault (nodesOf (memBytes (s.cell 0 0).mem 64 64)) 0 .acc false = none ∧
        s.Admits 0 0 0 64 64 false false ∧ (s.cell 0 0).held .load 64 64 = false) ∧ (s.cell 0 0).scb.length < 32 ∧
      (s.cell 0 0).arrayIdle 0 = true ∧
      ({ s.cell 0 0 with arr := { (s.cell 0 0).arr with wlds := [⟨1, 0, 0x0010, 0, 0, 0, 0, 0, 0, 64, 0, none⟩] } }).arrayIdle 0 = false :=
  ⟨ready_on rfl _ _, by decide, rfl, ⟨by decide, by decide, rfl⟩, ⟨by decide, by decide, rfl, by decide⟩, by decide, by decide,
    by decide⟩

/-- Copies: the longest copy in sectors of cpyb within the cell, and 65,536 bytes of cpy to another cell. -/
def copyOn (dh : Word) : State :=
  on { regs [(5, 0), (6, 0x8000)] with cds := [(31, ⟨1, dh, 0x8000, 0, 0, 0, 0⟩)] }

theorem wit_Copies (reads dests : List (BitVec 6)) :
    let s := copyOn 1
    let t := copyOn 2
    let v (s : State) := s.sees 0 0 0 (.nop true)
    (s.Ready 0 0 0 reads dests ∧ t.Ready 0 0 0 reads dests) ∧ s.NoErrors 0 0 0 ∧ s.DeclaresH 0 0 0 [1, 2] ∧
      ((v s).sideChecks 1 0 0x8000 0x8000 256 true false = [] ∧ (v s).sideChecks 1 0x8000 0x8000 0x8000 256 true true = []) ∧
      ((v t).sideChecks 1 0 0x8000 0x8000 4 false false = [] ∧ (v t).sideChecks 2 0x8000 0x8000 0x8000 4 false true = []) ∧
      (s.rh 0 0 0 1).migrates false = false ∧ (s.rh 0 0 0 2).migrates true = false ∧ (s.cell 0 0).ops.length < 32 ∧
      ((t.cell 0 0).cd 31).andThen.getLsbD 31 = false ∧ (v t).tokenFull 0 false = false ∧
      (s.rh 0 0 0 1).disc = false ∧ (s.rh 0 0 0 1).aper = 0 ∧ (s.rh 0 0 0 2).disc = false ∧ (s.rh 0 0 0 2).aper ≠ 0 ∧
      (t.cell 0 0).freeToken = some 0 :=
  ⟨⟨ready_on rfl _ _, ready_on rfl _ _⟩, rfl, (declares_on rfl).2.1 _ (by simp), by decide, by decide, by decide, by decide, by decide,
    by decide, by decide, by decide, by decide, by decide, by decide, by decide⟩

/-- OneSidedRemote: the last word of a page of another cell (s5 = 65532), and 128 bytes of it to D-store offset 0x1000 (s6). -/
def farOn (w0 : Word) : State :=
  on (with0 fun st => { scalars [(5, 65532), (6, 0x1000), (7, 65408)] st with h := st.h.set 2 { far with w0 := w0 } })

theorem wit_OneSidedRemote (reads dests : List (BitVec 6)) :
    let s := farOn far.w0
    let d := farOn (far.w0 ||| 0x00400000)
    let v (s : State) := s.sees 0 0 0 (.nop true)
    (s.Ready 0 0 0 reads dests ∧ d.Ready 0 0 0 reads dests) ∧ s.NoErrors 0 0 0 ∧ s.DeclaresH 0 0 0 [2] ∧
      (s.rh 0 0 0 2).valid = true ∧ (s.rh 0 0 0 2).migrates true = false ∧ (s.rh 0 0 0 2).aper ≠ 0 ∧
      (v s).handleChecks 2 65532 4 4 false false true false = [] ∧ (v s).handleChecks 2 65532 4 4 false true true true = [] ∧
      (v s).handleChecks 2 65532 4 4 false true false false = [] ∧ (v s).tokenFull 0 false = false ∧
      (v s).tokenFull (s.rs 0 0 0 63) false = false ∧ (d.rh 0 0 0 2).disc = true ∧
      (v d).handleChecks 2 65532 4 4 false true false false = [] ∧ (s.rh 0 0 0 2).disc = false ∧ (s.cell 0 0).freeToken = some 0 ∧
      s.rs 0 0 0 63 = 0 ∧ (v s).sideChecks 2 65408 4 128 128 false false = [] ∧ s.Admits 0 0 0 0x1000 128 true false ∧
      (s.rh 0 0 0 2).migrates false = false :=
  ⟨⟨ready_on rfl _ _, ready_on rfl _ _⟩, rfl, (declares_on rfl).2.1 _ (by simp), by decide, by decide, by decide, by decide, by decide,
    by decide, by decide, by decide, by decide, by decide, by decide, by decide, by decide, by decide, rfl, by decide⟩

/-- OneSidedLocal: the last word of the cell's own page. -/
theorem wit_OneSidedLocal (reads dests : List (BitVec 6)) :
    let s := on (regs [(5, 65532)])
    s.Ready 0 0 0 reads dests ∧ s.NoErrors 0 0 0 ∧ s.DeclaresH 0 0 0 [1] ∧ (s.rh 0 0 0 1).valid = true ∧
      (s.rh 0 0 0 1).aper = 0 ∧ (s.cell 0 0).spire = false ∧ (63 : BitVec 6) ≠ 0 ∧
      (s.ea 0 0 0 1 (s.rs 0 0 0 5).toInt 4 .load = .ok 65532 false false ∧ (s.cell 0 0).held .load 65532 4 = false) ∧
      (s.ea 0 0 0 1 (s.rs 0 0 0 5).toInt 4 .store = .ok 65532 false false ∧ (s.cell 0 0).held .store 65532 4 = false) ∧
      (s.ea 0 0 0 1 (s.rs 0 0 0 5).toInt 4 .atomic = .ok 65532 false false ∧ (s.cell 0 0).held .atomic 65532 4 = false) ∧
      s.rs 0 0 0 63 = 0 :=
  ⟨ready_on rfl _ _, rfl, (declares_on rfl).2.1 _ (by simp), by decide, by decide, rfl, by decide, by decide, by decide, by decide,
    by decide⟩

/-- TokenInstructions: s5 and s6 are pending tokens of this cell (entries 0 and 255), s7 one of cell 1. -/
def tokenOn (w : List TokenWait) : State :=
  on { regs [(5, 0x100), (6, 0x1FF), (7, 0x1100)] with
    tokens := [(0, { TokEntry.free with state := .pending, gen := 1 }), (255, { TokEntry.free with state := .pending, gen := 1 })]
    waits := w }

theorem wit_TokenInstructions (reads dests : List (BitVec 6)) :
    let s := tokenOn []
    let w : TokenWait := ⟨.strand 0, 0x1100, 0, 0, .landed⟩
    s.Ready 0 0 0 reads dests ∧ (tokenOn [w]).Ready 0 0 0 reads dests ∧ (63 : BitVec 6) ≠ 0 ∧ s.rs 0 0 0 0 = 0 ∧
      tokenLocal (s.chip 0) 0 (s.rs 0 0 0 5) = true ∧ tokenLocal (s.chip 0) 0 (s.rs 0 0 0 6) = true ∧
      tokenLocal (s.chip 0) 0 (s.rs 0 0 0 7) = false ∧ s.rs 0 0 0 7 ≠ 0 ∧ (s.cell 0 0).tokenPending 0x100 = true ∧
      (s.cell 0 0).tokenPending 0x1FF = true ∧ s.NoErrors 0 0 0 ∧ ((tokenOn [w]).cell 0 0).waitOf (.strand 0) = some w ∧
      (s.cell 0 0).waitOf (.strand 0) = none ∧ (s.strand 0 0 0).waiting = Waits.none ∧ (s.cell 0 0).freeToken = some 1 ∧
      (let t := onSpire (scalars [(5, 0x100), (6, 0x1FF)])
       t.Ready 0 1024 0 reads dests ∧ (t.cell 0 1024).spire = true ∧ t.rs 0 1024 0 5 ≠ 0 ∧
         tokenLocal (t.chip 0) 1024 (t.rs 0 1024 0 5) = false ∧ tokenLocal (t.chip 0) 1024 (t.rs 0 1024 0 6) = false) :=
  ⟨ready_on rfl _ _, ready_on rfl _ _, by decide, rfl, by decide, by decide, by decide, by decide, by decide, by decide, rfl, by decide,
    by decide, rfl, by decide, ready_onSpire _ rfl rfl (by decide) _ _, rfl, by decide, by decide, by decide⟩

/-- ChannelInstructions: out-channels 14 and 15, the latter of group 15, each with one credit; in-channel 15 with a packet and a
slot popped; a sset of OWNER and an rctl at level 1. -/
def chanOn : State :=
  on { (with0 fun st => { scalars [(5, 0x1000), (6, 64), (7, 1), (8, 6), (9, 0x0011), (10, 0x88310001), (11, 0x01000001)] st with tl := 1 }) with
    outs := [(14, { OutChan.reset with state := .opened, owner := 0x0010, fbc := 1 }),
      (15, { OutChan.reset with state := .opened, owner := 0x0010, fbc := 1, grouped := true, group := 15 })]
    ins := [(14, { InChan.reset with owner := 0x0010 }),
      (15, { InChan.reset with state := .opened, owner := 0x0010, occ := 1, popped := 1, popPtr := 1, arrived := [⟨0, 7, false, false, 0⟩] })] }

theorem wit_ChannelInstructions (reads dests : List (BitVec 6)) :
    let s := chanOn
    let c := s.cell 0 0
    s.Ready 0 0 0 reads dests ∧ s.NoErrors 0 0 0 ∧ c.spire = false ∧ (15 : BitVec 5).toNat ≤ 15 ∧ s.Admits 0 0 0 0x1000 64 false false ∧
      (s.rs 0 0 0 5).toNat % 4 = 0 ∧ c.scb.length < 32 ∧
      ((c.outCh 14).owner = (s.strand 0 0 0).recid ∧ (c.outCh 14).state = .opened ∧ 64 ≤ (c.outCh 14).peerSize ∧
        (c.outCh 14).grouped = false ∧ (c.outCh 14).fbc ≠ 0) ∧
      ((c.outs.filter fun p => p.2.grouped && p.2.group == 15).map (fun p => p.1) = [15] ∧
        (c.outCh 15).owner = (s.strand 0 0 0).recid ∧ (c.outCh 15).state = .opened ∧ (c.outCh 15).fbc ≠ 0) ∧
      ((c.inCh 15).owner = (s.strand 0 0 0).recid ∧ (c.inCh 15).popped < (c.inCh 15).slots ∧ (c.inCh 15).state = .opened) ∧
      ((s.rs 0 0 0 0).toNat % 128 = 0 ∧ (s.rs 0 0 0 7).toNat % 128 ≠ 0 ∧
        (s.rs 0 0 0 7).toNat % 128 + c.releasing 15 ≤ (c.inCh 15).popped) ∧
      ((s.strand 0 0 0).tl ≠ 0 ∧ c.writeFault false 14 6 (s.rs 0 0 0 9) = 0 ∧ (s.rs 0 0 0 8).toNat % 256 = 6 ∧
        rateFault (s.rs 0 0 0 10) (s.rs 0 0 0 11) (c.inCh 15).slots = 0) :=
  ⟨ready_on rfl _ _, rfl, rfl, by decide, rfl, by decide, by decide, by decide, by decide, by decide, by decide, by decide⟩

/-- BarriersAndQueues: barrier 31 in phase 0, done; one that times out; and the head of queue 511 (s5) with 16 bytes at the end of
the first page (s6), through a handle of the queue page. -/
def tbOn (state : TbState) (w : Option Waiting) : State :=
  on { (with0 fun st => { scalars [(5, 65408), (6, 0xFFF0)] st with waiting := { Waits.none with engine := w }, h := st.h.set 3 ⟨0x8F800000, 0, 0, 0x7F⟩ }) with
    tbs := [(31, { Tbar.reset with state := state })] }

theorem wit_BarriersAndQueues (reads dests : List (BitVec 6)) :
    let s := tbOn .done none
    let t := tbOn .armed (some ⟨0, none, false, true⟩)
    let v := s.sees 0 0 0 (.nop true)
    s.Ready 0 0 0 reads dests ∧ t.Ready 0 0 0 reads dests ∧ (s.cell 0 0).spire = false ∧ (31 : BitVec 5).toNat < (s.desc 0 0 0).tbars ∧
      (tget Tbar.reset (s.cell 0 0).tbs 31).state ≠ .armed ∧ ((s.rs 0 0 0 0).toNat % 256 = 0 ∧ (tget Tbar.reset (s.cell 0 0).tbs 31).phase.toNat = 0 ∧
        (tget Tbar.reset (s.cell 0 0).tbs 31).state = .done) ∧
      (∃ w, (t.strand 0 0 0).waiting.engine = some w ∧ w.failed = true) ∧ s.DeclaresH 0 0 0 [3] ∧ (s.cell 0 0).scb.length < 32 ∧
      v.queueChecks true 3 (s.rs 0 0 0 5) (s.rs 0 0 0 6) = [] ∧ v.queueChecks false 3 (s.rs 0 0 0 5) (s.rs 0 0 0 6) = [] :=
  ⟨ready_on rfl _ _, ready_on rfl _ _, rfl, by decide, by decide, by decide, ⟨_, rfl, rfl⟩, (declares_on rfl).2.1 _ (by simp), by decide,
    by decide, by decide⟩


/-- The machine in cycle 100 with cell 0 as `c`: a step's subject is entry `j` of it, with value `v`. -/
def stepOn (c : Cell) (j v : Nat) : State := { State.reset.setCell 0 0 c with cycle := 100, focus := ⟨0, 0, j, v, []⟩ }

/-- The message 7 from cell 1, which has arrived at unit `u` of module 0. -/
def msgOf (u : Nat) (b : Body) : Msg := ⟨7, 0, .inside 100 true, ⟨0, 1⟩, 2, ⟨0, u⟩, 0, b, []⟩

/-- The same machine with that message at hand. -/
def msgOn (c : Cell) (u : Nat) (b : Body) : State := { stepOn c 7 0 with net := [msgOf u b], nextId := 8 }

theorem brings_on (c : Cell) (u : Nat) (b : Body) : (msgOn c u b).Brings (msgOf u b) b := ⟨rfl, rfl⟩

/-- A record for a strand that is free: bound, of one trip, with an EOS packet at its channel, or parked. -/
def startOn (r : RecEntry) (ins : Tab InChan) : State :=
  stepOn { Cell.reset false with recs := [(15, { r with desc := { r.desc with strand := 3, trips := 1 }, strand := 3 })], ins := ins } 3 0

def boundRec : RecEntry := { rec0 with state := .bound }
def eosRec : RecEntry := { boundRec with desc := { desc0 with arrival := true, trig := 15 } }
def parkedRec : RecEntry := { rec0 with state := .parked, saved := some { strand0 with entry := 15 } }
def eosIn : Tab InChan := [(15, { InChan.reset with state := .opened, arrived := [⟨0, 7, true, false, 0⟩] })]

theorem wit_RecordStepsRun_start :
    (let s := startOn boundRec []
     (s.cell 0 0).strandFree 3 = true ∧ (s.cell 0 0).nextRecord 3 = some 15 ∧ ((s.cell 0 0).record 15).state = .bound ∧
       (s.cell 0 0).trigOf ((s.cell 0 0).record 15).desc ≠ .eos ∧ ((s.cell 0 0).record 15).iterAt = none) ∧
    (let s := startOn eosRec eosIn
     (s.cell 0 0).strandFree 3 = true ∧ (s.cell 0 0).nextRecord 3 = some 15 ∧ ((s.cell 0 0).record 15).state = .bound ∧
       (s.cell 0 0).trigOf ((s.cell 0 0).record 15).desc = .eos) ∧
    (let s := startOn parkedRec []
     (s.cell 0 0).strandFree 3 = true ∧ (s.cell 0 0).nextRecord 3 = some 15 ∧ ((s.cell 0 0).record 15).state = .parked ∧
       (s.cell 0 0).ctxJob = none) := by decide

/-- A context that is being restored in its last cycle, and one that is being saved; a record that ends; an entry that ages. -/
def restoreOn : State := stepOn { Cell.reset false with recs := [(15, { parkedRec with state := .running })], ctxJob := some (.restore 3 15, 100) } 3 0
def saveOn : State := stepOn { cell0 with ctxJob := some (.save 0 0, 100) } 0 0
def endOn : State := stepOn { cell0 with recs := [(0, { rec0 with ending := some .done })] } 0 0
def ageOn : State := stepOn { cell0 with recs := [(0, { boundRec with eligible := some 0, prioEff := 8 })], agelim := 50 } 0 0
def ageRun : State := stepOn { (with0 fun st => { st with ready := true }) with recs := [(0, { rec0 with prioEff := 8 })], agelim := 50 } 0 0

theorem wit_RecordStepsRun :
    ((restoreOn.cell 0 0).ctxJob = some (.restore 3 15, 100) ∧ 100 ≤ restoreOn.cycle ∧
      (restoreOn.cell 0 0).underRepair (slotAt 15) 14336 = false ∧ (saveOn.cell 0 0).underRepair (slotAt 0) 14336 = false ∧
      ((restoreOn.cell 0 0).record 15).saved = some { strand0 with entry := 15 }) ∧
    ((saveOn.cell 0 0).ctxJob = some (.save 0 0, 100) ∧ 100 ≤ saveOn.cycle ∧ ((saveOn.cell 0 0).record 0).cancelled = false) ∧
    ((endOn.cell 0 0).endStatus 0 = some .done ∧ (endOn.cell 0 0).busy (recordId ((endOn.cell 0 0).record 0).gen 0).toNat none = false ∧
      (endOn.cell 0 0).ownedIns (recordId ((endOn.cell 0 0).record 0).gen 0) = [] ∧
      (endOn.cell 0 0).ownedOuts (recordId ((endOn.cell 0 0).record 0).gen 0) = [] ∧ ((endOn.cell 0 0).strand 0).entry = 0) ∧
    ((ageOn.cell 0 0).agelim ≠ 0 ∧ ((ageOn.cell 0 0).record 0).prioEff < ((ageOn.cell 0 0).record 0).desc.ceil ∧
      ((ageOn.cell 0 0).record 0).state ≠ .running ∧ ((ageOn.cell 0 0).record 0).eligible.isSome = true ∧
      ((ageOn.cell 0 0).record 0).ageFrom + 2 * (ageOn.cell 0 0).agelim.toNat ≤ ageOn.cycle) ∧
    (((ageRun.cell 0 0).record 0).prioEff < ((ageRun.cell 0 0).record 0).desc.ceil ∧ ((ageRun.cell 0 0).record 0).state = .running ∧
      (ageRun.strand 0 0 0).mode = .running ∧ (ageRun.strand 0 0 0).entry = 0 ∧ (ageRun.strand 0 0 0).ready = true ∧
      (ageRun.strand 0 0 0).lastIssue + 2 * (ageRun.cell 0 0).agelim.toNat ≤ ageRun.cycle ∧
      ((ageRun.cell 0 0).record 0).ageFrom + 2 * (ageRun.cell 0 0).agelim.toNat ≤ ageRun.cycle) ∧
    ({ on cell0 with phase := .refill } : State).phase = .refill := by
  refine ⟨by decide, by decide, by decide, by decide, by decide, rfl⟩

/-- An array at work: a wld to start on the spare bank, and one in its last cycle; a flip; a row due; a drain with a row out; an
arming in its last cycle. -/
def wldCmd (e : Option Nat) : WldCmd := ⟨1, 0, 0x0010, 9, 99, 1, 0x200000, 0x208000, 0, 64, 0, e⟩
def swapCmd : PassCmd :=
  ⟨1, 0, 0x0010, 9, 99, true, 0, 0, MatrixSet.reset, false, none, false, 0, 0, 0, false, false, none⟩
def passCmd : PassCmd := { swapCmd with swap := false, started := true, next := 64 }
def rowDue : FlightRow := ⟨1, 63, 100, 0, List.replicate 64 5, 0x3F800000, 0, List.replicate 64 0x3F800000, 64, [], false, false⟩
def drainOut : DrainCmd := { drainOf 1 0x2000 false with next := 63, started := true, out := some ⟨100, List.replicate 256 1, false⟩ }
def arrOn (a : ArrayUnit) : State := stepOn { cell0 with arr := a } 0 0

def wldStart : State := arrOn { ArrayUnit.reset with wlds := [wldCmd none] }
def wldEnd (b : Byte) : State := stepOn { cell0 with arr := { ArrayUnit.reset with wlds := [wldCmd (some 100)] }, mem := memRun 0x200000 [b] } 0 0
def swapOn : State := arrOn { ArrayUnit.reset with passes := [swapCmd] }
def rowOn : State := arrOn { ArrayUnit.reset with passes := [passCmd], flight := [rowDue] }
def drainOn : State := arrOn { ArrayUnit.reset with drains := [drainOut] }
def drainReadOn : State :=
  arrOn { ArrayUnit.reset with
    drains := [{ drainOut with out := none, nextAt := 100 }], rows := [(63, { AccRow.empty with n := 1 })]
    pars := [⟨0, [], true⟩] }
def armOn : State :=
  arrOn { ArrayUnit.reset with
    chains := [(7, ⟨biasOut, true, 1⟩)], pars := [⟨1, [], false⟩], armings := [⟨1, 0, 0x0010, 9, liveNodes biasOut, 98, some 100⟩] }

theorem wit_ArrayStepsRun :
    ((wldStart.cell 0 0).arr.wlds = [wldCmd none] ∧ (wldCmd none).bank ≠ (wldStart.cell 0 0).arr.act ∧
      ((wldStart.cell 0 0).arr.bank 1).state = .empty ∧ ((wldStart.cell 0 0).arr.bank 1).since < wldStart.cycle ∧
      (wldStart.cell 0 0).scbClear 1 (wldCmd none).reads [] = true) ∧
    ((wldEnd 242).cell 0 0).endingWld 100 = some (wldCmd (some 100)) ∧
    ((swapOn.cell 0 0).arr.passHead = some swapCmd ∧ swapCmd.issue < swapOn.cycle ∧ (swapOn.cell 0 0).arr.passFree ≤ swapOn.cycle) ∧
    ((rowOn.cell 0 0).nextFlight 100 = some rowDue ∧
      (rowOn.cell 0 0).arr.passes.find? (fun p => p.op == 1) = some passCmd ∧ passCmd.done + 1 < passCmd.m.rows) ∧
    ((drainOn.cell 0 0).drainDue 100 = some drainOut ∧ drainOut.dropped = false ∧ drainOut.channel = none) ∧
    ((drainReadOn.cell 0 0).drainDue 100).isSome = true ∧
    (armOn.cell 0 0).endingArming 100 = some ⟨1, 0, 0x0010, 9, liveNodes biasOut, 98, some 100⟩ := by
  refine ⟨by decide, by decide +kernel, by decide, by decide, by decide +kernel, by decide +kernel, by decide⟩

/-- wldComplete: 242 is the last TRIT5 byte, 243 the first value of R214 that stands for no trits. -/
theorem wit_ArrayStepsRun_tile :
    tileFault 0 ((wldCmd none).tile ((wldEnd 243).cell 0 0)).1 ((wldCmd none).tile ((wldEnd 243).cell 0 0)).2 = some 0 ∧
    tileFault 0 ((wldCmd none).tile ((wldEnd 242).cell 0 0)).1 ((wldCmd none).tile ((wldEnd 242).cell 0 0)).2 = none := by decide +kernel

/-- A request of cell 1 to the last word below the control registers, or to the D-store of a cell with one INBOX region. -/
def reqOf (kind : ReqKind) (off : Nat) (data : List Byte) (copy : Bool) (tbar : Option Nat) (carry : Word) : Req :=
  ⟨kind, copy, true, off, data, [], 5, carry, 0x1100, 4, 0, 1, tbar, 2⟩

theorem wit_RequestsAndAnswers_requests :
    let c := cell0
    let ok (r : Req) : Bool := c.admits false r && !c.underRepair r.off r.size && !(msgOn c 0 (.request r)).isLocal (msgOf 0 (.request r)) r &&
      r.carry == 0 && decide (0 < r.size) && decide (r.off + r.size ≤ 0x700000)
    ok (reqOf .write 0x2FFFC [1, 2, 3, 4] false none 0) = true ∧ ok (reqOf .write 0x2FF00 (List.replicate 256 1) true none 0) = true ∧
      ok (reqOf .write 0x2FF00 (List.replicate 256 1) true (some 31) 0) = true ∧ ok (reqOf (.read 4) 0x1FFFC [] false none 0) = true ∧
      ok (reqOf (.atomic .radd) 0x2FFFC [5, 0, 0, 0] false none 0) = true ∧
      c.admits false (reqOf .write 0x30000 [1, 2, 3, 4] false none 0) = false ∧
      c.admits false (reqOf (.read 4) 0x30000 [] false none 0) = false ∧
      c.admits false (reqOf (.atomic .radd) 0x30000 [5, 0, 0, 0] false none 0) = false := by
  decide +kernel

/-! ### What arrives at cells and at the I/O die -/

/-- A cell of module 0 and its I/O die, in cycle 100, with the message at hand. -/
def bringing (c : Cell) (io : IoDie) (u : Nat) (b : Body) : State :=
  { (State.reset.onMod 0 fun x => { x with io := io }).setCell 0 0 c with
    cycle := 100, focus := ⟨0, 0, 7, 0, []⟩, net := [msgOf u b], nextId := 8 }

theorem brings_bringing (c : Cell) (io : IoDie) (u : Nat) (b : Body) : (bringing c io u b).Brings (msgOf u b) b := ⟨rfl, rfl⟩

/-- AnswersReachTheirSource: an rld, and a store with token 0x1FF of entry 255. -/
def rldOp : EngOp :=
  ⟨5, 0, 0x0010, .readWord, 9, none, 0, false, false, none, 0, some ⟨0, 1⟩, 0x100, 4, false, none, 0, 0, 0, 1, 0, 0,
    [⟨reqOf (.read 4) 0x100 [] false none 0, ⟨0, 1⟩, 90, 0, .sent⟩], 0⟩
def stOp : EngOp :=
  { rldOp with kind := .store, entry := some 255, token := 0x1FF, out := [⟨reqOf .write 0x100 [1, 2, 3, 4] false none 0, ⟨0, 1⟩, 90, 0, .sent⟩] }
def opCell (o : EngOp) : Cell :=
  { cell0 with ops := [o], tokens := [(255, { TokEntry.free with state := .pending, gen := 1, recid := 0x0010, count := 1 })] }

theorem wit_RequestsAndAnswers_answers :
    let q : OutReq := ⟨reqOf (.read 4) 0x100 [] false none 0, ⟨0, 1⟩, 90, 0, .sent⟩
    let q' : OutReq := ⟨reqOf .write 0x100 [1, 2, 3, 4] false none 0, ⟨0, 1⟩, 90, 0, .sent⟩
    ((opCell rldOp).engOp 5 = some rldOp ∧ rldOp.out = [q] ∧ rldOp.next = 1 ∧ rldOp.done = 0 ∧ rldOp.err = 0 ∧ rldOp.andThen = 0 ∧
      rldOp.kind = .readWord ∧ rldOp.entry = none ∧ q.req.kind ≠ .write) ∧
    ((opCell stOp).engOp 5 = some stOp ∧ stOp.out = [q'] ∧ stOp.entry = some 255 ∧ stOp.kind = .store ∧
      ((opCell stOp).token 255).state = .pending ∧ ((opCell stOp).token 255).count = 1 ∧ ((opCell stOp).token 255).err = 0 ∧
      (∀ y ∈ ((opCell stOp).token 255).slots, y = none) ∧
      (0x02010000 : Word) ≠ 0 ∧ (0x02010000 : Word).toNat / 65536 ≠ 0x0207 ∧ ((opCell stOp).strand 0).mode ≠ .idle ∧
      ((opCell stOp).strand 0).recid.toNat = stOp.recid) := by decide

/-- CarriedStepsRun: one hold entry free or none; the last entry ready, or as old as TOKEXP allows; a request that backs off. -/
def held (since : Nat) (ready : Option Nat) : HoldEntry := ⟨reqOf .write 0x2FFFC [1, 2, 3, 4] false none 0x1FF, ⟨0, 1⟩, 2, since, 0, ready⟩
def holdCell (n : Nat) : Cell := { cell0 with hold := (List.range n).map fun i => (i, held 50 none) }
def holdOn (since : Nat) (ready : Option Nat) : State := stepOn { cell0 with hold := [(31, held since ready)], tokexp := 50, tokexpNow := 50 } 31 0
def backReq : OutReq := ⟨reqOf .write 0x100 [1, 2, 3, 4] false none 0x1100, ⟨0, 1⟩, 90, 1, .backoff 100⟩
def backOn : State :=
  stepOn { cell0 with ops := [{ rldOp with out := [backReq] }] } 5 0

theorem wit_CarriedStepsRun_requests :
    (holdCell 32).freeHold = none ∧ (holdCell 31).freeHold = some 31 ∧ (holdCell 31).underRepair 0x2FFFC 4 = false ∧
    (reqOf .write 0x2FFFC [1, 2, 3, 4] false none 0x1FF).carry ≠ 0 ∧
    ((holdOn 50 (some 99)).cell 0 0).nextHold 100 = some (31, held 50 (some 99)) ∧
    ((holdOn 50 (some 99)).cell 0 0).admits (isSpire 1) (held 50 none).req = true ∧ onQueuePage 0 (held 50 none).req = false ∧
    ((holdOn 50 none).cell 0 0).hold.find? (fun p => p.1 == 31 && p.2.ready.isNone &&
      decide (((holdOn 50 none).cell 0 0).tokexpNow.toNat ≤ 100 - p.2.since)) = some (31, held 50 none) ∧
    (backOn.cell 0 0).outReq 5 0 = some backReq ∧
    100 - 90 < (backOn.cell 0 0).tokexp.toNat := by decide

/-- Tokens of this cell (0x1FF pending, with all watcher slots free or taken) and of cell 1, and a wait on the latter. -/
def watchCell (slots : List (Option Slot)) : Cell :=
  { cell0 with tokens := [(255, { TokEntry.free with state := .pending, gen := 1, slots := slots })] }
def waitCell (what : WaitFor) (st : WatchState) : Cell := { cell0 with waits := [⟨what, 0x1100, 50, 0, st⟩], tokexp := 50 }
def fullSlots : List (Option Slot) := List.replicate 4 (some ⟨2, true⟩)

theorem wit_CarriedStepsRun_watches :
    (tokenLocal 0 0 0x1100 = false ∧ tokenLocal 0 0 0x1FF = true ∧ (watchCell fullSlots).tokenPending 0x1FF = true ∧
      ((watchCell TokEntry.free.slots).token 255).slotFree = true ∧ ((watchCell fullSlots).token 255).slotFree = false ∧
      (watchCell fullSlots).tokenPending 0x2FF = false) ∧
    (waitCell (.strand 0) .out).outWait 0x1100 = some ⟨.strand 0, 0x1100, 50, 0, .out⟩ ∧
    (let s := holdOn 50 none
     (s.cell 0 0).hold.find? (fun p => p.1 + 1 == 32 && p.2.req.carry == 0x1FF && p.2.ready.isNone) = some (31, held 50 none)) ∧
    (waitCell (.query 0 9 5) .out).waits = [⟨.query 0 9 5, 0x1100, 50, 0, .out⟩] ∧
    (waitCell (.strand 0) (.backoff 100)).waits[0]? = some ⟨.strand 0, 0x1100, 50, 0, .backoff 100⟩ ∧
    (⟨.strand 0, 0x1100, 50, 0, .out⟩ : TokenWait).open' = true ∧ (waitCell (.strand 0) .out).tokexp.toNat ≤ 100 - 50 := by decide

/-- ChannelStepsRun: what arrives at in-channel 15 and out-channel 15, open or not, of the record or of none. -/
def endsCell (state : EndState) : Cell :=
  { cell0 with
    ins := [(15, { InChan.reset with state := state, owner := 0x0010 })]
    outs := [(15, { OutChan.reset with state := state, owner := 0x0010 })] }
def packet0 : Packet := ⟨1, 0x0010, 0x1000, 7, 4, true, false, false, false, 0, [1, 2, 3, 4]⟩

theorem wit_ChannelStepsRun_arrivals :
    ((endsCell .closed).inCh 15).state ≠ .opened ∧ ((endsCell .opened).inCh 15).state = .opened ∧ packet0.poison = false ∧
    ((endsCell .opened).entryOf ((endsCell .opened).inCh 15).owner).isSome = true ∧ ((endsCell .opened).outCh 15).state = .opened ∧
    ((endsCell .dead).outCh 15).state ≠ .opened ∧ (endsCell .opened).pushes = [] ∧
    (tget Ingress.reset IoDie.reset.ingress 127).nven = false ∧ (tget Egress.reset IoDie.reset.egress 127).en = false := by decide

def job0 : PushJob := ⟨5, 0, 0x0010, 9, 0x1FFC0, 64, 7, true, false, 0, [⟨15, 1, 0x1801, false, false, false, false⟩], false, true,
  List.replicate 64 0, false⟩
def job1 : PushJob := { job0 with op := 8, len := 200 }
def claim0 : Claim := ⟨1, 0, 0x0010, 5, 9, true⟩
def chanCell : Cell :=
  { cell0 with
    pushes := [job0, job1]
    rels := [⟨6, 0, 0x0010, 15, 2⟩, ⟨7, 0, 0x0010, 14, 1⟩]
    ins := [(15, { InChan.reset with
        state := .opened, owner := 0x0010, occ := 2, popped := 2, popPtr := 0, rate0 := 0x88310001, start := 69, claims := [claim0]
        arrived := [⟨0, 7, false, false, 0⟩, ⟨1, 8, true, false, 0⟩] })] }
def periodOn : State := { stepOn { chanCell with ins := [(15, { chanCell.inCh 15 with start := 0 })] } 15 0 with cycle := 255 }
def limitOn : State := stepOn (with0 fun st => { st with waiting := { Waits.none with engine := some ⟨50, some 100, false, false⟩ } }) 0 0

theorem wit_ChannelStepsRun :
    (chanCell.pushes.find? (fun j => j.op == 8) = some job1 ∧ job1.begun = true ∧ job1.data.length < job1.len ∧ chanCell.flips = [] ∧
      chanCell.underRepair (job1.off + 64) 128 = false) ∧
    (chanCell.pushes.find? (fun j => j.op == 5 && (j.begun && decide (j.len ≤ j.data.length))) = some job0) ∧
    ((chanCell.inCh 15).dueClaim = some claim0 ∧
      (chanCell.inCh 15).arrived.find? (fun a => a.slot == claim0.slot) = some ⟨1, 8, true, false, 0⟩ ∧
      (chanCell.strand 0).mode ≠ .idle ∧ (chanCell.strand 0).recid.toNat = claim0.recid) ∧
    (chanCell.rels.find? (fun j => j.op == 6 && chanCell.relDue j) = some ⟨6, 0, 0x0010, 15, 2⟩ ∧
      chanCell.rels.find? (fun j => j.op == 7 && chanCell.relDue j) = some ⟨7, 0, 0x0010, 14, 1⟩ ∧ (chanCell.inCh 14).state ≠ .opened) ∧
    (let y := (periodOn.cell 0 0).inCh 15
     y.rate0.getLsbD 31 = true ∧ y.state = .opened ∧ periodOn.cycle + 1 = y.start + 2 ^ y.per) ∧
    (limitOn.strand 0 0 0).waiting.engine = some ⟨50, some 100, false, false⟩ := by decide

/-- QueueStepsRun: queue 511 off, full, empty, and with one entry; the answer to a qpop; a held fault entry. -/
def queueIo (en : Bool) (head tail : Nat) : IoDie := { IoDie.reset with queues := [(511, ⟨en, 0, 0, 0, 6, head, tail, 0⟩)] }
def waitsCell (push : Bool) : Cell := { cell0 with qwaits := [⟨5, 0, 0x0010, push, 511, 0x1FFF0, 9, true⟩] }
def faultOn : State :=
  { (State.reset.onMod 0 fun x => { x with io := queueIo true 63 63 }).setCell 0 0
      { cell0 with faults := [⟨0, [1, 2, 3, 4]⟩], faultq := 0x800001FF } with focus := ⟨0, 0, 0, 0, []⟩ }

theorem wit_QueueStepsRun :
    ((queueIo false 0 0).queue 511).en = false ∧ ((queueIo true 1 0).queue 511).room = 0 ∧ ((queueIo true 1 0).queue 511).en = true ∧
    ((queueIo true 63 63).queue 511).count = 0 ∧ ((queueIo true 63 63).queue 511).room ≠ 0 ∧ ((queueIo true 63 63).queue 511).kind ≠ 1 ∧
    ((queueIo true 63 0).queue 511).count ≠ 0 ∧
    (waitsCell false).scbClear 5 [] [(0x1FFF0, 16)] = true ∧ (0x0000003F : Word).toNat / 2 ^ 16 ≠ 0x0402 ∧
    ((faultOn.cell 0 0).faults = [⟨0, [1, 2, 3, 4]⟩] ∧ faultQueue (faultOn.cell 0 0).faultq = some 511 ∧
      (faultOn.mod 0).io.takes 511 = true ∧ ((faultOn.mod 0).io.queue 511).kind ≠ 1) ∧
    (((queueIo true 63 63).queue 511).room < 64 ∧ 63 ≤ ((queueIo true 63 63).queue 511).room) ∧
    (0 < 2 ^ ((queueIo true 63 0).queue 511).log ∧ (0 + 2 ^ 6 - 63) % 2 ^ 6 ≤ ((queueIo true 63 0).queue 511).count ∧
      ((queueIo true 63 0).queue 511).count < (1 + 2 ^ 6 - 63) % 2 ^ 6) := by decide

/-- The host writes word `w` at offset `o` of module 0. -/
def hostOn (io : IoDie) (o w : Nat) : State :=
  { State.reset.onMod 0 fun x => { x with io := io } with cycle := 100, focus := ⟨0, hostUnit, o, w, []⟩ }

theorem writes_hostOn (io : IoDie) (o w : Nat) : (hostOn io o w).HostWrites 0 o (BitVec.ofNat 32 w) := ⟨rfl, rfl, rfl, rfl⟩

/-- HostWritesRun: the last endpoints off and on; a stage to forward; a packet for the host. -/
def ingressIo (x : Ingress) : IoDie := { IoDie.reset with ingress := [(127, x)] }
def openIngress : Ingress :=
  { Ingress.reset with
    en := true, valid := true, pst := 1, fbc := 1, slots := 2, doorbells := [1], peer := 0x0000080F, stage1 := memRun 0 (leBytes 4 7 ++ leBytes 4 4) }
def egressIo (y : Egress) : IoDie := { IoDie.reset with egress := [(127, y)] }
def openEgress : Egress := { Egress.reset with en := true, valid := true, pst := 1, slots := 2, peer := 0x0000080F }

theorem wit_HostWritesRun_endpoints :
    ((ingressIo openIngress).ingressAt 127).en = true ∧ openIngress.stageFree 0 = true ∧ Ingress.reset.en = false ∧
    Ingress.reset.wasOff = false ∧ (0x80020002 : Word).getLsbD 31 = true ∧ (0x00020002 : Word).getLsbD 31 = false ∧
    openIngress.doorbells = [1] ∧ 1 ≤ openIngress.fbc ∧ Egress.reset.en = false ∧ openEgress.valid = true ∧
    (bringing cell0 (egressIo openEgress) 2048 (.packet 127 packet0)).Brings (msgOf 2048 (.packet 127 packet0)) (.packet 127 packet0) ∧
    (bringing cell0 (egressIo openEgress) 2048 (.openNote 127 true 0x80F)).Brings (msgOf 2048 (.openNote 127 true 0x80F))
      (.openNote 127 true 0x80F) := by
  refine ⟨by decide, by decide, by decide, by decide, by decide, by decide, by decide, by decide, by decide, by decide,
    brings_bringing _ _ _ _, brings_bringing _ _ _ _⟩

/-- The next write of a control register of cell 0. -/
def regOn (c : Cell) (o : Nat) (w : Word) : State := stepOn { c with regWrites := [(0x700000 + o, w)] } 0 0

theorem wit_HostWritesRun_registers :
    (regOn cell0 0xC 0x10000).RegWrites 0 0 0xC 0x10000 [] ∧
    injects 2 0x80000007 0x61FFFC = some [7] ∧ injects 0 0x80000047 0x1FFFF8 = some [71] ∧
    (tget (0, 0) { cell0 with inject := [(0, 0, 0x1FFFF8)] }.inject 0).2 = 0x1FFFF8 ∧
    (let row : Word := 0x80000001
     let col : Word := 0xC0000001
     row.getLsbD 31 = true ∧ row.getLsbD 30 = false ∧ col.getLsbD 30 = true ∧ cell0.repairAt = none ∧
       cell0.spares (repairStore (row &&& 0x607FFF0F)) (repairBank (row &&& 0x607FFF0F)) false < 4 ∧
       ¬ ({ cell0 with remaps := List.replicate 2 ⟨repairStore (col &&& 0x607FFF0F), repairBank (col &&& 0x607FFF0F), true, 0⟩ } : Cell).spares
         (repairStore (col &&& 0x607FFF0F)) (repairBank (col &&& 0x607FFF0F)) true < 2) ∧
    ({ cell0 with repairAt := some 100 } : Cell).repairAt = some 100 ∧
    (hostOn IoDie.reset 0x50000C 256).HostWrites 0 0x50000C 256 ∧ (256 : Word).toNat ≤ 256 ∧ IoDie.reset.temp < 1050 := by
  refine ⟨⟨rfl, rfl, by decide, rfl⟩, by decide, by decide, by decide, by decide, by decide, writes_hostOn _ _ _, by decide, by decide⟩

/-! ### Links, placement and the module -/

/-- Two modules; link 0 of module 0 is cabled to link 4 of module 1, and the flit is on its way to module 0. -/
def cabled (k k' : Link) (io : IoDie) (fs : List FlitBody) : State :=
  { State.reset with
    cycle := 100
    mods := [(0, { Module.reset with io := { io with links := [(0, k)], splits := [] } }),
      (1, { Module.reset with io := { IoDie.reset with links := [(4, k')], chip := 1 } })]
    cables := [(⟨0, 0⟩, ⟨1, 4⟩)]
    focus := ⟨0, ioUnit, 7, 0, []⟩
    flits := fs.map fun b => ⟨7, 100, ⟨0, 0⟩, b, 0⟩
    net := [{ msgOf 0 (.ack 5 0) with place := .sent 4, mod := 1 }], nextId := 8 }

def upLink : Link := { Link.reset with state := .up, width := 16, rx := 4095, outst := [⟨9, ⟨0, 1⟩, 2, 5, 0, ⟨1, 0⟩, [3]⟩] }
def about (s : State) (j v : Nat) : State := { s with focus := ⟨0, ioUnit, j, v, []⟩ }

theorem wit_LinkStepsRun_flits :
    let s (b : FlitBody) := cabled { upLink with owed := 16, replay := [⟨4095, 7, true, 1, 2, 90, true, true⟩] } upLink IoDie.reset [b]
    (∀ b ∈ [FlitBody.packet 4095 7 2 1 false, .packet 4095 7 2 1 true, .ack 4095 [0, 0, 1, 0, 0, 0, 0, 0], .nak 4095, .time 0 5 0],
      (s b).flitAt 7 = some ⟨7, 100, ⟨0, 0⟩, b, 0⟩ ∧ ((s b).link 0 0).state = .up) ∧
    ((s .isolate).msg 7 ≠ none ∧ (s .isolate).farEnd ⟨0, 0⟩ = some ⟨1, 4⟩ ∧ 16 ≤ ((s .isolate).link 0 0).owed ∧
      ((s .isolate).link 0 0).timeAt ≤ 100) ∧
    ({ IoDie.reset with midValid := true } : IoDie).head.1 ≠ 1023 := by decide

theorem wit_LinkStepsRun_states :
    let t (x : LinkState) := cabled { upLink with state := x } { upLink with state := x } IoDie.reset []
    ((t .train).farEnd ⟨0, 0⟩ = some ⟨1, 4⟩ ∧ (t .train).agreed ⟨0, 0⟩ ⟨1, 4⟩ (laneMask [0]) = some (8, 8) ∧
      (t .train).trains ⟨0, 0⟩ = true ∧ (t .train).trains ⟨1, 4⟩ = true ∧
      ((cabled { upLink with ident := some (1023, 63) } upLink IoDie.reset []).link 0 0).ident = some (1023, 63)) ∧
    ((IoDie.reset.lanes 0).1 ≤ 15 ∧ 15 < (IoDie.reset.lanes 0).1 + (IoDie.reset.lanes 0).2) ∧
    ((t .retrain).agreed ⟨0, 0⟩ ⟨1, 4⟩ (upLink.failed ||| upLink.failed) = some (16, 0) ∧ 100 ≤ upLink.since + 4000) ∧
    (upLink.since + 4000 < ({ t .retrain with cycle := 4001 } : State).cycle) ∧
    (upLink.lastRx + 65536 ≤ ({ t .up with cycle := 65536 } : State).cycle) ∧
    (cabled upLink upLink IoDie.reset [.isolate]).flitAt 7 = some ⟨7, 100, ⟨0, 0⟩, .isolate, 0⟩ ∧
    (IoDie.reset.linkExists 0 = true ∧ (8 : Word).getLsbD 3 = true ∧ (8 : Word).getLsbD 2 = false ∧ (4 : Word).getLsbD 2 = true ∧
      (hostOn IoDie.reset 0x410000 8).HostWrites 0 (0x410000 + 64 * 0) 8) := by
  refine ⟨by decide, by decide, by decide, by decide, by decide, by decide, by decide, by decide, by decide, by decide,
    writes_hostOn _ _ _⟩

/-- PlacementStepsRun: units 2 (a phase) and 3 (its job) with their entries 0 and 63, live or not; cell 0 runs a record of both. -/
def unitEntry (level id : Nat) : UnitEntry := ⟨true, level, false, 0, id, true, 1, 0, 1, 0, 1, 0, false, if level = 2 then some 3 else none⟩
def unitIo (fired : Bool) : IoDie :=
  { IoDie.reset with units := [(0, unitEntry 2 2), (63, { unitEntry 3 3 with fired := fired })] }
def unitCell : Cell := { cell0 with recs := [(0, { rec0 with phase := 2, job := 3 })] }
def unitOn (fired : Bool) (u : Nat) (b : Body) : State := bringing unitCell (unitIo fired) u b

theorem wit_PlacementStepsRun_units :
    (unitIo false).unitOf 2 2 = some (0, unitEntry 2 2) ∧ (unitEntry 2 2).nmod ≤ 1 ∧ 1 < ({ unitEntry 2 2 with nmod := 2 } : UnitEntry).nmod ∧
    (unitEntry 2 2).fired = false ∧ (unitEntry 2 2).parent = some 3 ∧ (unitEntry 3 3).parent = none ∧ (tget 0 (unitIo true).uvec 0).getLsbD 31 = false ∧
    (unitIo true).unitOf 3 3 = some (63, { unitEntry 3 3 with fired := true }) ∧
    ((unitCell.record 0).state = .running ∧ (unitCell.record 0).inUnit 2 2 = true) ∧
    ((with0 fun st => { st with waiting := { Waits.none with unit := some ⟨50, none, false, false⟩ } }).strand 0).waiting.unit = some ⟨50, none, false, false⟩ ∧
    ({ unitIo true with unitWaits := [⟨0, 0, 3, 3, 50⟩] } : IoDie).readyWait = some ⟨0, 0, 3, 3, 50⟩ := by decide +kernel

/-- A placement image of one section: bytes 1 to 4 at the end of the D-store of cell 5. The digest is SHAKE256 of its 20 bytes. -/
def digest0 : List Nat :=
  [95, 12, 95, 164, 142, 250, 96, 111, 25, 20, 39, 78, 75, 175, 186, 47, 132, 44, 73, 9, 99, 203, 184, 179, 102, 244, 208, 60, 2, 129, 34, 198,
   51, 33, 200, 27, 67, 151, 3, 153, 78, 88, 26, 182, 246, 255, 235, 21, 151, 105, 192, 77, 128, 105, 76, 233, 42, 134, 25, 112, 80, 25, 126, 32]
def section0 : List Nat := [80, 0, 0, 2, 252, 255, 31, 0, 4, 0, 0, 0, 0, 0, 0, 0, 1, 2, 3, 4]
def image0 : List Nat := [0x50, 0x37, 0x58, 0x47, 3, 0, 0, 0, 1, 0, 0, 0, 1, 0, 0, 0] ++ List.replicate 48 0 ++ digest0 ++ section0
def imageOn : State :=
  { State.reset.onMod 0 fun x => { x with io := { x.io with boot := .run, midValid := true } } with cycle := 100, focus := ⟨0, hostUnit, 0, 0, image0⟩ }

theorem wit_PlacementStepsRun_image :
    let image := image0.map fun b => BitVec.ofNat 8 b
    let x : Section' := ⟨2, ⟨0, 5⟩, 0x1FFFFC, [1, 2, 3, 4], section0.map fun b => BitVec.ofNat 8 b⟩
    imageOn.focus.u = hostUnit ∧ (imageOn.mod 0).io.boot = .run ∧ isPlacementImage image = true ∧ imageHome image = imageOn.chip 0 ∧
      imageBad image = false ∧ imageSections image = [x] ∧ x.at'.chip = imageOn.chip 0 ∧ x.off + x.data.length ≤ 0x200000 ∧
      imageOn.treeLinks 0 = [] ∧ (imageOn.mod 0).io.midValid = true ∧ imageUnstable [x] = none := by decide +kernel

/-- HOME waits for one answer, or two; a spare; a unit of placement 3 with its HOME here. -/
def homeIo (mods : Nat) : IoDie :=
  { IoDie.reset with
    boot := .run, placements := [⟨3, mods, 0, false, false, [0]⟩]
    units := [(0, ⟨true, 1, false, 0, 3, true, 1, 0, 1, 0, 1, 0, false, none⟩)] }

theorem wit_PlacementStepsRun_home :
    (homeIo 2).placements.find? (fun p => p.id == 3) = some ⟨3, 2, 0, false, false, [0]⟩ ∧
    (homeIo 1).placements.find? (fun p => p.id == 3) = some ⟨3, 1, 0, false, false, [0]⟩ ∧
    (State.reset.onMod 0 fun x => { x with io := homeIo 1 }).spare 0 = some 0 ∧
    ((homeIo 1).unitOf 1 3).isSome = true ∧
    (let s := bringing { endsCell .dead with recs := [(0, { rec0 with placement := 3 })] } (homeIo 1) 2048 (.startNote 3)
     ((s.cell 0 0).inCh 15).state = .dead ∧ ((s.cell 0 0).record (((s.cell 0 0).inCh 15).owner.toNat % 16)).placement = 3 ∧
       recordId ((s.cell 0 0).record (((s.cell 0 0).inCh 15).owner.toNat % 16)).gen (((s.cell 0 0).inCh 15).owner.toNat % 16) =
         ((s.cell 0 0).inCh 15).owner) := by decide +kernel

/-- ModuleStepsRun: a module that waits for its image, verifies one with a wrong magic, and one that is too long; requests to
Spire firmware at queue 10; a checkpoint and an attestation that are due. -/
def ioOn (io : IoDie) : State :=
  { State.reset.onMod 0 fun x => { x with io := io } with cycle := 2 ^ 20, focus := ⟨0, ioUnit, 10, 1, []⟩ }
def requestIo (w0 w3 : Nat) : IoDie :=
  { IoDie.reset with
    queues := [(10, ⟨true, 0, 0, 0, 6, 0, 1, 0⟩), (11, ⟨true, 0, 0, 64, 6, 0, 0, 0⟩)]
    qsram := memRun 0 (leBytes 4 w0 ++ leBytes 4 0x5000 ++ leBytes 4 0 ++ leBytes 4 w3), midValid := true }

theorem wit_ModuleStepsRun :
    (ioOn IoDie.reset).hasModule 0 = true ∧ (IoDie.reset.powered = true ∧ IoDie.reset.boot = .reset ∧ IoDie.reset.bootAt + 65536 ≤ 2 ^ 20) ∧
    (memWord ({ IoDie.reset with boot := .verify } : IoDie).stage 0 ≠ 0x47583742 ∧
      (let io : IoDie := { IoDie.reset with boot := .verify, stage := memRun 0 (leBytes 4 0x47583742 ++ List.replicate 4 0 ++ leBytes 4 0xF0000) }
       memWord io.stage 0 = 0x47583742 ∧ 960 * 1024 < 0xC40 + io.bodyLength)) ∧
    ((10, 2 ^ 20) ∈ ({ IoDie.reset with unready := [(10, 2 ^ 20)] } : IoDie).unready) ∧
    ((requestIo 0x100000FF 0).queueHead 10 = some [0x100000FF, 0x5000, 0, 0] ∧ (0x100000FF : Word).toNat / 2 ^ 24 = 0x10 ∧
      ((requestIo 0x100000FF 0).onQueue 10 fun q => { q with head := (q.head + 1) % 2 ^ q.log }).takes 11 = true ∧
      (requestIo 0x12000000 0x5000).queueHead 10 = some [0x12000000, 0x5000, 0, 0x5000] ∧ (0x12000000 : Word).toNat / 2 ^ 24 = 0x12 ∧
      (ioOn (requestIo 0x12000000 0x5000)).moduleOf (0x5000 / 2 ^ 22) = some 0) ∧
    ((let io : IoDie := { IoDie.reset with pwr := 1400001 }
      io.pcap * 1000 < io.pwr.toNat) ∧
     (let io : IoDie := { IoDie.reset with pwr := 1329999 }
      io.pwr.toNat < io.pcap * 950) ∧
     (let io : IoDie := { IoDie.reset with pwr := 1330000 }
      io.pcap * 950 ≤ io.pwr.toNat ∧ io.pwr.toNat ≤ io.pcap * 1000)) ∧
    ((bringing cell0 { IoDie.reset with boot := .wait } 2048 (.image true [1, 2])).Brings (msgOf 2048 (.image true [1, 2])) (.image true [1, 2]) ∧
      (hostOn { IoDie.reset with boot := .wait } 0x500008 1).HostWrites 0 0x500008 1 ∧
      (hostOn IoDie.reset 0x500024 0xC0000000).HostWrites 0 0x500024 0xC0000000 ∧ (0xC0000000 : Word).getLsbD 30 = true ∧
      (hostOn IoDie.reset 0x500030 1).HostWrites 0 0x500030 1) := by
  refine ⟨by decide, by decide, by decide +kernel, by decide, by decide +kernel, by decide +kernel, brings_bringing _ _ _ _,
    writes_hostOn _ _ _, writes_hostOn _ _ _, by decide, writes_hostOn _ _ _⟩

/-! ### Further hypotheses and boundaries -/

/-- OperandTraps: the last declared register beside one above it, in each place of a syllable, and a second source of the wrong tag. -/
theorem wit_OperandTraps_places :
    (let s := on { cell0 with recs := [(0, { rec0 with desc := { desc0 with smax := 62, qmax := 6, vmax := 62 } })] }
     s.Opened 0 0 0 ∧ (s.cell 0 0).spire = false ∧ (s.desc 0 0 0).smax < (63 : BitVec 6).toNat ∧
       (62 : BitVec 6).toNat ≤ (s.desc 0 0 0).smax ∧ (s.desc 0 0 0).qmax < (7 : BitVec 6).toNat ∧ (s.desc 0 0 0).vmax < (63 : BitVec 6).toNat ∧
       s.DeclaresQ 0 0 0 [(0 : BitVec 3).toNat] ∧ clusterOf (62 : BitVec 6).toNat = clusterOf (63 : BitVec 6).toNat) ∧
    (let s := on (vecs (vreg 2 fun _ => 0) (vreg 3 fun _ => 0) VReg.zero)
     s.ReadyV 0 0 0 [3, 1, 2] 3 0 0 [] [] ∧ (s.rv 0 0 0 1).Has 2 ∧ ¬ (s.rv 0 0 0 2).Has 2) :=
  ⟨⟨opened_on _, rfl, by decide, by decide, by decide, by decide, .inr (by decide), by decide⟩,
    readyV_on rfl rfl _ _ _ _ _ _ (by decide) (by decide), by decide, by decide⟩

/-- WaitHaltYield: strand 1 still runs record 0 beside its bound strand 0. -/
def siblingsOn : State := on { cell0 with strands := cell0.strands.set 1 { strand0 with sibling := true } }

theorem wit_WaitHaltYield_siblings :
    siblingsOn.Ready 0 0 0 [] [] ∧ (siblingsOn.strand 0 0 0).sibling = false ∧ (siblingsOn.cell 0 0).siblings (siblingsOn.strand 0 0 0).entry ≠ [] ∧
    ((on cell0).cell 0 0).siblings (strand0.entry) = [] :=
  ⟨ready_on rfl _ _, rfl, by decide, by decide⟩

/-- ChainCheckFence: an arming with 31 commands in flight and 15 queued, none of which holds the image's bytes. -/
theorem wit_ChainCheckFence_room :
    let c := chainOn.cell 0 0
    let d : Cell := { c with
      scb := (List.range 31).map fun i => ⟨i, 1, [], [], [], [], i⟩
      arr := { c.arr with wlds := (List.range 15).map fun i => ⟨i, 1, 0x0010, 0, 0, 0, 0, 0, 0, 64, 0, none⟩ } }
    d.scb.length < 32 ∧ d.arr.queued < 16 ∧ d.drainWaits 7 = false ∧ d.flips = [] ∧ d.held .load 64 64 = false ∧
      (chainOn.rs 0 0 0 5).toNat % 64 = 0 := by decide

/-- ArrayStepsRun: a wld that has left the queue, before a later mswap, on a bank that has just become EMPTY or never held a tile. -/
theorem wit_ArrayStepsRun_order :
    let a (since : Nat) : ArrayUnit := { ArrayUnit.reset with
      wlds := [wldCmd none], passes := [{ swapCmd with op := 2 }], banks := ArrayUnit.reset.banks.modify 1 fun b => { b with since := since } }
    (∀ n ∈ [0, 99], ((a n).wlds = [wldCmd none] ∧ ((a n).bank 1).state = .empty ∧ ((a n).bank 1).since = n ∧ (a n).taken.contains 1 = true ∧
      (∀ p ∈ (a n).passes, p.swap = true → (wldCmd none).op < p.op) ∧ (wldCmd none).issue < 100)) ∧
    (∀ w ∈ ({ ArrayUnit.reset with passes := [swapCmd], wlds := [{ wldCmd none with op := 2 }] } : ArrayUnit).wlds, swapCmd.op < w.op) := by decide

/-- BarrierStepsRun: at barrier 5 an arrival that is due beside one that waits for a write, at 30 and 31 a tbinit that answers and one that does not. -/
def tbCell : Cell :=
  { cell0 with
    scb := [⟨3, 0, [], [(0, 4)], [], [], 3⟩]
    tbs := [(5, ⟨2, 1, 7, 10, .armed, 5, 0⟩)]
    tbjobs := [⟨4, 0, 0x0010, 5, false, 5, 0, 9⟩, ⟨2, 0, 0x0010, 5, false, 7, 0, 9⟩, ⟨10, 1, 0x0010, 30, true, 0x80000002, 0, 12⟩,
      ⟨9, 1, 0x0010, 31, true, 0, 0, 0⟩] }
def tbEnd : State := { stepOn tbCell 0 0 with phase := .stage 11 }

theorem wit_BarrierStepsRun :
    (tbCell.tbjobs.filter fun j => !j.init && tbCell.tbarrDue j) = [] ++ ⟨2, 0, 0x0010, 5, false, 7, 0, 9⟩ :: [] ∧
    ((tbCell.tbar 5).state = .armed ∧ (tbCell.tbar 5).exparr ≤ (tbCell.tbar 5).arr + 1 ∧ (tbCell.tbar 5).expsec ≤ (tbCell.tbar 5).sec + 7) ∧
    tbEnd.cur = none ∧ tbEnd.mods ≠ [] ∧ tbEnd.todo = [] ∧ tbEnd.phase = .stage 11 :=
  ⟨by decide, by decide, rfl, by decide, rfl, rfl⟩

/-- FpValues: the greatest and the least magnitudes and zeros; NaNs, quiet and signalling; infinities; and E4M3 at 464, where it
saturates. -/
theorem wit_FpValues :
    (f32Finite 0x7F7FFFFF ∧ f32Finite 0x80000001 ∧ f32Finite 0x80000000 ∧ f32Units 0x00000001 + f32Units 0x80000001 = 0) ∧
    (f32Nan 0x7FC00000 ∧ f32Signals 0xFFBFFFFF ∧ ¬ f32Signals 0x7FC00000) ∧
    ((0xFF800000 : Word).toNat % 2 ^ 31 = 0x7F800000 ∧ (0x80000000 : Word).toNat % 2 ^ 31 = 0 ∧ 2 ^ 23 ≤ (0x00800000 : Word).toNat % 2 ^ 31) ∧
    ((f32Units 0x43E80000).natAbs = 464 * 2 ^ 149 ∧ f32Finite 0x43E80001 ∧ 464 * 2 ^ 149 < (f32Units 0x43E80001).natAbs ∧ ¬ f32Finite 0x7F800000) ∧
    ((0x7F : Byte).toNat % 128 = 127 ∧ (0xFE : Byte).toNat % 128 ≠ 127) := by
  unfold f32Signals f32Nan f32Finite; decide +kernel

/-- ArrayValues: 64 and 32 columns; an E4M3 tile of zeros; scales with E of 1 and 254; lanes of zero, and of one as great as a word holds. -/
theorem wit_ArrayValues :
    ((expandTile 2 [] [] 32 1).1.mirror = true ∧ (expandTile 2 [] [] 33 3).1.mirror = false ∧ (expandTile 3 [] [] 1 0).2 = 0) ∧
    (scalePlain 0x00001000 ∧ scalePlain 0x000FEFFF) ∧
    ((0x00000FFF : Word).toNat / 2 ^ 12 = 0 ∧ 255 ≤ (0x000FF000 : Word).toNat / 2 ^ 12) ∧
    (f32Finite 0x80000001 ∧ f32Units 0x80000001 < 0 ∧ f32Units 0x80000000 = 0 ∧ f32Units 0x7F7FFFFF ≠ 0) ∧
    ([0x3F800000] : List Word)[0]? = some 0x3F800000 := by
  unfold scalePlain f32Finite; decide +kernel

/-- CarriedStepsRun: a READY entry whose write or atomic its record admits, one that it does not; slots with and without the node. -/
def readyHold (kind : ReqKind) (off : Nat) : HoldEntry := ⟨reqOf kind off [1, 2, 3, 4] false none 0x1FF, ⟨0, 1⟩, 2, 50, 0, some 99⟩
def readyCell (kind : ReqKind) (off : Nat) : Cell := { cell0 with hold := [(31, readyHold kind off)] }

theorem wit_CarriedStepsRun_ready :
    (readyCell .write 0x2FFFC).nextHold 100 = some (31, readyHold .write 0x2FFFC) ∧
    ((readyCell (.atomic .radd) 0x2FFFC).nextHold 100 = some (31, readyHold (.atomic .radd) 0x2FFFC) ∧
      (readyCell (.atomic .radd) 0x2FFFC).admits (isSpire 1) (readyHold (.atomic .radd) 0x2FFFC).req = true ∧
      (readyCell (.atomic .radd) 0x2FFFC).flips = []) ∧
    ((readyCell .write 0x30000).nextHold 100 = some (31, readyHold .write 0x30000) ∧
      (readyCell .write 0x30000).admits (isSpire 1) (readyHold .write 0x30000).req = false) ∧
    (let slots : List (Option Slot) := [none, some ⟨1, false⟩, none, none]
     slots[1]? = some (some ⟨1, false⟩) ∧ (∀ l < 1, slots[l]? ≠ some (some ⟨1, false⟩)) ∧ some ⟨1, true⟩ ∈ slots.set 1 (some ⟨1, true⟩) ∧
       none ∉ fullSlots) := by decide

/-- ChannelStepsRun: a poisoned packet, and one for an end whose record is gone. -/
theorem wit_ChannelStepsRun_poison :
    let c := endsCell .opened
    let lost : Cell := { c with ins := [(15, { c.inCh 15 with owner := 0x0020 })] }
    ({ packet0 with poison := true, etag := 0xC0 } : Packet).poison = true ∧ (lost.inCh 15).state = .opened ∧
      (lost.entryOf (lost.inCh 15).owner).isNone = true ∧ (lost.inCh 15).miss = false ∧ lost.faults = [] := by decide

/-- QueueStepsRun: the error word of queue 511, and a queue that starts firmware. -/
theorem wit_QueueStepsRun_kinds :
    ((0x040201FF : Word).toNat / 2 ^ 16 == 0x0402) = true ∧ (0x0000003F : Word).toNat / 2 ^ 16 ≠ 0x0402 ∧
    ((⟨true, 2, 0, 0, 6, 63, 63, 0⟩ : Queue).kind = 2 ∧ (⟨true, 2, 0, 0, 6, 63, 63, 0⟩ : Queue).room ≠ 0) ∧
    ((waitsCell true).qwaits = [⟨5, 0, 0x0010, true, 511, 0x1FFF0, 9, true⟩] ∧ ((waitsCell true).strand 0).mode ≠ .idle ∧
      ((waitsCell true).strand 0).recid.toNat = 0x0010) := by decide

/-- HostWritesRun: PCEIL is bits 8:0 of its word, from 1 to 256. -/
theorem wit_HostWritesRun_ceil :
    (1 ≤ (0xFFFFFE01 : Word).toNat % 512 ∧ (256 : Word).toNat % 512 ≤ 256) ∧ (0xFFFFFE00 : Word).toNat % 512 = 0 ∧
      256 < (257 : Word).toNat % 512 := by decide

/-- LinkStepsRun: a link that has asked for a packet again, and a TIME flit from a head that leads, from one beyond the module's
own number, and over one hop too many. -/
theorem wit_LinkStepsRun_replay :
    let k : Link := { upLink with discarding := some 0 }
    let io : IoDie := { IoDie.reset with midValid := true, chip := 3, links := [(0, { upLink with heard := some (2, 1022) })] }
    ((cabled k upLink IoDie.reset [.packet 3 7 2 1 true]).flitAt 7 = some ⟨7, 100, ⟨0, 0⟩, .packet 3 7 2 1 true, 0⟩ ∧ ¬ (∀ e, k.discarding = some e → e < 0) ∧ (3 : Nat) ≠ k.rx) ∧
    ((1022 : Nat) < 1023 ∧ (∀ j r, (j, r) ∈ io.links → ∀ a n, r.heard = some (a, n) → 2 < a ∨ 2 = a ∧ 1022 ≤ n) ∧ 2 < io.chip) ∧
    (io.midValid = true ∧ io.chip ≤ 3) := by
  refine ⟨by decide, ⟨by decide, fun j r h a n ha => ?_, by decide⟩, by decide⟩
  simp only [List.mem_singleton, Prod.mk.injEq] at h
  obtain ⟨-, rfl⟩ := h
  simp only [Option.some.injEq, Prod.mk.injEq] at ha
  omega

/-- PlacementStepsRun: chip 77 behind an isolated link; a placement that has failed; a spare; a module to restore; a pinned entry. -/
def failedIo : IoDie := { homeIo 1 with links := [(0, { Link.reset with state := .isolated, nbrValid := true, nbrChip := 77 })] }
def failedOn (v : Nat) (data : List Nat) : State :=
  { State.reset.onMod 0 fun x => { x with io := failedIo } with cycle := 100, focus := ⟨0, ioUnit, 77, v, data⟩ }
def adopted : State := (failedOn 7 [0, 0x1000]).onMod 0 fun x => { x with io := { x.io with chip := 77, midValid := true } }
def pinnedCell : Cell := { cell0 with recs := [(0, { rec0 with placement := 3 })], xset := [(255, ⟨0xE0000000, 0, 0x5000⟩)] }

theorem wit_PlacementStepsRun_failed :
    ((failedOn 4 []).failedChip 77 = true ∧ ((failedOn 4 []).mod 0).io.boot = .run ∧ (failedOn 4 []).spare 0 = some 0) ∧
    (adopted.failedChip 77 = true ∧ adopted.moduleOf 77 = some 0 ∧ (adopted.mod 0).io.transfer = none ∧ 0x1000 % 4096 = 0) ∧
    ({ homeIo 1 with placements := [⟨3, 1, 0, true, false, [0]⟩] } : IoDie).placements.find? (fun p => p.id == 3) = some ⟨3, 1, 0, true, false, [0]⟩ ∧
    ((pinnedCell.xentry 255).flags.getLsbD 30 = true ∧ (0, { rec0 with placement := 3 }) ∈ pinnedCell.recs) ∧
    (∀ p ∈ cell0.xset, p.2.flags.getLsbD 30 = false) := by decide

/-- ModuleStepsRun: whatever the self-test of module 0 gives; a checkpoint before its first part, in its last and idle; a hot module. -/
theorem wit_ModuleStepsRun_parts :
    (Config.selfTest 0 0 = none ∨ ∃ d, Config.selfTest 0 0 = some d ∧ IoDie.reset.bootAt + min d 65536 ≤ (ioOn IoDie.reset).cycle) ∧
    (let io (n : Nat) : IoDie := { IoDie.reset with transfer := some ⟨true, 0x1000, n, 5⟩ }
     (io 0).transfer = some ⟨true, 0x1000, 0, 5⟩ ∧ (io 5119).transfer = some ⟨true, 0x1000, 5119, 5⟩ ∧ 5 ≤ (ioOn (io 0)).cycle ∧
       IoDie.reset.transfer = none ∧ ((ioOn (io 0)).cell 0 0).underRepair 0x600000 0x20000 = false ∧
       ({ cell0 with repairAt := some 100, repaired := 0x80000000 } : Cell).underRepair 0 0x200000 = true) ∧
    (1050 ≤ 1050 ∧ 1149 < 1150) := by
  refine ⟨?_, by decide +kernel, by decide⟩
  cases h : Config.selfTest 0 0 with
  | none => exact .inl rfl
  | some d => exact .inr ⟨d, rfl, by have : IoDie.reset.bootAt = 0 := rfl; have : (ioOn IoDie.reset).cycle = 2 ^ 20 := rfl; omega⟩

/-! ### Checks of accesses, ill-formed bundles, handles that a write revokes, the choice of a strand, and routes -/

/-- AccessChecks: the last bytes of a region of each class, its permits for a record that is not bound, the carve-out and its
last byte, bytes in nothing, bytes across the end of a region, and an access of no bytes. -/
theorem wit_AccessChecks_regions :
    let d : Desc := { desc0 with regions := [⟨0, .priv, 0, 256⟩, ⟨1, .inbox, 512, 256⟩], wbase := 1024, spoff := 64, spill := 64 }
    let holds (c n : Nat) (r : Region) : Prop := r.off ≤ c ∧ c + n ≤ r.off + r.size
    let apart (c n a size : Nat) : Prop := n = 0 ∨ size = 0 ∨ c + n ≤ a ∨ a + size ≤ c
    (d.regions = [] ++ ⟨0, .priv, 0, 256⟩ :: [⟨1, .inbox, 512, 256⟩] ∧ holds 252 4 ⟨0, .priv, 0, 256⟩) ∧
    (d.regions = [⟨0, .priv, 0, 256⟩] ++ ⟨1, .inbox, 512, 256⟩ :: [] ∧ holds 512 4 ⟨1, .inbox, 512, 256⟩ ∧
      ∀ x ∈ ([⟨0, .priv, 0, 256⟩] : List Region), ¬ holds 512 4 x) ∧
    (∀ a ∈ [(1148, 4), (1152, 4), (1150, 4), (254, 4), (300, 0)], ∀ r ∈ d.regions, ¬ holds a.1 a.2 r) ∧
    (d.wbase + d.spoff ≤ 1148 ∧ 1148 + 4 ≤ d.wbase + d.spoff + d.spill) ∧
    (∀ a ∈ [(1152, 4), (300, 0)], (∀ r ∈ d.regions, apart a.1 a.2 r.off r.size) ∧ apart a.1 a.2 (d.wbase + d.spoff) d.spill) ∧
    ((∃ r ∈ d.regions, ¬ apart 254 4 r.off r.size) ∧ ¬ apart 1150 4 (d.wbase + d.spoff) d.spill) := by decide

/-- AccessChecks: a word that another strand wrote and released at 7, read by one that has acquired at 6 and at 8. -/
theorem wit_AccessChecks_race :
    ∃ w, (⟨64, 4, some (0, 1), some 7⟩ : Race).wr = some w ∧ w ≠ (0, 0) ∧ (6 ≤ 7 ∧ ¬ 8 ≤ 7) :=
  ⟨(0, 1), rfl, by decide, by decide⟩

/-- IllFormedTraps: the last address at which the bundles of the statement fit, and seven syllables of which none is the last. -/
def lastOn : State := on (with0 fun st => { st with pc := 32759 })
def openSeven : Bundle := { (on cell0).nextBundle 0 0 0 with syls := List.replicate 7 (((on cell0).sees 0 0 0 (.nop true)).syl .scalar true) }
def openAtEnd : Bundle := (on (with0 fun st => { st with pc := 32767 })).nextBundle 0 0 0

theorem wit_IllFormedTraps_bundles :
    (lastOn.Opened 0 0 0 ∧ (lastOn.strand 0 0 0).tl ≠ 2 ∧ (lastOn.strand 0 0 0).pc.toNat < 32760) ∧
    ((encode (.add false 1 2 3)).getLsbD 31 = false ∧ (Instr.add false 1 2 3).isSyllable = true) ∧
    (8 ≤ openSeven.syls.length + 1 ∧ openSeven.pc = ((on cell0).strand 0 0 0).pc ∧ ((on cell0).strand 0 0 0).tl ≠ 2) ∧
    32768 ≤ openAtEnd.pc.toNat + openAtEnd.syls.length + 1 :=
  ⟨⟨opened_on _, by decide, by decide⟩, by decide, by decide, by decide⟩

/-- HandleInstructions: a handle of entry 255, beside a window handle and an invalid one of the same index. -/
theorem wit_HandleInstructions_revoked :
    let meets (w : Word) : Prop := w.getLsbD 31 = true ∧ w.getLsbD 29 = false ∧ w.toNat % 256 = 255
    meets 0x878000FF ∧ ¬ meets 0xA78000FF ∧ ¬ meets 0x078000FF ∧ ¬ meets 0x878000FE := by decide

/-- RecordStepsRun: two ready strands of which one has yielded in the cycle before, one alone, and none. -/
def readyPair : Cell :=
  (with0 fun st => { st with ready := true, yielded := some 99, deficit := 300 }).setStrand 1
    { strand0 with ready := true, deficit := 300 }
def readyOne : Cell := with0 fun st => { st with ready := true }

theorem wit_RecordStepsRun_choice :
    (readyPair.choose 100 fun _ => 256).1 = some 1 ∧
    (∀ k < 2, (readyPair.strand k).ready = true ∧ ∀ j < 4, (readyPair.strand j).ready = true → readyPair.prioOf j ≤ readyPair.prioOf k) ∧
    ((readyOne.strand 0).ready = true ∧ ∀ j < 4, (readyOne.strand j).ready = true → j = 0) ∧
    (∀ j < 4, (cell0.strand j).ready = false) := by decide +kernel

/-- LinkStepsRun: chip 5 behind links 3 and 63, in the states that the rows of R380 tell apart; chip 6 behind link 4 alone; chip 7
is here, and chip 8 has no entry. -/
def routed (a b : LinkState) : IoDie :=
  { homeIo 1 with
    links := [(3, { Link.reset with state := a, credits := [4, 4, 4, 4, 4, 4, 4, 4] }), (4, { Link.reset with state := .isolated }),
      (63, { Link.reset with state := b, credits := [4, 4, 4, 4, 4, 4, 4, 4] })]
    routes := [(5, ⟨true, false, 3, 0x8000000000000000, []⟩), (6, ⟨true, false, 4, 0, []⟩), (7, ⟨true, true, 0, 0, []⟩)] }

abbrev linkIs (io : IoDie) (l : Nat) (x : LinkState) : Prop := (io.link l).state = x
abbrev inRoute (io : IoDie) (c l : Nat) : Prop := l < 64 ∧ ((io.route c).mask.getLsbD l = true ∨ l = (io.route c).first)
def bothUp : IoDie := routed .up .up

theorem wit_LinkStepsRun_routes :
    ((bothUp.route 7).here = true ∧ (bothUp.route 8).here = false ∧ (bothUp.route 8).v = false) ∧
    ((bothUp.route 5).here = false ∧ (bothUp.route 5).v = true ∧ (bothUp.route 5).first = 3) ∧
    ((bothUp.route 6).first < 64 ∧ (∀ l < 64, inRoute bothUp 6 l → l = (bothUp.route 6).first) ∧ linkIs bothUp 4 .isolated) ∧
    (¬ linkIs (routed .down .train) 3 .up ∧ ¬ linkIs (routed .down .train) 63 .retrain ∧
      ∀ l < 64, inRoute bothUp 5 l → l = 3 ∨ l = 63) ∧
    (∀ a ∈ [LinkState.up, .train, .retrain, .isolated, .down],
      inRoute (routed a .up) 5 63 ∧ linkIs (routed a .up) 63 .up ∧ linkIs (routed a .up) 3 a) ∧
    (inRoute (routed .train .retrain) 5 63 ∧ linkIs (routed .train .retrain) 63 .retrain ∧
      ∀ l < 64, inRoute (routed .train .retrain) 5 l → ¬ linkIs (routed .train .retrain) l .up) ∧
    (inRoute bothUp 5 3 ∧ linkIs bothUp 3 .up ∧ ∀ j < 64, inRoute bothUp 5 j → linkIs bothUp j .up →
      (bothUp.link j).credits.getD 3 0 ≤ (bothUp.link 3).credits.getD 3 0 ∧ 3 ≤ j) := by
  refine ⟨?_, ?_, ?_, ?_, ?_, ?_, ?_⟩ <;> decide +kernel

/-! ### Pending registers, results in flight, the other cases of loop, binds, carried copies, reserved words, flits that fail -/

/-- PendingRegisters: a bundle whose register waits; a delivery with a note that is due in stage 1; a full landing queue. -/
def pendingOn (r : Nat) : State := on (with0 fun st => { st with pend := [⟨r, 77⟩] })
def deliveredOn : State :=
  { State.reset.setCell 0 0 { (with0 fun st => { st with pend := [⟨63, 77⟩] }) with deliveries := [⟨100, 0, 77, 63, 5, [.taint 0xC0]⟩] } with
    cycle := 100, phase := .stage 1 }
def fullQueueOn : State := on (with0 fun st => { st with landing := List.replicate 32 ⟨.s 20, .word 0, 9, 0, 0, 0, 0, none⟩ })

theorem wit_PendingRegisters :
    ((pendingOn 63).Opened 0 0 0 ∧ (pendingOn 63).DeclaresS 0 0 0 [63, 62, 61, 60] ∧ (pendingOn 63).DeclaresH 0 0 0 [15] ∧
      (∃ p ∈ ((pendingOn 63).strand 0 0 0).pend, p.reg = (pendingOn 63).ps 0 0 0 63) ∧ (63 : BitVec 6) ≠ 0 ∧
      (15 : BitVec 5).toNat ≤ 15 ∧ ((pendingOn 63).cell 0 0).spire = false) ∧
    (deliveredOn.cur = none ∧ deliveredOn.todo = [] ∧ deliveredOn.phase = .stage 1 ∧
      (deliveredOn.cell 0 0).deliveries = [⟨100, 0, 77, 63, 5, [.taint 0xC0]⟩] ∧ 100 ≤ deliveredOn.cycle ∧
      ∃ p ∈ (deliveredOn.strand 0 0 0).pend, p.op = 77 ∧ p.reg = 63) ∧
    (fullQueueOn.Opened 0 0 0 ∧ fullQueueOn.DeclaresS 0 0 0 [1, 2, 3] ∧ fullQueueOn.Settled 0 0 0 [2, 3] [1] ∧
      (fullQueueOn.strand 0 0 0).landing.length = 32) :=
  ⟨⟨opened_on _, .inr (by decide), (declares_on (c := cell0) rfl).2.1 _ (by simp), by decide, by decide, by decide, rfl⟩,
    ⟨rfl, rfl, rfl, rfl, by decide, by decide⟩, opened_on _, .inr (by decide), ⟨by decide, by decide⟩, by decide⟩

/-- RttReturns: results in flight at level 2, a scalar's and one on its way to the address of the bank. -/
theorem wit_RttReturns_flight (reg : Reg) (h : reg = .s 63 ∨ reg = .pr 7) :
    let l : Landing := ⟨reg, .word 5, 9, 0, 0, 0, 0, none⟩
    let s := on (with0 fun st => { st with tl := 2, landing := [l] })
    s.Ready 0 0 0 [] [] ∧ (s.strand 0 0 0).tl ≠ 0 ∧ (s.strand 0 0 0).landing = [l] ∧ l.taint = none ∧ l.cvtSat = 0 ∧ l.nanScale = 0 ∧
      (l.reg = .s 63 ∨ l.reg = .pr 7) :=
  ⟨ready_on rfl _ _, (by decide : (2 : BitVec 2) ≠ 0), rfl, rfl, rfl, rfl, h⟩

/-- ResultsLand: a load that taints a strand, one whose strand is tainted by an older beat, and two of one beat out of order. -/
theorem wit_ResultsLand_taint :
    let keeps (st : Strand) (l : Landing) : Prop := st.taint = true ∧ ¬ (st.taintAt.1 = st.beat ∧ l.seq < st.taintAt.2)
    let l : Landing := ⟨.s 9, .word 0, 7, 3, 0, 0, 0, some 0xC0⟩
    let st (taint : Bool) (at' : Nat × Nat) : Strand := { strand0 with beat := 7, taint := taint, taintAt := at' }
    l.taint = some 0xC0 ∧ ¬ keeps (st false (0, 0)) l ∧ keeps (st true (6, 9)) l ∧ keeps (st true (7, 3)) l ∧
      ¬ keeps (st true (7, 4)) l := by
  refine ⟨rfl, ?_, ?_, ?_, ?_⟩ <;> decide

/-- LoopCases: on a Spire core, at levels 1 and 2, in a sibling; an empty trigger; a need that is not met, without and with another
record of the strand that is eligible. -/
def loopShort (recs : List (Nat × RecEntry)) : State :=
  loopOn id id fun c => { c with
    outs := [(0, { OutChan.reset with state := .opened, owner := 0x0010 })], recs := c.recs ++ recs }
def loopEmpty : State := loopOn (fun r => { r with desc := { r.desc with arrival := true, trig := 1 } }) id fun c =>
  { c with ins := [(1, { InChan.reset with state := .opened, owner := 0x0010 })] }

theorem wit_LoopCases_others :
    ((onSpire id).cell 0 1024).spire = true ∧
    ((loopOn id (fun st => { st with tl := 1 }) id).strand 0 0 0).tl ≠ 0 ∧
    ((loopOn id (fun st => { st with tl := 2 }) id).strand 0 0 0).mode = .running ∧
    ((loopOn id (fun st => { st with sibling := true }) id).strand 0 0 0).sibling = true ∧
    (let s := loopEmpty
     s.Ready 0 0 0 [] [] ∧ (s.cell 0 0).deadEnd (s.desc 0 0 0) = none ∧ (s.cell 0 0).trigOf (s.desc 0 0 0) = .empty) ∧
    (let s := loopShort []
     s.Ready 0 0 0 [] [] ∧ (s.cell 0 0).deadEnd (s.desc 0 0 0) = none ∧ (s.cell 0 0).shortOf (s.desc 0 0 0) ≠ [] ∧
       (s.strand 0 0 0).lc ≠ 0 ∧ (s.strand 0 0 0).preq = false ∧ ¬ ∃ p ∈ (s.cell 0 0).recs, p.1 ≠ (s.strand 0 0 0).entry) ∧
    (let s := loopShort [(15, { rec0 with state := .bound, desc := { desc0 with trips := 1 } })]
     s.Ready 0 0 0 [] [] ∧ (s.cell 0 0).deadEnd (s.desc 0 0 0) = none ∧ (s.cell 0 0).shortOf (s.desc 0 0 0) ≠ [] ∧
       ∃ p ∈ (s.cell 0 0).recs, p.1 ≠ (s.strand 0 0 0).entry ∧ p.2.strand = 0 ∧ (s.cell 0 0).eligible p.2 = true) :=
  ⟨rfl, by decide, rfl, rfl, ⟨plain_loopOn _ _ _ rfl, by decide, by decide⟩,
    ⟨plain_loopOn _ _ _ rfl, by decide, by decide, by decide, rfl, by decide⟩, plain_loopOn _ _ _ rfl, by decide, by decide, by decide⟩

/-- RecordInstructions: a descriptor with one region, a window and a channel of each kind, which every check passes; one of weight 0;
a cell with no entry left, and one with two ENDED. -/
def bindRaw (weight : Byte) : List Byte :=
  ((((((List.replicate 256 0).set 0x10 5).set 0x16 weight).set 0x22 1).set 0x34 1).set 0x36 1).set 0x83 0x20 |>.set 0x86 1
def bindCell (f : Nat → RecState) : Cell :=
  { Cell.reset false with
    ins := [(0, { InChan.reset with size := 64 })]
    recs := (List.range 16).map fun e => (e, { RecEntry.free with state := f e, endOrder := 40 - e, desc := Desc.zero }) }

theorem wit_RecordInstructions_binds :
    let d := descOf (bindRaw 1)
    let c := bindCell fun e => if 13 ≤ e then .ended else .bound
    ((∀ j < 16, (c.record j).state ≠ .free) ∧ (c.record 15).state = .ended ∧
      ∀ j < 16, (c.record j).state = .ended → j ≠ 15 → (c.record 15).endOrder < (c.record j).endOrder) ∧
    (∀ e < 16, ((bindCell fun _ => .bound).record e).state = .bound) ∧ ((Cell.reset false).record 0).state = .free ∧
    (d.inmask.getLsbD 0 = true ∧ d.outmask.getLsbD 0 = true ∧ d.inmask.getLsbD 1 = false) ∧
    (badFields (bindRaw 1) false = [] ∧ c.overlaps 15 d = [] ∧ c.sharedLimit 15 d = [] ∧ (c.inCh 0).spanOk d = true ∧
      (on c).unstable 0 0 d = []) ∧
    (0x14 ∈ badFields (bindRaw 0) false ∧ ∀ x ∈ badFields (bindRaw 0) false, 0x14 ≤ x) ∧ c.flips = [] := by
  refine ⟨?_, ?_, ?_, ?_, ?_, ?_, rfl⟩ <;> decide +kernel

/-- Copies: a discarded page on either side, and carried tokens: 0x107 is pending with a free slot, 0x108 has landed, 0x1107 is
foreign. -/
def carryOn (w1 w2 dh carry : Word) : State :=
  on { (with0 fun st => { scalars [(5, 0), (6, 0x8000)] st with
        h := (st.h.set 1 { near with w0 := w1 }).set 2 { far with w0 := w2 } }) with
    cds := [(31, ⟨1, dh, 0x8000, 0, 0, carry, 0⟩)]
    tokens := [(7, { TokEntry.free with state := .pending, gen := 1, slots := [some ⟨9, true⟩, none, none, some ⟨1, false⟩] }),
      (8, { TokEntry.free with state := .landed, gen := 1 })] }

def carries (w1 w2 dh carry : Word) : Bool :=
  let s := carryOn w1 w2 dh carry
  let v := s.sees 0 0 0 (.nop true)
  plain (s.cell 0 0) && (v.sideChecks 1 0 0x8000 0x8000 256 true false).isEmpty &&
    (v.sideChecks dh.toNat 0x8000 0x8000 0x8000 256 true true).isEmpty && !v.tokenFull carry (s.rh 0 0 0 dh.toNat).disc &&
    (s.cell 0 0).freeToken == some 0 && (s.cell 0 0).ops.isEmpty && (s.cell 0 0).tokenPending 0x107 && !(s.cell 0 0).tokenPending 0x108

theorem wit_Copies_carried :
    (carries near.w0 far.w0 1 0x107 = true ∧ carries near.w0 far.w0 1 0x1107 = true) ∧
    (carries 0x87C00000 far.w0 2 0x107 = true ∧ carries near.w0 0x8FC00000 2 0x108 = true) ∧
    ((⟨0x87C00000, 0, 0, 0⟩ : Handle).disc = true ∧ near.disc = false ∧ far.disc = false ∧ near.aper = 0 ∧ far.aper ≠ 0 ∧
      strand0.mode ≠ .idle ∧ tokenLocal 0 0 0x107 = true ∧ tokenLocal 0 0 0x108 = true ∧ tokenLocal 0 0 0x1107 = false) := by
  refine ⟨⟨?_, ?_⟩, ⟨?_, ?_⟩, ?_⟩ <;> decide

/-- OneSidedRemote: a Spire core's word for FAULTQ of cell 1 with a reserved bit, and one without. OneSidedLocal: the last word of
the cell's page is uncorrectable. -/
def spireFar : State := onSpire fun st => { st with h := st.h.set 2 { far with w3 := 0x00001070 } }

theorem wit_OneSided_reserved :
    (let v := spireFar.sees 0 1024 0 (.nop true)
     let h := spireFar.rh 0 1024 0 2
     spireFar.Ready 0 1024 0 [5, 6] [] ∧ h.valid = true ∧ h.aper ≠ 0 ∧ v.handleChecks 2 0x10 4 4 false false true false = [] ∧
       v.writesReserved .rst h 0x10 0x00000200 = true ∧ v.writesReserved .rst h 0x10 0x800001FF = false ∧
       (spireFar.strand 0 1024 0).tl ≠ 2 ∧ v.tokenFull 0 h.disc = false) ∧
    ({ cell0 with bad := [8191] } : Cell).corrupt 65532 4 = true :=
  ⟨⟨ready_onSpire _ rfl rfl (by show 0 < 32; decide) _ _, by decide, by decide, by decide, by decide, by decide, by decide, by decide⟩, by decide⟩

/-- LinkStepsRun: whether a flit fails, whatever Config says; an end that waits for the replay after its sender's fifth NAK hears the
sixth and not the fifth; a Spire core's RETRAIN of a link that is DOWN; a retraining at the same width. -/
theorem wit_LinkStepsRun_fails :
    (Config.flitFails 7 = false ∨ ¬ Config.flitFails 7 = false) ∧
    (let hears (k : Link) (era : Nat) : Prop := ∀ e, k.discarding = some e → e < era
     hears upLink 0 ∧ hears { upLink with discarding := some 5 } 6 ∧ ¬ hears { upLink with discarding := some 5 } 5) ∧
    (isSpire 1024 = true ∧ IoDie.reset.linkExists 0 = true ∧ Link.reset.state = .down ∧
      (4 : Word).getLsbD 3 = false ∧ (4 : Word).getLsbD 2 = true) ∧
    ((cabled { upLink with state := .retrain, failed := 1, width := 8 } { upLink with state := .retrain } IoDie.reset []).agreed
      ⟨0, 0⟩ ⟨1, 4⟩ 1 = some (8, 8)) := by
  refine ⟨?_, ⟨?_, ?_, ?_⟩, by decide, by decide⟩
  · cases Config.flitFails 7 <;> simp
  · exact fun e h => nomatch h
  · intro e h
    cases h
    decide
  · exact fun h => absurd (h 5 rfl) (by decide)

/-- FpValues: words of each kind: finite, 0, a subnormal, infinities, NaN that signal and not; block scales at their limits. -/
theorem wit_FpValues_kinds :
    (f32Finite 0x7F7FFFFF ∧ f32Units 1 = 1 ∧ ¬ f32Finite 0x7F800000 ∧ ¬ f32Nan 0xFF800000) ∧
    (f32Nan 0x7F800001 ∧ f32Signals 0x7F800001 ∧ ¬ f32Signals 0xFFC00000 ∧ f32Nan 0xFFC00000) ∧
    (scalePlain (0x00001000 &&& 0xFFFFF) ∧ scalePlain (0x000FEFFF &&& 0xFFFFF) ∧ (0x00000FFF : Word).toNat / 2 ^ 12 % 256 = 0 ∧
      (0x000FF000 : Word).toNat / 2 ^ 12 % 256 = 255) ∧
    ((0x80000000 : Word).toNat % 2 ^ 31 = 0 ∧ 2 ^ 23 ≤ (0x80800000 : Word).toNat % 2 ^ 31 ∧ (0x80800000 : Word).getLsbD 31 = true) := by
  simp only [f32Finite, f32Nan, f32Signals, f32Units, scalePlain]
  decide

/-- ChannelStepsRun: a slot and a payload that no repair holds, and one that it does. PlacementStepsRun: a unit that has not fired. -/
theorem wit_ChannelStepsRun_repair :
    let c : Cell := { cell0 with repairAt := some 100, repaired := 0 }
    cell0.underRepair 0 65536 = false ∧ c.underRepair (repairBase 0) 1 = true ∧ c.underRepair (repairBase 0 + 65536) 16 = false ∧
      (unitEntry 2 2).fired = false := by decide

/-- FpValues: 127, -149, 128, a number between -150 and -149, a power of two that is subnormal, and numbers between powers of two. -/
theorem wit_FpValues_powers :
    (f32Units 0x42FE0000 = 127 * 2 ^ 149 ∧ f32Units 0xC3150000 = -149 * 2 ^ 149 ∧ 128 * 2 ^ 149 ≤ f32Units 0x43000000) ∧
    (-149 * 2 ^ 149 < f32Units 0xC314FFFF ∧ f32Units 0xC314FFFF < (-149 + 1) * 2 ^ 149 ∧ 126 * 2 ^ 149 < f32Units 0x42FDFFFF) ∧
    (-150 * 2 ^ 149 < f32Units 0xC3158000 ∧ f32Units 0xC3158000 < -149 * 2 ^ 149 ∧ f32Units 0xC3160000 ≤ -150 * 2 ^ 149) ∧
    (f32Units 0x00000001 = 2 ^ 0 ∧ f32Units 0x7F000000 = 2 ^ 276 ∧ 2 ^ 276 < f32Units 0x7F7FFFFF ∧ f32Units 0x7F7FFFFF < 2 ^ (276 + 1)) := by
  decide +kernel

/-- ChannelInstructions: sset of each kind of field, at the ends of their values, on ends that are open and on ends that are not. -/
def ssetOn (state : EndState) : State :=
  on { (with0 fun st => { st with tl := 1 }) with
    outs := [(14, { OutChan.reset with state := state, owner := 0x0010 })]
    ins := [(14, { InChan.reset with state := state, owner := 0x0010 })] }

theorem wit_ChannelInstructions_sset :
    let c := (ssetOn .closed).cell 0 0
    let d := (ssetOn .opened).cell 0 0
    ([(1, 0x1FFF80), (2, 65536), (3, 64), (4, 0xFFBFF00F), (5, 1), (6, 0xFFFF), (8, 0x00000001), (9, 0x01000010), (10, 0xFFFF), (0, 0), (0, 1)].all
      fun p => c.writeFault false 14 p.1 p.2 == 0) = true ∧
    ([(3, 1), (4, 0xFFC0007F), (5, 0), (6, 0), (7, 31), (11, 0xFFFFFFFF), (0, 0), (0, 1)].all fun p => c.writeFault true 14 p.1 p.2 == 0) = true ∧
    ([(8, 0x88310001), (9, 0x01000001), (0, 0), (0, 1)].all fun p => d.writeFault false 14 p.1 p.2 == 0) = true ∧
    ([(11, 1), (0, 0), (0, 1)].all fun p => d.writeFault true 14 p.1 p.2 == 0) = true ∧
    (c.inCh 14).claims = [] ∧ peerIsHost (c.inCh 14).peer = false ∧ (peerAddr (c.outCh 14).peer).1.chip = (ssetOn .closed).chip 0 ∧
    ((ssetOn .closed).strand 0 0 0).tl ≠ 0 := by decide

/-- RecordStepsRun: a strand whose record an in-channel and an out-channel pace; and a Spire core. -/
theorem wit_RecordStepsRun_weights :
    let c : Cell :=
      { cell0 with
        ins := [(15, { InChan.reset with state := .opened, owner := 0x0010, wc := 9 })]
        outs := [(15, { OutChan.reset with state := .opened, owner := 0x0010, weighted := true, weight := 7 })] }
    let s := stepOn c 0 0
    c.spire = false ∧ s.weightEff 0 0 0 = 7 ∧ (c.strand 0).recid = 0x0010 ∧ (State.reset.cell 0 1024).spire = true := by decide

/-- LinkStepsRun: an ACK that comes while the end waits for a replay, over a cable to another end. -/
theorem wit_LinkStepsRun_lostAck :
    let s := cabled { upLink with discarding := some 0 } upLink IoDie.reset [.ack 4095 [0, 0, 1, 0, 0, 0, 0, 0]]
    (s.flitAt 7).map (fun f => f.body) = some (.ack 4095 [0, 0, 1, 0, 0, 0, 0, 0]) ∧ (s.flitAt 7).map (fun f => f.era) = some 0 ∧
      s.farEnd ⟨0, 0⟩ = some ⟨1, 4⟩ ∧ (s.link 0 0).discarding = some 0 ∧ (s.link 0 0).state = .up := by decide

/-! ### The words that the chapters of the spec write out -/

/-- Each word decodes to the instruction beside it, and is its encoding. -/
def reads (l : List (Nat × Instr)) : Bool := l.all fun p => decode (BitVec.ofNat 32 p.1) == p.2 && encode p.2 == BitVec.ofNat 32 p.1

/-- Chapters 3 to 7. -/
theorem test_words_scalar : reads
    [(0x008C3900, .add false 6 7 8), (0x22080283, .ldw false 4 0 5 3), (0xC7060855, .vaddF true 3 1 2 5 1), (0xB113FFE0, .bnz true 9 0x1FFE0),
     (0x920A0002, .mfs true 5 2), (0x92803002, .mts true 6 2), (0x93840000, .rdid true 2 0), (0xB0920005, .bz true 9 5),
     (0xB185FFF8, .bqa true 2 0x1FFF8), (0xB2800028, .call true 0x28), (0xB301F800, .jr true 63), (0xB4003800, .wait true 7),
     (0xB7000005, .trap true 5), (0xB7800000, .rtt true), (0xB8000000, .halt true), (0xB8800000, .yield true), (0xB9000000, .ebrk true 0),
     (0xB99A0002, .mfc true 13 2), (0xBA007004, .mtc true 14 4), (0xA3924182, .stw true 9 2 3 2), (0xA08E217F, .ldbu true 7 1 2 0x7F),
     (0xA4100222, .vld true 8 0 4 2 2), (0xA684032F, .vlds true 2 0 6 2 0xF), (0xA5D07490, .vgth true 40 3 41 1 0),
     (0xA90A030E, .amoadd true 5 0 6 7), (0xAC908494, .amocas true 8 4 9 10), (0x869820A0, .div true 12 4 5), (0xA8F47800, .hchk true 58 15),
     (0x279E0720, .xlat false 15 0 57), (0x8B965010, .addi true 11 10 16), (0x891049E0, .cmov true 8 9 15)] = true := by decide

/-- Chapters 5, 8 and 9. -/
theorem test_words_vector_array : reads
    [(0xC8860840, .vfmaF true 3 1 2 0 0), (0xD1510854, .vpkE4m3 true 40 33 2 5 0), (0xCE0C1060, .vcltF true 6 2 3 0 0),
     (0xD8D01800, .vxm true 40 3 0 0), (0xD7082FE0, .vslide true 4 5 0x3F 0 0), (0xDA120040, .vtag true 9 2 0 0),
     (0xD9880840, .vext true 4 1 2), (0xD28E2040, .vupI8 true 7 4 2 0 0), (0x49844029, .vdivF false 2 8 1 2 1),
     (0xE0002083, .mset true 4 4 3), (0xE08A00C3, .mget true 5 6 3), (0xE10000CA, .wld true 0 0 3 10), (0xE180000B, .mswap true 11),
     (0xE20828C6, .mmul true 4 5 3 6), (0xE2880006, .macc true 4 0 6), (0xE30A0006, .mdrain true 5 0 6), (0xE3800049, .mchain true 0 0 1 9),
     (0xE40E0088, .mchk true 7 2 8), (0xE48828C6, .mstat true 4 5 3 6), (0xE5000000, .mfence true), (0xF0002042, .cset true 4 2 2),
     (0xF08A00A2, .cget true 5 5 2), (0xF1882846, .cpyb true 4 5 1 6), (0xF20828C6, .rst true 4 5 0 3 6), (0xF2882CC6, .rstc true 4 5 1 3 6),
     (0xF30E0088, .rld true 7 0 2 8), (0xF394594C, .rfadd true 10 11 0 5 12), (0xF5041844, .rswp true 2 3 0 1 4)] = true := by decide

/-- Chapters 10 to 14. -/
theorem test_words_engine : reads
    [(0xF8082886, .spush true 4 5 2 6), (0xF8800007, .spop true 0 7), (0xF9100000, .srel true 8 0), (0xF99204CA, .sget true 9 1 3 10),
     (0xFA12004A, .sset true 9 0 1 10), (0xFA882846, .mcast true 4 5 1 6), (0xFB166000, .rctl true 11 12 0), (0xBA882846, .qpush true 4 5 1 6),
     (0xBB083848, .qpop true 4 7 1 8), (0xB3800000, .loop true), (0xB50A3000, .bind true 5 6), (0xB5803800, .unbind true 7),
     (0xB6004801, .cancel true 9 1), (0xB6802000, .prio true 4), (0xF5880005, .tchk true 4 5), (0xF60C0000, .twt true 6),
     (0xF6882806, .tjoin true 4 5 6), (0xFB882886, .tbinit true 4 5 2 6), (0xFC0E0088, .tbarr true 7 2 8),
     (0xFC92508B, .tbwait true 9 10 2 11)] = true := by decide

/-! ### One step each, with the results that the spec's tables and worked examples give -/

/-- The words that the opened bundle sends to scalar registers, or none where it does not issue. -/
def words (c : Cell) (i : Instr) : List (Nat × Word) :=
  match exec i (on c) with
  | .next t => (t.strand 0 0 0).landing.filterMap fun l =>
      match l.reg, l.val with
      | .s n, .word x => some (n, x)
      | _, _ => none
  | _ => []

/-- R107, the table of quotients and remainders. -/
theorem test_div :
    ([((7 : Word), (2 : Word), [(3 : Word), 1, 3, 1]), (0xFFFFFFF9, 2, [0xFFFFFFFD, 0xFFFFFFFF, 0x7FFFFFFC, 1]),
        (7, 0xFFFFFFFE, [0xFFFFFFFD, 1, 0, 7]), (0x80000000, 0xFFFFFFFF, [0x80000000, 0, 0, 0x80000000])].all fun p =>
      let c := regs [(1, p.1), (2, p.2.1)]
      words c (.div true 9 1 2) ++ words c (.rem true 9 1 2) ++ words c (.divU true 9 1 2) ++ words c (.remU true 9 1 2) ==
        p.2.2.map fun x => (9, x)) = true := by decide

/-- R112, the constant 0x7FFF_FFFF: lih reads all ones. -/
theorem test_lih : words (regs [(1, 0xFFFFFFFF)]) (.lih true 1 65535) = [(1, 0x7FFFFFFF)] := by decide

/-- R169, the trap at 0x0202 in beat 2: the mul that is due in beat 3 becomes a replay entry with r = 1, and the handler of
INT_DIVZ is at 0x1400. -/
theorem test_trap :
    (match exec (.div true 12 4 5) (on (with0 fun st =>
        { scalars [(4, 100)] st with pc := 0x202, tvec := 0x40, beat := 2, landing := [⟨.s 10, .word 42, 3, 1, 0, 0, 0, none⟩] })) with
      | .next t =>
        let st := t.strand 0 0 0
        [st.pc.toNat, st.tl.toNat, st.bank1.cause.toNat, st.bank1.pc.toNat, st.bank1.val.toNat, st.landing.length] ++
          st.bank1.replay.map fun l => l.due
      | _ => []) = [0x1400, 1, 0x10, 0x202, 100, 0, 1] := by decide

/-- R176, the entry of a kill in a TL 2 handler: node 5.2.37, record 0x0042 on strand 1. -/
theorem test_kill :
    (let st := { strand0 with
        recid := 0x0042, entry := 2, tl := 2, pc := 0x1925, bank1 := { strand0.bank1 with cause := 0x10 }
        bank2 := { strand0.bank2 with cause := 0x25 } }
     let c : Cell := { Cell.reset false with strands := (Cell.reset false).strands.set 1 st, recs := [(2, { rec0 with gen := 4, strand := 1 })] }
     let s := (State.reset.onMod 0 fun x => { x with io := { x.io with chip := 5 } }).setCell 0 549 c
     match exec (.trap true 9) { s with cur := some (s.nextBundle 0 549 1) } with
      | .next t => (t.cell 0 549).faults.map fun h => h.words
      | _ => []) = [[0x01400042, 0x01625600, 0x25101925, 9]] := by decide

/-- R43 to R45, the tree: 1.0, two lanes of 2^-24 and zeros give 1.0. -/
theorem test_tree :
    (treeReduce (fpAdd rmRNE false) ([0x3F800000, 0x33800000, 0x33800000] ++ List.replicate 29 0)).1 = 0x3F800000 := by
  decide +kernel

/-- R296, the controller run with B = 4 and `.rate in0, 2, 2, 6, 8, 16, 256`: the fifth period, and the third, which is frozen. -/
def ended (integ : Int) (sum : Nat) (frz : Bool) : Option (Int × Nat × Nat) :=
  let y : InChan :=
    { InChan.reset with state := .opened, slots := 4, rate0 := 0x88620002, rate1 := 0x01000010, integ := integ, sum := sum, frz := frz }
  match exec .controllerPeriodEnd { stepOn { cell0 with ins := [(0, y)] } 0 0 with cycle := 255 } with
  | .next t => let z := (t.cell 0 0).inCh 0; some (z.integ, z.wp, (z.wcNext.getD (0, z.wc)).2)
  | _ => none

theorem test_controller :
    ended 0 768 false = some (256, 188, 256) ∧ ended 256 768 false = some (512, 184, 256) ∧ ended 512 896 true = some (512, 152, 256) ∧
      ended 512 512 false = some (512, 248, 256) ∧ ended 512 256 false = some (256, 256, 196) := by decide

/-- R314, R319: lane 5 fails while packets 120 to 123 are unacknowledged; after retraining, PSTAT, PLANE, PRPLY and PHIST. -/
theorem test_narrowing :
    (let k : Link :=
      { upLink with
        state := .retrain, failed := 0x20
        replay := [120, 121, 122, 123].map fun n => ⟨n, 0, true, 9, 2, 0, true, true⟩ }
     let s := cabled k { upLink with state := .retrain } IoDie.reset []
     let io := (match exec .retrainDone (about s 0 0) with
      | .next t => (t.mod 0).io
      | _ => IoDie.reset)
     [io.linkReg 0 4, io.linkReg 0 8, io.linkReg 0 0xC, io.linkReg 0 0x10]) = [0x01080208, 0x20, 0x00010004, 0x61] := by decide

/-- R257, R389: the last sector of a copy counts as a sector and as the copy's arrival, at an ARMED barrier in phase 1. -/
theorem test_barrier :
    (let b : Tbar := { Tbar.reset with state := .armed, phase := 1, exparr := 2, expsec := 8, arr := 1, sec := 7 }
     let r : Req := reqOf .write 0x2FF00 (List.replicate 256 1) true (some 5) 0
     let s := msgOn { cell0 with tbs := [(5, b)] } 0 (.request r)
     match exec .copySectorPerform s with
      | .next t => let z := (t.cell 0 0).tbar 5; (z.arr, z.sec, z.phase)
      | _ => (0, 0, 0)) = (2, 8, 1) := by decide +kernel

/-- R48, R52, R58: a zero scale makes the block zero whatever its data hold; beside scales of 1.0 a NaN weight poisons its column. -/
theorem test_zero_scale :
    scaledValue 5 0 0x00000ABC 0x0007F000 true = 0 ∧ scaledValue 5 0 0x0007F000 0x0007F000 true = 0x7FC00000 := by decide

end Sys2Proof.Tests
end

section
/-! Class S: the results of the integer instructions and the traps of their field and divisor checks (R105 to R112). -/

namespace Sys2Proof.Machine

/-! ### A trap of a bundle of one syllable -/

section traps

variable {s : State} {m u k slot : Nat} {i : Instr} {f : View → Syl} {t : TrapReq}

/-- A trap entry, by the bank that it fills. -/
theorem enterTrap_eq_atTrap (st : Strand) (cycle slot : Nat) (cause : BitVec 8) (val : Word) :
    st.enterTrap cycle st.pc slot cause val = st.atTrap cycle slot cause val := by
  by_cases h : st.tl = 0
  · simp [Strand.enterTrap, Strand.atTrap, Strand.bank, Strand.setBank, h]
  · have h' : ¬ st.tl.toNat + 1 = 1 := fun e => h (BitVec.eq_of_toNat_eq (Nat.succ.inj e))
    simp only [Strand.enterTrap, Strand.atTrap, Strand.bank, Strand.setBank, if_neg h, if_neg h']

/-- A trap that is no late error and no XLAT_MISS, at a level other than 2, leaves the machine trapped. -/
theorem takeTrap_eq_trapped {b : Bundle} (hm : b.m = m) (hu : b.u = u) (hk : b.k = k) (hpc : b.pc = (s.strand m u k).pc)
    (htl : (s.strand m u k).tl ≠ 2) (hc : t.cause ≠ causeXlatMiss) (hs : t.src = 0) :
    takeTrap s b slot t = s.trapped m u k slot t.cause t.val := by
  subst hm hu hk
  have hn : ¬ ((s.strand b.m b.u b.k).tl = 2 ∨ t.cause = causeXlatMiss) := not_or.2 ⟨htl, hc⟩
  have he : (s.strand b.m b.u b.k).enterTrap s.cycle b.pc slot t.cause t.val =
      (s.strand b.m b.u b.k).atTrap s.cycle slot t.cause t.val := hpc ▸ enterTrap_eq_atTrap ..
  simp only [takeTrap, if_neg hn, Strand.raiseNotes, hs, if_true, State.trapped, ← he]
  rfl

/-- A last syllable alone in its bundle closes it. -/
theorem runSyl_closes (ho : s.Opened m u k) :
    runSyl s i true f = .next (closeBundle s { s.nextBundle m u k with syls := [f (s.sees m u k i)] }) := by
  simp only [runSyl, ho.cur, pushSyl, if_true]
  rfl

/-- The one failed check of a syllable that needs no register value is the trap of its bundle. -/
theorem closeBundle_static {y : Syl} (hf : y.static = [t]) (htl : (s.strand m u k).tl ≠ 2)
    (hc : t.cause ≠ causeXlatMiss) (hs : t.src = 0) :
    closeBundle s { s.nextBundle m u k with syls := [y] } = s.trapped m u k 0 t.cause t.val := by
  have hp : staticTrap [y] = some (0, t) := by
    simp [staticTrap, firstClash, clashes_nil, numbered, List.range_succ, hf, pickTrap]
  simp only [closeBundle, hp]
  exact takeTrap_eq_trapped rfl rfl rfl rfl htl hc hs

/-- The one failed check of a syllable that needs register values is the trap of its bundle, where the syllable would issue
but for it. -/
theorem closeBundle_dyn {y : Syl} (hy : { y with dyn := [] }.Issues (s.strand m u k)) (hf : y.dyn = [t])
    (htl : (s.strand m u k).tl ≠ 2) (hc : t.cause ≠ causeXlatMiss) (hs : t.src = 0) :
    closeBundle s { s.nextBundle m u k with syls := [y] } = s.trapped m u k 0 t.cause t.val := by
  have hstatic : staticTrap [y] = none := staticTrap_single hy.static
  have hpend : pendingStall (s.strand m u k) [y] = false := pendingStall_single hy.pend
  have hloop : y.loop = .none ∨ y.loop = .start ∨ y.loop = .fin := hy.loop
  have hstop : loopCaseOf [y] ≠ .stop := by rcases hloop with e | e | e <;> simp [loopCaseOf_single, e]
  have himage : ∀ b, y.checkImage s b = y := fun _ => checkImage_none hy.image
  have hnotes : noteTraps (s.strand m u k) y = [] := by
    simp only [noteTraps, filter_delivered_nil hy.notes, List.flatMap_nil]
  have hdyn : dynTrap (s.strand m u k) [y] = some (0, t) := by
    simp [dynTrap, numbered, List.range_succ, hnotes, hf, oneLate, hs, pickTrap]
  simp only [closeBundle, hstatic, nextBundle_m, nextBundle_u, nextBundle_k, hpend, hstop, List.map_cons, List.map_nil,
    himage, hdyn]
  exact takeTrap_eq_trapped rfl rfl rfl rfl htl hc hs

theorem traps_of_static (ho : s.Opened m u k) (he : exec i s = runSyl s i true f)
    (hf : (f (s.sees m u k i)).static = [t]) (htl : (s.strand m u k).tl ≠ 2) (hc : t.cause ≠ causeXlatMiss)
    (hs : t.src = 0) : s.Traps m u k i t.cause t.val := by
  rw [State.Traps, he, runSyl_closes ho, closeBundle_static hf htl hc hs]

theorem traps_of_dyn (ho : s.Opened m u k) (he : exec i s = runSyl s i true f)
    (hy : { f (s.sees m u k i) with dyn := [] }.Issues (s.strand m u k)) (hf : (f (s.sees m u k i)).dyn = [t])
    (htl : (s.strand m u k).tl ≠ 2) (hc : t.cause ≠ causeXlatMiss) (hs : t.src = 0) : s.Traps m u k i t.cause t.val := by
  rw [State.Traps, he, runSyl_closes ho, closeBundle_dyn hy hf htl hc hs]

end traps

/-! ### Results and traps of a class S syllable -/

section results

variable {s : State} {m u k : Nat} {i : Instr} {d a b : BitVec 6} {n : BitVec 11} {z : Word} {lat : Nat}
  {g : Word → Word → Word}

/-- A two-source operation lands what its function gives of the two operands (R105). -/
theorem givesS_of_sylRR (h : s.Ready m u k [a, b] [d]) (he : exec i s = runSyl s i true fun v => sylRR v d a b g lat)
    (hi : i.wellFormed = true) (hz : g (s.rs m u k a) (s.rs m u k b) = z := by rfl) : s.GivesS m u k i d z lat :=
  givesS_of_sylToS h he hi (hz ▸ rfl)

/-- An immediate form lands what its function gives of the operand and the sign-extended immediate (R111). -/
theorem givesS_of_sylRI (h : s.Ready m u k [a] [d]) (he : exec i s = runSyl s i true fun v => sylRI v d a n g lat)
    (hi : i.wellFormed = true) (hz : g (s.rs m u k a) (n.signExtend 32) = z := by rfl) : s.GivesS m u k i d z lat :=
  givesS_of_sylToS h he hi (hz ▸ rfl)

/-- A division whose divisor is not zero lands what its function gives of the two operands (R107). -/
theorem givesS_of_sylDiv (h : s.Ready m u k [a, b] [d]) (he : exec i s = runSyl s i true fun v => sylDiv v d a b g)
    (hi : i.wellFormed = true) (hb : s.rs m u k b ≠ 0) :
    s.GivesS m u k i d (g (s.rs m u k a) (s.rs m u k b)) 12 := by
  have hy : sylDiv (s.sees m u k i) d a b g = sylRR (s.sees m u k i) d a b g 12 := by
    rw [sylDiv, if_neg (show ¬ (s.sees m u k i).rs b = 0 from hb)]; rfl
  exact givesS_of_sylToS h he hi hy

/-- A division by zero raises INT_DIVZ with the dividend (R107). -/
theorem traps_of_sylDiv (h : s.Ready m u k [a, b] [d]) (he : exec i s = runSyl s i true fun v => sylDiv v d a b g)
    (hi : i.wellFormed = true) (htl : (s.strand m u k).tl ≠ 2) (hb : s.rs m u k b = 0) :
    s.Traps m u k i 0x10 (s.rs m u k a) :=
  have hy := sylToS_issues (val := g (s.rs m u k a) (s.rs m u k b)) (lat := 12) h hi
  traps_of_dyn (t := trapReq causeIntDivz (s.rs m u k a)) h.opened he hy (if_pos hb) htl
    (show causeIntDivz ≠ causeXlatMiss by decide) rfl

/-- The static checks of a class S syllable with a scalar destination that is not well formed: ILLEGAL_OP alone, where the
registers are declared (R64). -/
theorem sylToS_static_of_illFormed {srcs : List (BitVec 6)} (h : s.Ready m u k srcs [d]) (hi : i.wellFormed = false) :
    (sylToS (s.sees m u k i) d srcs [] z lat).static = [trapReq causeIllegalOp (encode i)] := by
  have hd : (s.sees m u k i).declS (d :: srcs) = [] := declS_nil h.declared
  simp [sylToS, View.illegal, View.illegalIf, hi, hd, View.declQ]

/-- Such a syllable raises ILLEGAL_OP with its word (R64, R166). -/
theorem traps_of_illFormed {f : View → Syl} {srcs : List (BitVec 6)} (h : s.Ready m u k srcs [d])
    (he : exec i s = runSyl s i true f) (hi : i.wellFormed = false)
    (hf : f (s.sees m u k i) = sylToS (s.sees m u k i) d srcs [] z lat) (htl : (s.strand m u k).tl ≠ 2) :
    s.Traps m u k i 0x01 (encode i) :=
  traps_of_static (t := trapReq causeIllegalOp (encode i)) h.opened he (hf ▸ sylToS_static_of_illFormed h hi) htl
    (show causeIllegalOp ≠ causeXlatMiss by decide) rfl

end results

/-! ### The values of the integer operations -/

section values

variable (x y : Word)

/-- Of two values that agree where their keys do, the choice by "less" is the choice by "at most". -/
theorem ite_lt_eq_ite_le {α β : Type} [LinearOrder β] {c : Bool} {m n : β} [Decidable (m ≤ n)] {p q : α}
    (hc : c = true ↔ m < n) (h : m = n → p = q) : (if c then p else q) = if m ≤ n then p else q := by
  rcases lt_trichotomy m n with hl | he | hg
  · rw [if_pos (hc.2 hl), if_pos hl.le]
  · rw [h he, ite_self, ite_self]
  · rw [if_neg fun e => hg.not_gt (hc.1 e), if_neg hg.not_ge]

theorem minS_eq : minS x y = if x.toInt ≤ y.toInt then x else y :=
  ite_lt_eq_ite_le BitVec.slt_iff_toInt_lt BitVec.eq_of_toInt_eq

theorem maxS_eq : maxS x y = if x.toInt ≤ y.toInt then y else x :=
  ite_lt_eq_ite_le BitVec.slt_iff_toInt_lt fun h => (BitVec.eq_of_toInt_eq h).symm

theorem minUns_eq : minUns x y = if x.toNat ≤ y.toNat then x else y :=
  ite_lt_eq_ite_le BitVec.ult_iff_toNat_lt BitVec.eq_of_toNat_eq

theorem maxUns_eq : maxUns x y = if x.toNat ≤ y.toNat then y else x :=
  ite_lt_eq_ite_le BitVec.ult_iff_toNat_lt fun h => (BitVec.eq_of_toNat_eq h).symm

/-- A truth value as a word, by the condition that it decides. -/
theorem boolWord_eq_ite {c : Bool} {p : Prop} [Decidable p] (h : c = true ↔ p) : boolWord c = if p then 1 else 0 := by
  simp only [boolWord, h]

/-- A sign-extended immediate from 0 to 31 is its own shift amount. -/
theorem signExtend_toNat_mod_of_le {n : BitVec 11} (h : n.toNat ≤ 31) : (n.signExtend 32).toNat % 32 = n.toNat := by
  have hm : n.msb = false := by simp [BitVec.msb_eq_decide]; omega
  rw [BitVec.signExtend_eq_setWidth_of_msb_false hm, BitVec.toNat_setWidth]
  omega

theorem mul_signExtend_eq (n : BitVec 11) : x * n.signExtend 32 = BitVec.ofInt 32 (x.toInt * n.toInt) := by
  rw [← BitVec.toInt_signExtend_of_le (x := n) (v := 32) (by decide), BitVec.ofInt_mul, BitVec.ofInt_toInt,
    BitVec.ofInt_toInt]

/-- `lih` puts its immediate above bits 14:0 of sd (R112). -/
theorem ofNat_high_low_eq_append (j : BitVec 17) :
    BitVec.ofNat 32 (j.toNat * 2 ^ 15 + x.toNat % 2 ^ 15) = j ++ x.setWidth 15 := by
  apply BitVec.eq_of_toNat_eq
  have := j.isLt
  simp only [BitVec.toNat_ofNat, BitVec.toNat_append, BitVec.toNat_setWidth]
  rw [← Nat.shiftLeft_add_eq_or_of_lt (by omega), Nat.shiftLeft_eq]
  omega

/-- The mask of `w` ones from bit `pos` up (R110). -/
theorem getLsbD_fieldMask (w pos : Nat) {i : Nat} (hi : i < 32) :
    (BitVec.ofNat 32 ((2 ^ w - 1) * 2 ^ pos)).getLsbD i = decide (pos ≤ i ∧ i < pos + w) := by
  rw [BitVec.getLsbD_ofNat, Nat.testBit_mul_two_pow, Nat.testBit_two_pow_sub_one, ← Bool.decide_and, ← Bool.decide_and]
  exact decide_eq_decide.2 (by omega)

/-- Bit `i` of an insertion is of the inserted field inside its place, of the old word outside (R110). -/
theorem getLsbD_binsW (z : Word) (pos : Nat) {i : Nat} (hi : i < 32) :
    (binsW z x y pos).getLsbD i =
      if pos ≤ i ∧ i < pos + fieldWidth y then x.getLsbD (i - pos) else z.getLsbD i := by
  simp only [binsW, BitVec.getLsbD_or, BitVec.getLsbD_and, BitVec.getLsbD_not, getLsbD_fieldMask _ _ hi]
  by_cases h : pos ≤ i ∧ i < pos + fieldWidth y
  · have hf : i - pos < fieldWidth y := by omega
    have hx : (BitVec.ofNat 32 (x.toNat % 2 ^ fieldWidth y * 2 ^ pos)).getLsbD i = x.getLsbD (i - pos) := by
      rw [BitVec.getLsbD_ofNat, Nat.testBit_mul_two_pow, Nat.testBit_mod_two_pow]
      simp [hi, h.1, hf, BitVec.getLsbD]
    simp [h, hx]
  · simp [h, hi]

end values

/-! ### Instructions that need a word of their own -/

section instructions

variable {s : State} {m u k : Nat} {d a b : BitVec 6}

/-- cmp lands the truth of the condition that an assigned code names (R108). -/
theorem givesS_cmp (h : s.Ready m u k [a, b] [d]) {c : BitVec 5} (hc : c.toNat ≤ 5) {p : Prop} [Decidable p]
    (hp : cmpCond c.toNat (s.rs m u k a) (s.rs m u k b) = true ↔ p) :
    s.GivesS m u k (.cmp true d a b c) d (if p then 1 else 0) 1 :=
  givesS_of_sylRR h (exec_cmp ..) (decide_eq_true hc) (boolWord_eq_ite hp)

/-- A condition code above 5 raises ILLEGAL_OP (R108). -/
theorem traps_cmp (h : s.Ready m u k [a, b] [d]) {c : BitVec 5} (hc : 6 ≤ c.toNat) (htl : (s.strand m u k).tl ≠ 2) :
    s.Traps m u k (.cmp true d a b c) 0x01 (encode (.cmp true d a b c)) :=
  traps_of_illFormed h (exec_cmp ..) (decide_eq_false (by omega)) rfl htl

/-- The number that a word of opcode 0x0C with its E bit set stands for, by its fields (R61, R62). -/
theorem toNat_mulhWord (c : BitVec 5) :
    (1#1 ++ 0x0C#8 ++ d ++ a ++ b ++ c).toNat =
      ((((2 ^ 8 + 12) * 2 ^ 6 + d.toNat) * 2 ^ 6 + a.toNat) * 2 ^ 6 + b.toNat) * 2 ^ 5 + c.toNat := by
  simp only [BitVec.toNat_append, ← Nat.shiftLeft_add_eq_or_of_lt d.isLt, ← Nat.shiftLeft_add_eq_or_of_lt a.isLt,
    ← Nat.shiftLeft_add_eq_or_of_lt b.isLt, ← Nat.shiftLeft_add_eq_or_of_lt c.isLt]
  simp only [Nat.shiftLeft_eq]
  rfl

/-- Such a word is a last syllable, and with a code other than 0 and 1 no row takes it (R64, R106). -/
theorem decode_mulhWord {c : BitVec 5} (hc : 2 ≤ c.toNat) {w : Word} (hw : w = 1#1 ++ 0x0C#8 ++ d ++ a ++ b ++ c) :
    eBit w = true ∧ decode w = .reservedEncoding w := by
  have hn := (congrArg BitVec.toNat hw).trans (toNat_mulhWord c)
  have hd := d.isLt
  have ha := a.isLt
  have hb := b.isLt
  have hc' := c.isLt
  have he : bits w 31 1 = 1 := by unfold bits; omega
  have hop : opcode w = 12 := by unfold opcode bits; omega
  have h0 : ¬ bits w 0 5 = 0 := by unfold bits; omega
  have h1 : ¬ bits w 0 5 = 1 := by unfold bits; omega
  exact ⟨by rw [eBit, he]; rfl, by simp [decode, decodeS, hop, h0, h1]⟩

/-- A last syllable that no row takes raises ILLEGAL_OP with its word (R64). -/
theorem traps_reservedEncoding (ho : s.Opened m u k) {w : Word} (he : eBit w = true) (htl : (s.strand m u k).tl ≠ 2) :
    s.Traps m u k (.reservedEncoding w) 0x01 w :=
  have hx : exec (.reservedEncoding w) s = runSyl s (.reservedEncoding w) true _ := by
    rw [exec_reservedEncoding, execReservedEncoding, he]
  traps_of_static (t := trapReq causeIllegalOp w) ho hx rfl htl (show causeIllegalOp ≠ causeXlatMiss by decide) rfl

/-- nop issues and sends nothing off (R74). -/
theorem sends_nop (h : s.Ready m u k [] []) : s.Sends m u k (.nop true) [] :=
  sends_of_lands [] h.opened (exec_nop ..)
    { static := illegal_nil rfl
      dyn := rfl
      pend := fun p hp => h.settled.pend p hp
      notes := fun d hd => h.settled.notes d hd
      loop := .inl rfl
      free := rfl
      room := h.room.le } rfl

end instructions

/-! ### The statements -/

/-- Settles O17: one operation after the other, each by the function that it lands. -/
theorem scalarTwoSource : Obligations.ScalarTwoSource := by
  unfold Obligations.ScalarTwoSource
  refine ⟨fun s m u k d a b h => ?_, fun s m u k d a b h => ?_⟩
  · exact ⟨givesS_of_sylRR h (exec_add ..) rfl, givesS_of_sylRR h (exec_sub ..) rfl, givesS_of_sylRR h (exec_and ..) rfl,
      givesS_of_sylRR h (exec_or ..) rfl, givesS_of_sylRR h (exec_xor ..) rfl, givesS_of_sylRR h (exec_andn ..) rfl,
      givesS_of_sylRR h (exec_mul ..) rfl, givesS_of_sylRR h (exec_shl ..) rfl, givesS_of_sylRR h (exec_shr ..) rfl,
      givesS_of_sylRR h (exec_sra ..) rfl, givesS_of_sylRR h (exec_rot ..) rfl,
      givesS_of_sylRR h (exec_min ..) rfl (minS_eq ..), givesS_of_sylRR h (exec_max ..) rfl (maxS_eq ..),
      givesS_of_sylRR h (exec_minU ..) rfl (minUns_eq ..), givesS_of_sylRR h (exec_maxU ..) rfl (maxUns_eq ..)⟩
  · exact ⟨givesS_cmp h (by decide) beq_iff_eq, givesS_cmp h (by decide) bne_iff_ne,
      givesS_cmp h (by decide) BitVec.slt_iff_toInt_lt, givesS_cmp h (by decide) BitVec.sle_iff_toInt_le,
      givesS_cmp h (by decide) BitVec.ult_iff_toNat_lt, givesS_cmp h (by decide) BitVec.ule_iff_toNat_le,
      fun c hc htl => traps_cmp h hc htl⟩

/-- Settles O18: a nonzero divisor by the quotient's function, a zero divisor by its check. -/
theorem multiplyDivide : Obligations.MultiplyDivide := by
  unfold Obligations.MultiplyDivide
  intro s m u k d a b h
  refine ⟨givesS_of_sylRR h (exec_mulh ..) rfl, givesS_of_sylRR h (exec_mulhU ..) rfl, fun hb => ?_,
    fun htl => ⟨fun hb => ?_, fun c hc => ?_⟩⟩
  · exact ⟨givesS_of_sylDiv h (exec_div ..) rfl hb, givesS_of_sylDiv h (exec_rem ..) rfl hb,
      givesS_of_sylDiv h (exec_divU ..) rfl hb, givesS_of_sylDiv h (exec_remU ..) rfl hb⟩
  · exact ⟨traps_of_sylDiv h (exec_div ..) rfl htl hb, traps_of_sylDiv h (exec_divU ..) rfl htl hb,
      traps_of_sylDiv h (exec_rem ..) rfl htl hb, traps_of_sylDiv h (exec_remU ..) rfl htl hb⟩
  · obtain ⟨he, hw⟩ := decode_mulhWord (d := d) (a := a) (b := b) hc rfl
    exact ⟨hw, traps_reservedEncoding h.opened he htl⟩

/-- Settles O19: an insertion bit by bit, every other result by the function that it lands. -/
theorem movesAndBitFields : Obligations.MovesAndBitFields := by
  unfold Obligations.MovesAndBitFields
  intro s m u k d a b p
  refine ⟨sends_nop, fun h => ⟨?_, ?_⟩, fun h => ?_, fun h => ⟨?_, _, ?_, fun i hi => getLsbD_binsW _ _ _ _ hi⟩⟩
  · exact givesS_of_sylToS h (exec_clz ..) rfl rfl
  · exact givesS_of_sylToS h (exec_popc ..) rfl rfl
  · exact givesS_of_sylRR h (exec_bext ..) rfl
  · rw [← ite_not]
    exact givesS_of_sylToS h (exec_cmov ..) rfl rfl
  · exact givesS_of_sylToS h (exec_bins ..) rfl rfl

/-- Settles O20: each form by its function of the sign-extended immediate, a shift amount above 31 by its field check. -/
theorem scalarImmediates : Obligations.ScalarImmediates := by
  unfold Obligations.ScalarImmediates
  intro s m u k d a i j
  refine ⟨fun h => ⟨givesS_of_sylRI h (exec_addi ..) rfl, givesS_of_sylRI h (exec_andi ..) rfl,
    givesS_of_sylRI h (exec_ori ..) rfl, givesS_of_sylRI h (exec_xori ..) rfl, fun hi => ?_,
    givesS_of_sylRI h (exec_muli ..) rfl (mul_signExtend_eq ..),
    givesS_of_sylRI h (exec_cmpeqi ..) rfl (boolWord_eq_ite beq_iff_eq),
    givesS_of_sylRI h (exec_cmplti ..) rfl (boolWord_eq_ite ?_),
    givesS_of_sylRI h (exec_cmpltui ..) rfl (boolWord_eq_ite BitVec.ult_iff_toNat_lt), fun hi htl => ?_⟩,
    fun h => ?_, fun h => ?_⟩
  · have hw := signExtend_toNat_mod_of_le hi
    exact ⟨givesS_of_sylRI h (exec_shli ..) (decide_eq_true hi) (by rw [shlW, hw]),
      givesS_of_sylRI h (exec_shri ..) (decide_eq_true hi) (by rw [shrW, hw]),
      givesS_of_sylRI h (exec_srai ..) (decide_eq_true hi) (by rw [sraW, hw])⟩
  · rw [BitVec.slt_iff_toInt_lt, BitVec.toInt_signExtend_of_le (by decide)]
  · have hs : isShift i = false := decide_eq_false (by omega)
    exact ⟨traps_of_illFormed h (exec_shli ..) hs rfl htl, traps_of_illFormed h (exec_shri ..) hs rfl htl,
      traps_of_illFormed h (exec_srai ..) hs rfl htl⟩
  · exact givesS_of_sylToS h (exec_li ..) rfl rfl
  · exact givesS_of_sylToS h (exec_lih ..) rfl (congrArg (sylToS _ _ _ _ · _) (ofNat_high_low_eq_append ..))

end Sys2Proof.Machine
end

section
/-! Class V: the compares, the reductions, the permutes and the moves (R132, R138, R143 to R148). -/

namespace Sys2Proof.Machine

/-! ### One result of a syllable that passes its checks -/

section results

variable {s : State} {m u k : Nat} {i : Instr} {d : BitVec 6} {q : BitVec 3} {w : BitVec 2} {tag : BitVec 3} {lat : Nat}
  {reads names : List (BitVec 6)} {f : View → Syl} {y : Syl}

/-- A syllable without a scalar destination that passes its checks issues, and its one result is in flight with the flags and
the counts that it carries. -/
theorem sends_of_vectorSyl {l : Landing} (h : s.Ready m u k reads names) (he : exec i s = runSyl s i true f)
    (hy : f (s.sees m u k i) = y) (static : y.static = []) (dyn : y.dyn = []) (hl : y.effects = [.land l])
    (hr : y.reads = reads.map (s.ps m u k) := by rfl) (hn : y.names = [] := by rfl) (loop : y.loop = .none := by rfl)
    (free : y.blocked = false := by rfl) (image : y.image = none := by rfl) : s.Sends m u k i [l] := by
  subst hy
  exact sends_of_lands [l] h.opened he
    { static := static
      dyn := dyn
      image := image
      pend := fun p hp => ⟨hr ▸ (h.settled.pend p hp).1, by simp [hn]⟩
      notes := fun d hd => hr ▸ h.settled.notes d hd
      loop := .inl loop
      free := free
      room := by rw [landCount_lands [l] hl]; exact h.room } hl

/-- The same for a result in the lanes of vd that the predicate governs (R131). -/
theorem givesV_of_vectorSyl {g : Nat → LaneOut} (h : s.Ready m u k reads names) (he : exec i s = runSyl s i true f)
    (hy : f (s.sees m u k i) = y) (static : y.static = []) (dyn : y.dyn = [])
    (hl : y.effects = [.land (vLand (s.sees m u k i) d lat tag (frameLanes (s.sees m u k i) d q w g))] := by rfl)
    (hr : y.reads = reads.map (s.ps m u k) := by rfl) (hn : y.names = [] := by rfl) (loop : y.loop = .none := by rfl)
    (free : y.blocked = false := by rfl) (image : y.image = none := by rfl) : s.GivesV m u k i d q w tag lat g :=
  sends_of_vectorSyl h he hy static dyn (vLand_frame ▸ hl) hr hn loop free image

/-- The write mode of a ready vector syllable is merge or zero (R130). -/
theorem State.ReadyV.mode_eq {vecs : List (BitVec 6)} (h : s.ReadyV m u k vecs d q w reads names) : w = 0 ∨ w = 1 := by
  have hw : w.toNat = 0 ∨ w.toNat = 1 := by have := h.mode; omega
  exact hw.imp (fun e => BitVec.eq_of_toNat_eq e) fun e => BitVec.eq_of_toNat_eq e

/-- No counts on any lane are none together. -/
theorem countOf_zero : s.countOf m u k q (fun _ => 0) = 0 := by simp [State.countOf]

/-- The landing of plain words in all lanes, whatever the predicate. -/
theorem vLand_plain (g : Nat → Word) :
    vLand (s.sees m u k i) d lat tag ((List.range 32).map fun j => laneVal (g j)) =
      s.result m u k (.v (s.pv m u k d)) (.vec ⟨Vector.ofFn fun j : Fin 32 => g j, tag⟩) lat := by
  have hv : vregOf (((List.range 32).map fun j => laneVal (g j)).map fun l => l.val) tag =
      ⟨Vector.ofFn fun j : Fin 32 => g j, tag⟩ := by
    simp [vregOf, laneVal, Function.comp_def]
  rw [vLand, hv]
  simp only [List.foldl_map, laneVal, Nat.add_zero, List.foldl_fixed]
  rfl

end results

/-! ### The compares (R132, R138) -/

section compares

variable {s : State} {m u k : Nat} {i : Instr} {d a b : BitVec 6} {q : BitVec 3} {w : BitVec 2}

/-- A sum of distinct powers of two below `2 ^ n` stays below it and has the bits that it was summed of. -/
theorem lt_and_testBit_foldl_two_pow (p : Nat → Prop) [DecidablePred p] (n : Nat) :
    (List.range n).foldl (fun x j => if p j then x + 2 ^ j else x) 0 < 2 ^ n ∧
      ∀ j < n, ((List.range n).foldl (fun x j => if p j then x + 2 ^ j else x) 0).testBit j = decide (p j) := by
  induction n with
  | zero => simp
  | succ n ih =>
    obtain ⟨hlt, hbit⟩ := ih
    simp only [List.range_succ, List.foldl_append, List.foldl_cons, List.foldl_nil]
    generalize (List.range n).foldl _ 0 = x at hlt hbit ⊢
    by_cases hp : p n
    · rw [if_pos hp, Nat.add_comm x]
      refine ⟨by rw [pow_succ]; omega, fun j hj => ?_⟩
      rcases Nat.lt_succ_iff_lt_or_eq.1 hj with hj | rfl
      · rw [Nat.testBit_two_pow_add_gt hj, hbit j hj]
      · simp [Nat.testBit_two_pow_add_eq, Nat.testBit_lt_two_pow hlt, hp]
    · rw [if_neg hp]
      refine ⟨hlt.trans (Nat.pow_lt_pow_succ (by decide)), fun j hj => ?_⟩
      rcases Nat.lt_succ_iff_lt_or_eq.1 hj with hj | rfl
      · exact hbit j hj
      · simp [Nat.testBit_lt_two_pow hlt, hp]

/-- What a compare gives each lane: its outcome under the predicate, else no flag with 0 or the old bit of qd (R132). -/
def State.compareOuts (s : State) (m u k : Nat) (d : BitVec 6) (q : BitVec 3) (w : BitVec 2) (r : Nat → Bool × FpFlags) :
    List (Bool × FpFlags) :=
  (List.range 32).map fun j =>
    if (s.rq m u k q.toNat).getLsbD j then r j
    else (if w = 1 then false else (s.rq m u k d.toNat).getLsbD j, 0)

/-- The predicate with the truth of every lane. -/
def compareWord (outs : List (Bool × FpFlags)) : Word :=
  BitVec.ofNat 32 ((List.range 32).foldl (fun n j => if (outs.getD j (false, 0)).1 then n + 2 ^ j else n) 0)

theorem getLsbD_compareWord (outs : List (Bool × FpFlags)) {j : Nat} (hj : j < 32) :
    (compareWord outs).getLsbD j = (outs.getD j (false, 0)).1 := by
  have hb := (lt_and_testBit_foldl_two_pow (fun j => (outs.getD j (false, 0)).1 = true) 32).2 j hj
  rw [compareWord, BitVec.getLsbD_ofNat, hb]
  simp [hj]

variable {r : Nat → Bool × FpFlags}

theorem compareOuts_getD {j : Nat} (hj : j < 32) : (s.compareOuts m u k d q w r).getD j (false, 0) =
    if (s.rq m u k q.toNat).getLsbD j then r j
    else (if w = 1 then false else (s.rq m u k d.toNat).getLsbD j, 0) := by
  simp [State.compareOuts, hj]

/-- The flags of a compare are those of its active lanes. -/
theorem compareOuts_flags :
    (s.compareOuts m u k d q w r).foldl (fun x o => x ||| o.2) 0 = s.flagsOf m u k q fun j => (r j).2 :=
  foldl_map_ite _ r _ (fun o => o.2) (fun x y => x ||| y) (fun _ _ => BitVec.or_zero) _ _

/-- A compare of two sources with the required tag gives each active lane the truth of its condition. -/
theorem givesP_of_sylCompare {f : View → Syl} {want : BitVec 3} {lat : Nat} {g : Word → Word → Bool × FpFlags}
    (h : s.ReadyV m u k [a, b] a q w [] []) (hd : s.DeclaresQ m u k [d.toNat]) (he : exec i s = runSyl s i true f)
    (hi : i.wellFormed = true) (hx : (s.rv m u k a).Has want) (hy : (s.rv m u k b).Has want)
    (hf : f (s.sees m u k i) = sylCompare (s.sees m u k i) d a b q w want lat g := by rfl) :
    s.GivesP m u k i d q w lat fun j => g ((s.rv m u k a).lanes.getD j 0) ((s.rv m u k b).lanes.getD j 0) := by
  let outs := s.compareOuts m u k d q w fun j => g ((s.rv m u k a).lanes.getD j 0) ((s.rv m u k b).lanes.getD j 0)
  refine ⟨compareWord outs, sends_of_vectorSyl h.ready he hf ?_ ?_ ?_, fun j hj => ?_⟩
  · simp [sylCompare, illegal_cell hi h.cell, clusterCheck_nil h.cluster, declV_nil h.declaredV, declQ_nil h.declaredQ,
      declQ_nil hd]
  · simp [sylCompare, checkTag_nil hx, checkTag_nil hy]
  · rw [← compareOuts_flags (d := d) (w := w)]
    rfl
  · rw [getLsbD_compareWord _ hj, compareOuts_getD hj]
    rcases h.mode_eq with rfl | rfl <;> split <;> simp

/-- An FP32 compare: false beside a NaN, with the invalid flag beside one that signals (R38). -/
theorem fpCompare_eq (ftz : Bool) (f : Num → Num → Bool) (a b : Word) :
    fpCompare ftz f a b =
      (!(f32Num ftz a).isNan && !(f32Num ftz b).isNan && f (f32Num ftz a) (f32Num ftz b),
        if f32Num ftz a = .nan true ∨ f32Num ftz b = .nan true then flagNV else 0) := by
  simp only [fpCompare]
  generalize f32Num ftz a = x
  generalize f32Num ftz b = y
  by_cases hn : (x.isNan || y.isNan) = true
  · have hc : (!x.isNan && !y.isNan) = false := by rw [← Bool.not_or, hn]; rfl
    rw [if_pos hn, hc]
    simp [nanFlag]
  · have hc : (!x.isNan && !y.isNan) = true := by rw [← Bool.not_or]; simpa using hn
    have hs : ¬ (x = .nan true ∨ y = .nan true) := by
      rintro (rfl | rfl) <;> simp [Num.isNan] at hn
    rw [if_neg hn, hc, if_neg hs, Bool.true_and]

/-- An FP32 compare gives each active lane its condition on two numbers, by the rule of NaNs (R38, R138). -/
theorem givesP_of_fpCompare {f : View → Syl} {c : Num → Num → Bool} (h : s.ReadyV m u k [a, b] a q w [] [])
    (hd : s.DeclaresQ m u k [d.toNat]) (he : exec i s = runSyl s i true f) (hi : i.wellFormed = true)
    (hx : (s.rv m u k a).Has 2) (hy : (s.rv m u k b).Has 2)
    (hf : f (s.sees m u k i) =
      sylCompare (s.sees m u k i) d a b q w tagF32 4 (fpCompare (s.sees m u k i).ftz c) := by rfl) :
    s.GivesP m u k i d q w 4 fun j =>
      let x := f32Num ((s.strand m u k).fpc.getLsbD 2) ((s.rv m u k a).lanes.getD j 0)
      let y := f32Num ((s.strand m u k).fpc.getLsbD 2) ((s.rv m u k b).lanes.getD j 0)
      (!x.isNan && !y.isNan && c x y, if x = .nan true ∨ y = .nan true then flagNV else 0) := by
  have hp := givesP_of_sylCompare h hd he hi hx hy hf
  simp only [fpCompare_eq] at hp
  exact hp

end compares

/-! ### The reductions (R41, R143) -/

section reductions

variable (f : Word → Word → Word × FpFlags)

/-- One combining step of the tree, with the flags of its operands. -/
def treeStep (x y : Word × FpFlags) : Word × FpFlags :=
  ((f x.1 y.1).1, (f x.1 y.1).2 ||| x.2 ||| y.2)

/-- Value `j` of level `n` of the tree over `lane`, with the flags of the steps below it. -/
def treeNode (lane : Nat → Word) : Nat → Nat → Word × FpFlags
  | 0, j => (lane j, 0)
  | n + 1, j => treeStep f (treeNode lane n (2 * j)) (treeNode lane n (2 * j + 1))

/-- A level of the tree combines the neighbours of the level below. -/
theorem treeLevel_range (h : Nat → Word × FpFlags) (n : Nat) :
    treeLevel f ((List.range (2 * n)).map h) = (List.range n).map fun j => treeStep f (h (2 * j)) (h (2 * j + 1)) := by
  induction n generalizing h with
  | zero => rfl
  | succ n ih =>
    rw [Nat.mul_succ, List.range_succ_eq_map, List.range_succ_eq_map, List.range_succ_eq_map]
    simp only [List.map_cons, List.map_map, treeLevel]
    exact congrArg _ (ih fun j => h (j + 2))

/-- The model's tree of five levels is the last node of the tree. -/
theorem treeReduce_eq_treeNode (lane : Nat → Word) :
    treeReduce f ((List.range 32).map lane) = treeNode f lane 5 0 := by
  have hl (n l : Nat) : treeLevel f ((List.range (2 * l)).map (treeNode f lane n)) =
      (List.range l).map (treeNode f lane (n + 1)) := treeLevel_range f (treeNode f lane n) l
  have h0 : ((List.range 32).map lane).map (fun x => (x, (0 : FpFlags))) = (List.range (2 * 16)).map (treeNode f lane 0) :=
    List.map_map
  have h1 := hl 0 16
  have h2 : treeLevel f ((List.range 16).map _) = _ := hl 1 8
  have h3 : treeLevel f ((List.range 8).map _) = _ := hl 2 4
  have h4 : treeLevel f ((List.range 4).map _) = _ := hl 3 2
  have h5 : treeLevel f ((List.range 2).map _) = _ := hl 4 1
  simp only [treeReduce, h0, h1, h2, h3, h4, h5]
  rfl

variable {f} {s : State} {m u k : Nat} {i : Instr} {d a : BitVec 6} {q : BitVec 3} {w : BitVec 2}

/-- The lane with which a reduction begins: the identity `unit` where the lane is masked (R143). -/
def State.treeLane (s : State) (m u k : Nat) (a : BitVec 6) (q : BitVec 3) (unit : Word) (j : Nat) : Word :=
  if (s.rq m u k q.toNat).getLsbD j then (s.rv m u k a).lanes.getD j 0 else unit

/-- The one landing of a reduction: the last node of the tree in every active lane, with the flags of all its steps. -/
theorem sylReduce_effects {tag : BitVec 3} {unit : Word} :
    (sylReduce (s.sees m u k i) d a q w tag unit f).effects =
      [.land { s.result m u k (.v (s.pv m u k d)) (.vec ⟨Vector.ofFn fun j : Fin 32 =>
          s.laneOf m u k d q w (fun _ => (treeNode f (s.treeLane m u k a q unit) 5 0).1) j, tag⟩) 6 with
        flags := (treeNode f (s.treeLane m u k a q unit) 5 0).2 }] := by
  have ht : treeReduce f ((List.range 32).map fun j =>
      if ((s.sees m u k i).rq q.toNat).getLsbD j then ((s.sees m u k i).rv a).lanes.getD j 0 else unit) =
      treeNode f (s.treeLane m u k a q unit) 5 0 := treeReduce_eq_treeNode f (s.treeLane m u k a q unit)
  simp only [sylReduce, sylFrame, ht, vLand_frame, List.map_cons, List.map_nil]
  simp only [laneVal, countOf_zero]
  rfl

/-- A reduction of a source with the required tag is a tree of five levels over its lanes (R41, R143). -/
theorem exists_tree_of_sylReduce {F : View → Syl} {tag : BitVec 3} {unit : Word} (h : s.ReadyV m u k [d, a] d q w [] [])
    (he : exec i s = runSyl s i true F) (hi : i.wellFormed = true) (hx : (s.rv m u k a).Has tag)
    (hm : s.Merges m u k d q w tag)
    (hF : F (s.sees m u k i) = sylReduce (s.sees m u k i) d a q w tag unit f := by rfl) :
    ∃ (v : Nat → Nat → Word) (g : Nat → Nat → FpFlags),
      (∀ j < 32, v 0 j = if (s.rq m u k q.toNat).getLsbD j then (s.rv m u k a).lanes.getD j 0 else unit) ∧
      (∀ j < 32, g 0 j = 0) ∧
      (∀ n < 5, ∀ j < 2 ^ (4 - n), v (n + 1) j = (f (v n (2 * j)) (v n (2 * j + 1))).1 ∧
        g (n + 1) j = (f (v n (2 * j)) (v n (2 * j + 1))).2 ||| g n (2 * j) ||| g n (2 * j + 1)) ∧
      s.Sends m u k i [{ s.result m u k (.v (s.pv m u k d))
          (.vec ⟨Vector.ofFn fun j : Fin 32 => s.laneOf m u k d q w (fun _ => v 5 0) j, tag⟩) 6 with flags := g 5 0 }] := by
  let node := treeNode f (s.treeLane m u k a q unit)
  refine ⟨fun n j => (node n j).1, fun n j => (node n j).2, fun _ _ => rfl, fun _ _ => rfl, fun _ _ _ _ => ⟨rfl, rfl⟩,
    sends_of_vectorSyl h.ready he hF ?_ ?_ (sylReduce_effects)⟩
  · exact vBase_static h hi rfl (fun _ hr => hr) h.declaredQ
  · simp [sylReduce, sylFrame, checkTag_nil hx, mergeCheck_nil hm]

end reductions

/-! ### The permutes and moves (R144 to R148) -/

section moves

variable {s : State} {m u k : Nat} {i : Instr} {d a b : BitVec 6} {q : BitVec 3} {w : BitVec 2} {tag : BitVec 3}

/-- The join of two tags of which one is RAW or both are the same (R127). -/
theorem joinTag_ok {x y : VReg} (h : x.tag = 0 ∧ y.tag = tag ∨ x.tag = tag ∧ y.Has tag) : joinTag x y b = .ok tag := by
  rcases h with ⟨hx, rfl⟩ | ⟨rfl, hy⟩
  · simp [joinTag, hx, tagRAW]
  · by_cases hx : x.tag = 0
    · have hz : y.tag = 0 := hy.elim id (·.trans hx)
      simp [joinTag, hx, hz, tagRAW]
    · exact (if_neg hx).trans (if_pos hy)

/-- The syllable of vsel whose sources' tags join to `tag` (R144). -/
def selSyl (v : View) (d a b : BitVec 6) (q tag : BitVec 3) : Syl :=
  { vBase v (clusterOf d.toNat) [d, a, b] [] [q.toNat] true with
    dests := [(.v (physV v.st.rrb d.toNat), 2)]
    effects := [.land (vLand v d 2 tag ((List.range 32).map fun j =>
      laneVal (if (v.rq q.toNat).getLsbD j then (v.rv a).lanes.getD j 0 else (v.rv b).lanes.getD j 0)))] }

/-- vsel takes every lane of one source or the other, under the join of their tags (R144). -/
theorem sends_vsel (h : s.ReadyV m u k [d, a, b] d q w [] [])
    (ht : joinTag (s.rv m u k a) (s.rv m u k b) b = .ok tag) :
    s.Sends m u k (.vsel true d a b q) [s.result m u k (.v (s.pv m u k d)) (.vec ⟨Vector.ofFn fun j : Fin 32 =>
      if (s.rq m u k q.toNat).getLsbD j then (s.rv m u k a).lanes.getD j 0 else (s.rv m u k b).lanes.getD j 0, tag⟩) 2] := by
  refine sends_of_vectorSyl h.ready (exec_vsel ..) (y := selSyl (s.sees m u k (.vsel true d a b q)) d a b q tag)
    (by simp only [sees_rv, ht]; rfl) ?_ rfl ?_
  · exact vBase_static h rfl rfl (fun _ hr => hr) h.declaredQ
  · rw [selSyl, vLand_plain]
    rfl

theorem wellFormed_vbcast {n : BitVec 6} (hn : n.toNat ≤ 31) (hw : w.toNat ≤ 1) :
    (Instr.vbcast true d a n q w).wellFormed = true :=
  Bool.and_eq_true_iff.2 ⟨decide_eq_true hn, decide_eq_true hw⟩

theorem wellFormed_vslide {n : BitVec 6} (hn : n ≠ 32) (hw : w.toNat ≤ 1) :
    (Instr.vslide true d a n q w).wellFormed = true :=
  Bool.and_eq_true_iff.2 ⟨bne_iff_ne.2 fun e => hn (BitVec.eq_of_toNat_eq e), decide_eq_true hw⟩

/-- vxm needs no common cluster of its two vector names (R145). -/
theorem givesV_vxm (h : s.ReadyV m u k [d] d q w [] []) (hd : s.DeclaresV m u k [d, a])
    (hm : s.Merges m u k d q w (s.rv m u k a).tag) :
    s.GivesV m u k (.vxm true d a q w) d q w (s.rv m u k a).tag 3 fun j => laneVal ((s.rv m u k a).lanes.getD j 0) := by
  have hi : (Instr.vxm true d a q w).wellFormed = true := decide_eq_true h.mode
  refine givesV_of_vectorSyl h.ready (exec_vxm ..) rfl ?_ (mergeCheck_nil hm)
  simp [sylPermute, sylFrame, vBase, illegal_cell hi h.cell, declV_nil hd, declQ_nil h.declaredQ, View.declS]

/-- vins writes one lane and keeps the others and the tag, without a tag check (R146). -/
theorem givesV_vins (h : s.ReadyV m u k [d] d q w [a, b] []) :
    s.GivesV m u k (.vins true d a b q w) d q w (s.rv m u k d).tag 2 fun j =>
      laneVal (if j = (s.rs m u k b).toNat % 32 then s.rs m u k a else (s.rv m u k d).lanes.getD j 0) := by
  have hi : (Instr.vins true d a b q w).wellFormed = true := decide_eq_true h.mode
  exact givesV_of_vectorSyl h.ready (exec_vins ..) rfl (vBase_static h hi rfl (fun _ hr => hr) h.declaredQ) rfl

/-- vtag keeps the active lanes under a new tag, without a merge check (R148). -/
theorem givesV_vtag (h : s.ReadyV m u k [d] d q w [] []) :
    s.GivesV m u k (.vtag true d tag q w) d q w tag 1 fun j => laneVal ((s.rv m u k d).lanes.getD j 0) := by
  have hi : (Instr.vtag true d tag q w).wellFormed = true := decide_eq_true h.mode
  exact givesV_of_vectorSyl h.ready (exec_vtag ..) rfl (vBase_static h hi rfl (fun _ hr => hr) h.declaredQ) rfl

/-- vext lands the lane that its scalar operand names (R147). -/
theorem givesS_vext (h : s.ReadyV m u k [a] a q w [b] [d]) :
    s.GivesS m u k (.vext true d a b) d ((s.rv m u k a).lanes.getD ((s.rs m u k b).toNat % 32) 0) 2 := by
  have hi : (s.sees m u k (.vext true d a b)).illegal false = [] := illegal_cell rfl h.cell
  have hs {r : BitVec 6} (hr : r ∈ [d, b]) : s.DeclaresS m u k [r] :=
    h.ready.declared.mono fun r' hr' => List.mem_singleton.1 hr' ▸ hr
  refine gives_of_syl h.ready (exec_vext ..) ?_ rfl rfl (fun _ hp => hp) rfl rfl rfl
  simp [hi, declV_nil h.declaredV, declS_nil (hs _)]

/-- vgtag lands the tag (R148). -/
theorem givesS_vgtag (h : s.ReadyV m u k [a] a q w [] [d]) :
    s.GivesS m u k (.vgtag true d a) d ((s.rv m u k a).tag.setWidth 32) 1 := by
  have hi : (s.sees m u k (.vgtag true d a)).illegal false = [] := illegal_cell rfl h.cell
  have hs : s.DeclaresS m u k [d] := h.ready.declared
  refine gives_of_syl h.ready (exec_vgtag ..) ?_ rfl rfl (fun _ hp => hp) rfl rfl rfl
  simp [hi, declV_nil h.declaredV, declS_nil hs]

end moves

/-! ### The statements -/

/-- Settles O31: each compare by its condition on two lanes, the FP32 conditions by the rule of NaNs. -/
theorem vectorCompares : Obligations.VectorCompares := by
  unfold Obligations.VectorCompares
  intro s m u k d a b q w h hd hq
  have hi : (isPred d && isMode w) = true := Bool.and_eq_true_iff.2 ⟨decide_eq_true hd, decide_eq_true h.mode⟩
  refine ⟨fun hx hy => ⟨?_, ?_, ?_⟩, fun hx hy => ?_⟩
  · exact givesP_of_sylCompare (g := fun x y => (x == y, 0)) h hq (exec_vceqI ..) hi hx hy
  · exact givesP_of_sylCompare (g := fun x y => (x.slt y, 0)) h hq (exec_vcltI ..) hi hx hy
  · exact givesP_of_sylCompare (g := fun x y => (x.ult y, 0)) h hq (exec_vcltuI ..) hi hx hy
  · exact ⟨givesP_of_fpCompare (c := numEq) h hq (exec_vceqF ..) hi hx hy,
      givesP_of_fpCompare (c := numLt) h hq (exec_vcltF ..) hi hx hy,
      givesP_of_fpCompare (c := fun x y => numLt x y || numEq x y) h hq (exec_vcleF ..) hi hx hy⟩

/-- Settles O34: the reductions by their tree, the permutes and moves each by the lanes of its frame. -/
theorem vectorReductionsAndMoves : Obligations.VectorReductionsAndMoves := by
  unfold Obligations.VectorReductionsAndMoves
  refine ⟨fun s m u k d a q w h => ?_, fun s m u k d a b n tag q w => ?_⟩
  · have hi : isMode w = true := decide_eq_true h.mode
    refine ⟨?_, ?_, ?_, ?_⟩
    · exact exists_tree_of_sylReduce h (exec_vredaddF ..) hi
    · exact exists_tree_of_sylReduce h (exec_vredmaxF ..) hi
    · exact exists_tree_of_sylReduce h (exec_vredaddI ..) hi
    · simp only [← maxS_eq]
      exact exists_tree_of_sylReduce h (exec_vredmaxI ..) hi
  · refine ⟨fun h => ?_, fun h => ?_, fun h hd hm => givesV_vxm h hd hm, fun h => givesV_vins h, fun h => ?_, fun h => ?_,
      fun h => givesS_vext h, fun h => givesS_vgtag h⟩
    · refine ⟨fun hy hm => ?_, fun ht => sends_vsel h (joinTag_ok ht)⟩
      exact givesV_of_frame h (exec_vperm ..) (decide_eq_true h.mode) rfl rfl rfl (checkTag_nil hy) hm
    · refine ⟨fun hn hm => ?_, fun hn hm => ?_, fun hm => ?_⟩
      · exact givesV_of_frame h (exec_vbcast ..) (wellFormed_vbcast hn h.mode) rfl rfl rfl rfl hm
      · exact givesV_of_frame h (exec_vslide ..) (wellFormed_vslide hn h.mode) rfl rfl rfl rfl hm
      · exact givesV_of_frame h (exec_vmov ..) (decide_eq_true h.mode) rfl rfl rfl rfl hm
    · exact givesV_of_frame h (exec_vsplat ..) (decide_eq_true h.mode) rfl rfl rfl rfl (.inr (.inr (.inl rfl)))
    · exact ⟨givesV_vtag h, givesV_of_frame h (exec_viota ..) (decide_eq_true h.mode) rfl rfl rfl rfl⟩

end Sys2Proof.Machine
end

section
/-! Class M: the scalar loads, the scalar stores and the local atomics (R186 to R188, R194, R195). -/

namespace Sys2Proof.Machine

/-! ### The bytes of a word (R6) -/

section bytes

/-- A byte below a number is the lowest of the number's bytes. -/
theorem toNat_append_byte {n : Nat} (x : BitVec n) (b : Byte) : (x ++ b).toNat = b.toNat + 256 * x.toNat := by
  rw [BitVec.toNat_append, ← Nat.shiftLeft_add_eq_or_of_lt b.isLt, Nat.shiftLeft_eq]
  omega

variable (mem : List Host.Cell) (c : Nat) (x : Word)

theorem memBytes_succ (n : Nat) : memBytes mem c (n + 1) = memByte mem c :: memBytes mem (c + 1) n := by
  simp only [memBytes_eq, List.range_succ_eq_map, List.map_cons, List.map_map, Function.comp_def, Nat.add_right_comm c 1]
  rfl

theorem leNat_memBytes_succ (n : Nat) :
    leNat (memBytes mem c (n + 1)) = (memByte mem c).toNat + 256 * leNat (memBytes mem (c + 1) n) := by
  rw [memBytes_succ]
  rfl

theorem leNat_memBytes_one : leNat (memBytes mem c 1) = (memByte mem c).toNat :=
  leNat_memBytes_succ mem c 0

theorem leNat_memBytes_two : leNat (memBytes mem c 2) = (memByte mem (c + 1) ++ memByte mem c).toNat := by
  rw [leNat_memBytes_succ, leNat_memBytes_one, toNat_append_byte]

theorem leNat_memBytes_four : leNat (memBytes mem c 4) =
    (memByte mem (c + 3) ++ memByte mem (c + 2) ++ memByte mem (c + 1) ++ memByte mem c).toNat := by
  rw [toNat_append_byte, toNat_append_byte, leNat_memBytes_succ, leNat_memBytes_succ, leNat_memBytes_two]

theorem leBytes_succ (n y : Nat) : leBytes (n + 1) y = BitVec.ofNat 8 y :: leBytes n (y / 256) := rfl

/-- The `n` bytes of a word from byte `j` up. -/
theorem leBytes_div_eq_extract (n j : Nat) : leBytes n (x.toNat / 2 ^ (8 * j)) =
    (List.range' j n).map fun l => x.extractLsb' (8 * l) 8 := by
  induction n generalizing j with
  | zero => rfl
  | succ n ih =>
    have hd : x.toNat / 2 ^ (8 * j) / 256 = x.toNat / 2 ^ (8 * (j + 1)) := by
      rw [Nat.div_div_eq_div_mul, Nat.mul_add, Nat.pow_add]
    have hb : BitVec.ofNat 8 (x.toNat / 2 ^ (8 * j)) = x.extractLsb' (8 * j) 8 := by
      rw [BitVec.extractLsb', Nat.shiftRight_eq_div_pow]
    rw [leBytes_succ, hd, ih, hb, List.range'_succ, List.map_cons]

/-- The `n` low bytes of a word. -/
theorem leBytes_eq_extract (n : Nat) :
    leBytes n x.toNat = (List.range' 0 n).map fun l => x.extractLsb' (8 * l) 8 := by
  simpa using leBytes_div_eq_extract x n 0

end bytes

/-! ### A plain access that passes its checks -/

section access

variable {s t : State} {m u k off lat : Nat} {c : Cell} {ls : List Landing} {i : Instr} {hn : BitVec 4}
  {named srcs dests : List (BitVec 6)} {effects : List Effect}

/-- The syllable of a plain access through handle `hn` once its address is good and nothing holds its bytes: the registers
that it declares, reads and writes, and its effects. -/
def accessSyl (v : View) (hn : BitVec 4) (named srcs dests : List (BitVec 6)) (lat : Nat) (effects : List Effect) : Syl :=
  { v.syl .memory true with
    dests := dests.map fun d => (.s (v.ps d), lat)
    reads := srcs.map v.ps
    names := dests.map v.ps
    static := v.illegal true ++ v.declS named ++ v.declH [hn.toNat]
    effects := effects }

/-- In a strand that is ready for it such a syllable issues. -/
theorem accessSyl_issues (h : s.Ready m u k srcs dests) (hh : s.DeclaresH m u k [hn.toNat]) (hi : i.wellFormed = true)
    (hnamed : ∀ r ∈ named, r ∈ dests ++ srcs) (hl : effects.countP Effect.lands ≤ 1) :
    (accessSyl (s.sees m u k i) hn named srcs dests lat effects).Issues (s.strand m u k) where
  static := by simp [accessSyl, illegal_nil hi, declS_nil (h.declared.mono hnamed), declH_nil hh]
  dyn := rfl
  image := rfl
  pend := fun p hp => h.settled.pend p hp
  notes := fun d hd => h.settled.notes d hd
  loop := .inl rfl
  free := rfl
  room := by
    have hc : landCount [accessSyl (s.sees m u k i) hn named srcs dests lat effects] = effects.countP Effect.lands := by
      simp [landCount, accessSyl]
    have := h.room
    omega

/-- An instruction with such a syllable has its effects on the machine in which its bundle has issued, one after the other,
where they are listed in the bundle's order (R69, R70). -/
theorem exec_of_accessSyl {f : View → Syl} (h : s.Ready m u k srcs dests) (hh : s.DeclaresH m u k [hn.toNat])
    (he : exec i s = runSyl s i true f) (hi : i.wellFormed = true)
    (hf : f (s.sees m u k i) = accessSyl (s.sees m u k i) hn named srcs dests lat effects)
    (hnamed : ∀ r ∈ named, r ∈ dests ++ srcs) (hl : effects.countP Effect.lands ≤ 1)
    (ho : effects.filter Effect.lands ++ (effects.filter Effect.syncs ++ (effects.filter Effect.reads ++
      effects.filter Effect.writes)) = effects) :
    ∃ next, exec i s = .next (effects.foldl (applyEffect m u k next) (s.committed m u k 1)) := by
  have hy := accessSyl_issues (lat := lat) h hh hi hnamed hl
  have hord : orderedEffects [accessSyl (s.sees m u k i) hn named srcs dests lat effects] = effects :=
    (orderedEffects_memory rfl).trans ho
  exact ⟨(s.strand m u k).pc + 1, by
    rw [he, runSyl_commits h.opened (hf ▸ hy), hf, commitBundle_single hy.notes, hord]⟩

/-- A load of a discarded page is counted (R186). -/
theorem IssuedIn.discRead (h : IssuedIn s t m u k c ls) (next : BitVec 15) :
    IssuedIn s (applyEffect m u k next t .discRead) m u k
      (c.count fun n => { n with discRead := countUp n.discRead }) ls :=
  h.onCell (fun x => x.count fun n => { n with discRead := countUp n.discRead }) (fun _ => rfl) (by rw [h.cell]; rfl)

/-- A plain write has an effect on a detector where there is one for its byte (R202). -/
theorem raceEffect_eq (v : View) : raceEffect v off = (v.cell.raceAt off).toList.map fun r => .raceWrite r.off := by
  unfold raceEffect
  cases v.cell.raceAt off <;> rfl

/-- The detector of the SHARED region that holds the byte, if there is one, notes the writer of a plain store (R202). -/
theorem IssuedIn.raceEffect (h : IssuedIn s t m u k c ls) (next : BitVec 15)
    (hr : (s.cell m u).raceAt off = c.raceAt off) (hc : (c.strand k).recid = (s.strand m u k).recid) :
    IssuedIn s ((raceEffect (s.sees m u k i) off).foldl (applyEffect m u k next) t) m u k (c.wrote k off) ls := by
  rw [raceEffect_eq, sees_cell, hr]
  cases hd : c.raceAt off with
  | none =>
    have hw : c.wrote k off = c := by rw [Cell.wrote, hd]
    exact hw.symm ▸ h
  | some r => exact h.race next hd hc

/-- An access that reaches its bytes is none of the window of a Spire core onto the registers of its module (R414). -/
theorem State.Reaches.not_window {kind : Access} {a n : Nat} (h : s.Reaches m u kind a n) (h0 : 0 < n) :
    ¬ ((s.sees m u k i).spire = true ∧ 2 ^ 20 ≤ a) := fun ⟨hs, ha⟩ => by
  have := h.plain hs
  omega

/-- The checks of an access do not look at the syllable that makes it (R89). -/
theorem sees_ea {o : Int} {n num : Nat} {kind : Access} : (s.sees m u k i).ea num o n kind = s.ea m u k num o n kind := rfl

/-- Where no error is planted, a read finds none (R383). -/
theorem finds_nil (hp : (s.cell m u).flips = []) (rs : List (Nat × Nat)) : (s.sees m u k i).finds rs = [] := by
  simp [View.finds, hp]

end access

/-! ### Scalar loads and stores (R186 to R188) -/

section scalar

variable {s : State} {m u k n c : Nat} {i : Instr} {d a : BitVec 6} {hn : BitVec 4} {imm : BitVec 7} {ext : Nat → Word}
  {mig : Bool}

/-- The offset of a scalar load or store of `n` bytes in its page. -/
def State.scalarOff (s : State) (m u k : Nat) (a : BitVec 6) (imm : BitVec 7) (n : Nat) : Int :=
  (s.rs m u k a + imm.signExtend 32 * BitVec.ofNat 32 n).toInt

theorem msOffset_sees : msOffset (s.sees m u k i) a imm n = s.scalarOff m u k a imm n := rfl

/-- The effects of a scalar load of `n` bytes at `c`: its landing, and the count of a read of a discarded page. -/
def State.loadEffects (s : State) (m u k : Nat) (d : BitVec 6) (c n : Nat) (disc : Bool) (ext : Nat → Word) :
    List Effect :=
  if disc then [.land (s.result m u k (.s (s.ps m u k d)) (.word (ext 0)) 3), .discRead]
  else [.land { s.result m u k (.s (s.ps m u k d)) (.word (ext (leNat (memBytes (s.cell m u).mem c n)))) 3 with
    taint := s.taintOf m u c n }]

/-- The syllable of a load whose address is good. -/
theorem sylLoad_eq {disc : Bool} (hea : s.ea m u k hn.toNat (s.scalarOff m u k a imm n) n .load = .ok c disc mig)
    (hr : s.Reaches m u .load c n) (h0 : 0 < n) :
    sylLoad (s.sees m u k i) d hn a imm n ext =
      accessSyl (s.sees m u k i) hn [d, a] [a] [d] 3 (s.loadEffects m u k d c n disc ext) := by
  unfold sylLoad
  rw [msOffset_sees, sees_ea, hea]
  refine (if_neg (hr.not_window h0)).trans ?_
  rw [sees_cell, hr.free, finds_nil hr.plants]
  cases disc <;> rfl

/-- A load whose address is good has its effects (R188). -/
theorem exec_of_sylLoad {disc : Bool} (h : s.Ready m u k [a] [d]) (hh : s.DeclaresH m u k [hn.toNat])
    (he : exec i s = runSyl s i true fun v => sylLoad v d hn a imm n ext) (hi : i.wellFormed = true) (h0 : 0 < n)
    (hea : s.ea m u k hn.toNat (s.scalarOff m u k a imm n) n .load = .ok c disc mig) (hr : s.Reaches m u .load c n) :
    ∃ next, exec i s =
      .next ((s.loadEffects m u k d c n disc ext).foldl (applyEffect m u k next) (s.committed m u k 1)) := by
  have hf := sylLoad_eq (d := d) (i := i) (ext := ext) hea hr h0
  cases disc
  · exact exec_of_accessSyl h hh he hi hf (fun _ hm => hm) (Nat.le_refl 1) rfl
  · exact exec_of_accessSyl h hh he hi hf (fun _ hm => hm) (Nat.le_refl 1) rfl

/-- A load lands its bytes, extended, with the taint of their word (R188, R119). -/
theorem sends_of_sylLoad {x : Word} (h : s.Ready m u k [a] [d]) (hh : s.DeclaresH m u k [hn.toNat])
    (he : exec i s = runSyl s i true fun v => sylLoad v d hn a imm n ext) (hi : i.wellFormed = true) (h0 : 0 < n)
    (hx : ext (leNat (memBytes (s.cell m u).mem c n)) = x)
    (hea : s.ea m u k hn.toNat (s.scalarOff m u k a imm n) n .load = .ok c false mig) (hr : s.Reaches m u .load c n) :
    s.Sends m u k i [{ s.result m u k (.s (s.ps m u k d)) (.word x) 3 with taint := s.taintOf m u c n }] := by
  obtain ⟨next, hs⟩ := exec_of_sylLoad h hh he hi h0 hea hr
  rw [← hx]
  exact ⟨_, hs, (committed_issued h.opened.strand).land h.opened.strand next _⟩

/-- A load of a discarded page lands zeros, without a taint, and is counted (R186). -/
theorem leaves_of_sylLoad_discarded (h : s.Ready m u k [a] [d]) (hh : s.DeclaresH m u k [hn.toNat])
    (he : exec i s = runSyl s i true fun v => sylLoad v d hn a imm n ext) (hi : i.wellFormed = true) (h0 : 0 < n)
    (hx : ext 0 = 0)
    (hea : s.ea m u k hn.toNat (s.scalarOff m u k a imm n) n .load = .ok c true mig) (hr : s.Reaches m u .load c n) :
    s.Leaves m u k i ((s.cell m u).count fun n => { n with discRead := countUp n.discRead })
      [s.result m u k (.s (s.ps m u k d)) (.word 0) 3] := by
  obtain ⟨next, hs⟩ := exec_of_sylLoad h hh he hi h0 hea hr
  rw [← hx]
  exact ⟨_, hs, ((committed_issued h.opened.strand).land h.opened.strand next _).discRead next⟩

/-- The syllable of a store whose address is good, in a page that is not migrating. -/
theorem sylStore_eq (hea : s.ea m u k hn.toNat (s.scalarOff m u k a imm n) n .store = .ok c false false)
    (hr : s.Reaches m u .store c n) (h0 : 0 < n) :
    sylStore (s.sees m u k i) d hn a imm n = accessSyl (s.sees m u k i) hn [d, a] [d, a] [] 0
      (.store c (leBytes n (s.rs m u k d).toNat) :: raceEffect (s.sees m u k i) c) := by
  unfold sylStore
  rw [msOffset_sees, sees_ea, hea]
  refine (if_neg (hr.not_window h0)).trans ?_
  rw [sees_cell, hr.free]
  rfl

/-- What the detector notes is no byte of memory (R202). -/
theorem Cell.wrote_mem (x : Cell) (off : Nat) : (x.wrote k off).mem = x.mem := by
  unfold Cell.wrote
  cases x.raceAt off <;> rfl

/-- Where a store has issued, memory reads as it has written it (R188). -/
theorem memByte_of_issuedIn_store {t : State} {bytes : List Byte} {ls : List Landing}
    (h : IssuedIn s t m u k (((s.cell m u).storeBytes c bytes).wrote k c) ls) (x : Nat) :
    memByte (t.cell m u).mem x =
      if c ≤ x ∧ x < c + bytes.length then bytes.getD (x - c) 0 else memByte (s.cell m u).mem x := by
  have hm : (t.cell m u).mem = memWrite (s.cell m u).mem c bytes := by
    rw [h.cell]
    exact Cell.wrote_mem _ _
  rw [hm, memByte_memWrite]

/-- A store writes the low bytes of its register and no other byte (R188). -/
theorem stores_of_sylStore {bytes : List Byte} (h : s.Ready m u k [d, a] []) (hh : s.DeclaresH m u k [hn.toNat])
    (he : exec i s = runSyl s i true fun v => sylStore v d hn a imm n) (hi : i.wellFormed = true) (h0 : 0 < n)
    (hb : leBytes n (s.rs m u k d).toNat = bytes)
    (hea : s.ea m u k hn.toNat (s.scalarOff m u k a imm n) n .store = .ok c false false)
    (hr : s.Reaches m u .store c n) : s.Stores m u k i c bytes := by
  obtain ⟨next, hs⟩ := exec_of_accessSyl h hh he hi (sylStore_eq hea hr h0) (by simp)
    (by rw [raceEffect_eq]; cases Cell.raceAt _ _ <;> simp [Effect.lands])
    (by rw [raceEffect_eq]; cases Cell.raceAt _ _ <;> rfl)
  rw [hb] at hs
  have hstored := (committed_issued (s := s) (m := m) (u := u) h.opened.strand).store next c bytes
  have ht := hstored.raceEffect (i := i) (off := c) next rfl rfl
  exact ⟨_, hs, ht, memByte_of_issuedIn_store ht⟩

end scalar

/-! ### Local atomics (R194, R195) -/

section atomics

variable {s : State} {m u k c : Nat} {i : Instr} {d a b : BitVec 6} {hn : BitVec 4} {readsD : Bool}
  {f : Word → Word → Word → Option Word} {new : Option Word}

/-- The scalars that an atomic reads: amocas reads sd, too. -/
def amoSrcs (a b d : BitVec 6) (readsD : Bool) : List (BitVec 6) := if readsD then [a, b, d] else [a, b]

/-- What an atomic lands: the old word, with the taint of its code. -/
def State.amoResult (s : State) (m u k : Nat) (d : BitVec 6) (c : Nat) : Landing :=
  { s.result m u k (.s (s.ps m u k d)) (.word (memWord (s.cell m u).mem c)) 5 with taint := s.taintOf m u c 4 }

/-- The effects of an atomic: the old word lands, and the new one, if there is one, is stored. -/
def State.amoEffects (s : State) (m u k : Nat) (d : BitVec 6) (c : Nat) (new : Option Word) : List Effect :=
  .land (s.amoResult m u k d c) :: new.toList.map fun x => .store c (leBytes 4 x.toNat)

/-- The syllable of an atomic whose address is good, in a page that is not migrating. -/
theorem sylAmo_eq (hea : s.ea m u k hn.toNat (s.rs m u k a).toInt 4 .atomic = .ok c false false)
    (hr : s.Reaches m u .atomic c 4) (hx : f (memWord (s.cell m u).mem c) (s.rs m u k b) (s.rs m u k d) = new) :
    sylAmo (s.sees m u k i) d hn a b readsD f =
      accessSyl (s.sees m u k i) hn [d, a, b] (amoSrcs a b d readsD) [d] 5 (s.amoEffects m u k d c new) := by
  subst hx
  unfold sylAmo
  rw [sees_rs, sees_ea, hea]
  dsimp only
  rw [sees_cell, hr.free, finds_nil hr.plants, sees_rs, sees_rs]
  cases f _ _ _ <;> rfl

/-- An atomic whose address is good has its effects, in one step (R194). -/
theorem exec_of_sylAmo (h : s.Ready m u k (amoSrcs a b d readsD) [d]) (hh : s.DeclaresH m u k [hn.toNat])
    (hea : s.ea m u k hn.toNat (s.rs m u k a).toInt 4 .atomic = .ok c false false) (hr : s.Reaches m u .atomic c 4)
    (he : exec i s = runSyl s i true fun v => sylAmo v d hn a b readsD f) (hi : i.wellFormed = true)
    (hx : f (memWord (s.cell m u).mem c) (s.rs m u k b) (s.rs m u k d) = new) :
    ∃ next, exec i s = .next ((s.amoEffects m u k d c new).foldl (applyEffect m u k next) (s.committed m u k 1)) := by
  have hf := sylAmo_eq (d := d) (b := b) (i := i) (readsD := readsD) (f := f) hea hr hx
  have hnamed : ∀ r ∈ [d, a, b], r ∈ [d] ++ amoSrcs a b d readsD := by cases readsD <;> simp [amoSrcs]
  cases new
  · exact exec_of_accessSyl h hh he hi hf hnamed (Nat.le_refl 1) rfl
  · exact exec_of_accessSyl h hh he hi hf hnamed (Nat.le_refl 1) rfl

/-- An atomic whose function gives a new word lands the old one and writes the new one (R194). -/
theorem leaves_of_sylAmo {x : Word} (h : s.Ready m u k (amoSrcs a b d readsD) [d]) (hh : s.DeclaresH m u k [hn.toNat])
    (hea : s.ea m u k hn.toNat (s.rs m u k a).toInt 4 .atomic = .ok c false false) (hr : s.Reaches m u .atomic c 4)
    (he : exec i s = runSyl s i true fun v => sylAmo v d hn a b readsD f) (hi : i.wellFormed = true)
    (hx : f (memWord (s.cell m u).mem c) (s.rs m u k b) (s.rs m u k d) = some x) :
    s.Leaves m u k i ((s.cell m u).storeBytes c (leBytes 4 x.toNat)) [s.amoResult m u k d c] := by
  obtain ⟨next, hs⟩ := exec_of_sylAmo h hh hea hr he hi hx
  exact ⟨_, hs, ((committed_issued h.opened.strand).land h.opened.strand next _).store next c _⟩

/-- An atomic whose function gives no new word lands the old one and writes nothing (R195). -/
theorem sends_of_sylAmo (h : s.Ready m u k (amoSrcs a b d readsD) [d]) (hh : s.DeclaresH m u k [hn.toNat])
    (hea : s.ea m u k hn.toNat (s.rs m u k a).toInt 4 .atomic = .ok c false false) (hr : s.Reaches m u .atomic c 4)
    (he : exec i s = runSyl s i true fun v => sylAmo v d hn a b readsD f) (hi : i.wellFormed = true)
    (hx : f (memWord (s.cell m u).mem c) (s.rs m u k b) (s.rs m u k d) = none) :
    s.Sends m u k i [s.amoResult m u k d c] := by
  obtain ⟨next, hs⟩ := exec_of_sylAmo h hh hea hr he hi hx
  exact ⟨_, hs, (committed_issued h.opened.strand).land h.opened.strand next _⟩

end atomics

/-! ### The statements -/

/-- Settles O25: each load by its extension of its bytes, each store by the low bytes of its register. -/
theorem scalarLoadsAndStores : Obligations.ScalarLoadsAndStores := by
  unfold Obligations.ScalarLoadsAndStores
  refine ⟨fun s m u k d h a i c mig hr hh => ⟨?_, ?_, ?_, ?_, ?_⟩,
    fun s m u k d h a i c mig hr hh => ?_, fun s m u k d h a i c hr hh => ?_⟩
  · exact sends_of_sylLoad hr hh (exec_ldb ..) rfl (by decide)
      (by rw [leNat_memBytes_one, BitVec.ofNat_toNat, BitVec.setWidth_eq]; rfl)
  · exact sends_of_sylLoad hr hh (exec_ldbu ..) rfl (by decide) (by rw [leNat_memBytes_one, BitVec.ofNat_toNat])
  · exact sends_of_sylLoad hr hh (exec_ldh ..) rfl (by decide)
      (by rw [leNat_memBytes_two, BitVec.ofNat_toNat, BitVec.setWidth_eq]; rfl)
  · exact sends_of_sylLoad hr hh (exec_ldhu ..) rfl (by decide) (by rw [leNat_memBytes_two, BitVec.ofNat_toNat])
  · exact sends_of_sylLoad hr hh (exec_ldw ..) rfl (by decide)
      (by rw [leNat_memBytes_four, BitVec.ofNat_toNat, BitVec.setWidth_eq])
  · exact ⟨leaves_of_sylLoad_discarded hr hh (exec_ldb ..) rfl (by decide) rfl,
      leaves_of_sylLoad_discarded hr hh (exec_ldbu ..) rfl (by decide) rfl,
      leaves_of_sylLoad_discarded hr hh (exec_ldh ..) rfl (by decide) rfl,
      leaves_of_sylLoad_discarded hr hh (exec_ldhu ..) rfl (by decide) rfl,
      leaves_of_sylLoad_discarded hr hh (exec_ldw ..) rfl (by decide) rfl⟩
  · exact ⟨stores_of_sylStore hr hh (exec_stb ..) rfl (by decide) (leBytes_eq_extract ..),
      stores_of_sylStore hr hh (exec_sth ..) rfl (by decide) (leBytes_eq_extract ..),
      stores_of_sylStore hr hh (exec_stw ..) rfl (by decide) (leBytes_eq_extract ..)⟩

/-- Settles O27: each atomic by the word that its function writes, amocas by whether it writes one. -/
theorem localAtomics : Obligations.LocalAtomics := by
  unfold Obligations.LocalAtomics
  intro s m u k d h a b c hr hh hea hc
  have hmin := congrArg some (minS_eq (memWord (s.cell m u).mem c) (s.rs m u k b))
  have hmax := congrArg some (maxS_eq (memWord (s.cell m u).mem c) (s.rs m u k b))
  have writes {i : Instr} {f : Word → Word → Word → Option Word} {x : Word} :=
    leaves_of_sylAmo (i := i) (readsD := false) (f := f) (x := x) hr hh hea hc
  refine ⟨writes (exec_amoadd ..) rfl rfl, writes (exec_amoand ..) rfl rfl, writes (exec_amoor ..) rfl rfl,
    writes (exec_amoxor ..) rfl rfl, writes (exec_amomin ..) rfl hmin, writes (exec_amomax ..) rfl hmax,
    writes (exec_amoswp ..) rfl rfl, writes (exec_amofadd ..) rfl rfl, fun hrd => ⟨fun he => ?_, fun hne => ?_⟩⟩
  · exact leaves_of_sylAmo (readsD := true) hrd hh hea hc (exec_amocas ..) rfl (if_pos he)
  · exact sends_of_sylAmo (readsD := true) hrd hh hea hc (exec_amocas ..) rfl (if_neg hne)

end Sys2Proof.Machine
end

section
/-! Every syllable is evaluated on its own, and then joins or closes its bundle (R61, R65). -/

namespace Sys2Proof.Machine

-- One proof after the other, which keeps the memory of a build low.
set_option Elab.async false

seal runSyl in
/-- Every syllable is evaluated on what its strand holds, and closes the bundle by its E bit (R61). -/
theorem exec_eq_runSyl {i : Instr} (h : i.isSyllable = true) (s : State) :
    ∃ f, exec i s = runSyl s i ((encode i).getLsbD 31) f := by
  suffices ends : ∀ {e : Bool} {op f : Nat}, op < 256 → f < 8388608 → (syllable e op f).getLsbD 31 = e by
    suffices fields : (∀ {d a b x}, d < 64 → a < 64 → b < 64 → x < 32 → fmtRrr d a b x < 8388608) ∧
        (∀ {d a x}, d < 64 → a < 64 → x < 2048 → fmtRri d a x < 8388608) ∧
        (∀ {d x}, d < 64 → x < 131072 → fmtRi d x < 8388608) ∧ (∀ {x}, x < 8388608 → fmtRi 0 x < 8388608) ∧
        (∀ {d h a x}, d < 64 → h < 16 → a < 64 → x < 128 → fmtMs d h a x < 8388608) ∧
        (∀ {d h a t x}, d < 64 → h < 16 → a < 64 → t < 8 → x < 16 → fmtMv d h a t x < 8388608) ∧
        (∀ {d h a x}, d < 64 → h < 16 → a < 64 → x < 64 → fmtAt d h a x < 8388608) ∧
        (∀ {d a b q m}, d < 64 → a < 64 → b < 64 → q < 8 → m < 4 → fmtVv d a b q m < 8388608) ∧
        (∀ {a b x t}, a < 64 → b < 64 → x < 32 → t < 64 → fmtEn a b x t < 8388608) ∧
        (∀ {a b r h t}, a < 64 → b < 64 → r < 2 → h < 16 → t < 64 → fmtEnh a b r h t < 8388608) ∧
        ∀ {d a x n}, d < 64 → a < 64 → x < 32 → n < 32 → fmtRrf d a x n < 8388608 by
      suffices ∃ e f, (encode i).getLsbD 31 = e ∧ exec i s = runSyl s i e f by
        obtain ⟨e, f, rfl, hf⟩ := this
        exact ⟨f, hf⟩
      obtain ⟨rrr, rri, ri, br, ms, mv, at', vv, en, enh, rrf⟩ := fields
      have lt1 (x : BitVec 1) : x.toNat < 2 := x.isLt
      have lt2 (x : BitVec 2) : x.toNat < 4 := x.isLt
      have lt3 (x : BitVec 3) : x.toNat < 8 := x.isLt
      have lt4 (x : BitVec 4) : x.toNat < 16 := x.isLt
      have lt1' (x : BitVec 1) : x.toNat < 64 := x.isLt.trans (by decide)
      have lt2' (x : BitVec 2) : x.toNat < 64 := x.isLt.trans (by decide)
      have lt3' (x : BitVec 3) : x.toNat < 64 := x.isLt.trans (by decide)
      have lt4' (x : BitVec 4) : x.toNat < 32 := x.isLt.trans (by decide)
      have lt5 (x : BitVec 5) : x.toNat < 32 := x.isLt
      have lt6 (x : BitVec 6) : x.toNat < 64 := x.isLt
      have lt6' (x : BitVec 6) : x.toNat < 131072 := x.isLt.trans (by decide)
      have lt7 (x : BitVec 7) : x.toNat < 128 := x.isLt
      have lt11 (x : BitVec 11) : x.toNat < 2048 := x.isLt
      have lt17 (x : BitVec 17) : x.toNat < 131072 := x.isLt
      have lt23 (x : BitVec 23) : x.toNat < 8388608 := x.isLt
      revert h
      induction i using Instr.casesOn
      all_goals intro h
      any_goals exact absurd h (of_decide_eq_false rfl)
      all_goals refine ⟨_, _, ?_, rfl⟩
      case reservedEncoding w => rw [eBit, bits, BitVec.getLsbD, Nat.testBit_eq_decide_div_mod_eq]; rfl
      all_goals refine ends ?_ ?_
      any_goals simp only [Nat.reduceLT, rrr, rri, ri, br, ms, mv, at', vv, en, enh, rrf, lt1, lt2, lt3, lt4, lt5, lt1', lt2', lt3', lt4',
        lt6, lt6', lt7, lt11, lt17, lt23]
      case fence k s => have := k.isLt; have := s.isLt; omega
    refine ⟨?_, ?_, ?_, ?_, ?_, ?_, ?_, ?_, ?_, ?_, ?_⟩
    all_goals
      intros
      simp only [fmtRrr, fmtRri, fmtRi, fmtMs, fmtMv, fmtAt, fmtVv, fmtEn, fmtEnh, fmtRrf]
      omega
  intro e op f hop hf
  have he := e.toNat_le
  rw [syllable, BitVec.getLsbD_ofNat, Nat.testBit_eq_decide_div_mod_eq]
  have h31 : (e.toNat * 2 ^ 31 + op * 2 ^ 23 + f) / 2 ^ 31 = e.toNat := by omega
  rw [h31]
  cases e <;> rfl

end Sys2Proof.Machine
end

section
/-! Decoding and encoding are inverse to one another (R61 to R64, R73 to R79). -/

namespace Sys2Proof

-- One proof after the other, which keeps the memory of a build low.
set_option Elab.async false

/-! ### The fields of a syllable -/

section fields

variable {e : Bool} {op f lo n : Nat}

/-- The number of a syllable whose opcode and operand fields stay in their places (R61). -/
theorem toNat_syllable (hop : op < 2 ^ 8) (hf : f < 2 ^ 23) :
    (syllable e op f).toNat = e.toNat * 2 ^ 31 + op * 2 ^ 23 + f := by
  have he := e.toNat_le
  rw [syllable, BitVec.toNat_ofNat, Nat.mod_eq_of_lt (by omega)]


/-- A word is determined by its E bit, its opcode and its operand fields. -/
theorem syllable_eq {w : Word} (ho : opcode w = op) (hf : f = bits w 0 23) : syllable (eBit w) op f = w := by
  subst ho hf
  apply BitVec.eq_of_toNat_eq
  have he : (eBit w).toNat = w.toNat / 2 ^ 31 := by
    have := w.isLt
    have h : w.toNat / 2 ^ 31 = 0 ∨ w.toNat / 2 ^ 31 = 1 := by omega
    rw [eBit, bits]
    rcases h with h | h <;> rw [h] <;> rfl
  have hlt : bits w 0 23 < 2 ^ 23 ∧ opcode w < 2 ^ 8 := by unfold bits opcode bits; omega
  rw [toNat_syllable hlt.2 hlt.1, he]
  unfold opcode bits
  omega


/-- The bits of a place that is cut in two. -/
theorem bits_add (w : Word) (lo n k : Nat) : bits w lo (n + k) = bits w (lo + n) k * 2 ^ n + bits w lo n := by
  unfold bits
  rw [pow_add, pow_add, ← Nat.div_div_eq_div_mul, Nat.mod_mul]
  ring

theorem bits_lt (w : Word) (lo n : Nat) : bits w lo n < 2 ^ n := Nat.mod_lt _ (by positivity)

/-- Places that are 0 together. -/
theorem bits_add_eq_zero {w : Word} {lo n k : Nat} (h : bits w lo (n + k) = 0) :
    bits w (lo + n) k = 0 ∧ bits w lo n = 0 := by
  rw [bits_add] at h
  obtain ⟨hu, hl⟩ := Nat.add_eq_zero_iff.1 h
  exact ⟨(Nat.mul_eq_zero.1 hu).resolve_right (by positivity), hl⟩

@[simp] theorem toNat_field (w : Word) (lo n : Nat) : (field w lo n).toNat = bits w lo n := by
  rw [field, BitVec.toNat_ofNat, Nat.mod_eq_of_lt (bits_lt w lo n)]

end fields

/-! ### The formats (R62): the places of a word's fields -/

/-- The fields of a word in format RRR. -/
theorem fmtRrr_eq (w : Word) {d a b x : Nat} (hd : d = bits w 17 6) (ha : a = bits w 11 6) (hb : b = bits w 5 6)
    (hx : x = bits w 0 5) :
    fmtRrr d a b x = bits w 0 23 := by
  subst hd ha hb hx
  rw [fmtRrr, show bits w 0 23 = _ from bits_add w 0 17 6, show bits w 0 17 = _ from bits_add w 0 11 6,
      show bits w 0 11 = _ from bits_add w 0 5 6]
  ring

/-- The fields of a word in format RRI. -/
theorem fmtRri_eq (w : Word) {d a i : Nat} (hd : d = bits w 17 6) (ha : a = bits w 11 6) (hi : i = bits w 0 11) :
    fmtRri d a i = bits w 0 23 := by
  subst hd ha hi
  rw [fmtRri, show bits w 0 23 = _ from bits_add w 0 17 6, show bits w 0 17 = _ from bits_add w 0 11 6]
  ring

/-- The fields of a word in format RI. -/
theorem fmtRi_eq (w : Word) {d i : Nat} (hd : d = bits w 17 6) (hi : i = bits w 0 17) :
    fmtRi d i = bits w 0 23 := by
  subst hd hi
  rw [fmtRi, show bits w 0 23 = _ from bits_add w 0 17 6]

theorem fmtRi_whole (w : Word) : fmtRi 0 (field w 0 23).toNat = bits w 0 23 := by
  rw [fmtRi, Nat.zero_mul, Nat.zero_add, toNat_field]

/-- The fields of a word in format MS. -/
theorem fmtMs_eq (w : Word) {d h a i : Nat} (hd : d = bits w 17 6) (hh : h = bits w 13 4) (ha : a = bits w 7 6)
    (hi : i = bits w 0 7) :
    fmtMs d h a i = bits w 0 23 := by
  subst hd hh ha hi
  rw [fmtMs, show bits w 0 23 = _ from bits_add w 0 17 6, show bits w 0 17 = _ from bits_add w 0 13 4,
      show bits w 0 13 = _ from bits_add w 0 7 6]
  ring

/-- The fields of a word in format MV. -/
theorem fmtMv_eq (w : Word) {d h a t i : Nat} (hd : d = bits w 17 6) (hh : h = bits w 13 4) (ha : a = bits w 7 6)
    (ht : t = bits w 4 3) (hi : i = bits w 0 4) :
    fmtMv d h a t i = bits w 0 23 := by
  subst hd hh ha ht hi
  rw [fmtMv, show bits w 0 23 = _ from bits_add w 0 17 6, show bits w 0 17 = _ from bits_add w 0 13 4,
      show bits w 0 13 = _ from bits_add w 0 7 6, show bits w 0 7 = _ from bits_add w 0 4 3]
  ring

/-- The fields of a word in format AT. -/
theorem fmtAt_eq (w : Word) {d h a b : Nat} (hd : d = bits w 17 6) (hh : h = bits w 13 4) (ha : a = bits w 7 6)
    (hb : b = bits w 1 6) (free : bits w 0 1 = 0) :
    fmtAt d h a b = bits w 0 23 := by
  subst hd hh ha hb
  rw [fmtAt, show bits w 0 23 = _ from bits_add w 0 17 6, show bits w 0 17 = _ from bits_add w 0 13 4,
      show bits w 0 13 = _ from bits_add w 0 7 6, show bits w 0 7 = _ from bits_add w 0 1 6, free]
  ring

/-- The fields of a word in format VV. -/
theorem fmtVv_eq (w : Word) {d a b q m : Nat} (hd : d = bits w 17 6) (ha : a = bits w 11 6) (hb : b = bits w 5 6)
    (hq : q = bits w 2 3) (hm : m = bits w 0 2) :
    fmtVv d a b q m = bits w 0 23 := by
  subst hd ha hb hq hm
  rw [fmtVv, show bits w 0 23 = _ from bits_add w 0 17 6, show bits w 0 17 = _ from bits_add w 0 11 6,
      show bits w 0 11 = _ from bits_add w 0 5 6, show bits w 0 5 = _ from bits_add w 0 2 3]
  ring

/-- The fields of a word in format EN. -/
theorem fmtEn_eq (w : Word) {a b s t : Nat} (ha : a = bits w 17 6) (hb : b = bits w 11 6) (hs : s = bits w 6 5)
    (ht : t = bits w 0 6) :
    fmtEn a b s t = bits w 0 23 := by
  subst ha hb hs ht
  rw [fmtEn, show bits w 0 23 = _ from bits_add w 0 17 6, show bits w 0 17 = _ from bits_add w 0 11 6,
      show bits w 0 11 = _ from bits_add w 0 6 5]
  ring

/-- The fields of a word in format EN with a relaxed or direction bit. -/
theorem fmtEnh_eq (w : Word) {a b r h t : Nat} (ha : a = bits w 17 6) (hb : b = bits w 11 6) (hr : r = bits w 10 1)
    (hh : h = bits w 6 4) (ht : t = bits w 0 6) :
    fmtEnh a b r h t = bits w 0 23 := by
  subst ha hb hr hh ht
  rw [fmtEnh, show bits w 0 23 = _ from bits_add w 0 17 6, show bits w 0 17 = _ from bits_add w 0 11 6,
      show bits w 0 11 = _ from bits_add w 0 10 1, show bits w 0 10 = _ from bits_add w 0 6 4]
  ring

/-- The fields of a word in format RRI with a descriptor set and field number. -/
theorem fmtRrf_eq (w : Word) {d a f n : Nat} (hd : d = bits w 17 6) (ha : a = bits w 11 6) (hf : f = bits w 5 5)
    (hn : n = bits w 0 5) (free : bits w 10 1 = 0) :
    fmtRrf d a f n = bits w 0 23 := by
  subst hd ha hf hn
  rw [fmtRrf, show bits w 0 23 = _ from bits_add w 0 17 6, show bits w 0 17 = _ from bits_add w 0 11 6,
      show bits w 0 11 = _ from bits_add w 0 10 1, show bits w 0 10 = _ from bits_add w 0 5 5, free]
  ring

/-- A word stands for a syllable that is encoded as it. -/
def Instr.Stands (w : Word) (i : Instr) : Prop := i.isSyllable = true ∧ encode i = w

/-- A row with its opcode: the other places hold the operands, or their fixed values. -/
theorem row_stands {w : Word} {op f : Nat} {i : Instr} (ho : opcode w = op)
    (hc : encode i = syllable (eBit w) op f) (hs : i.isSyllable = true)
    (hf : f = bits w 0 23) : i.Stands w :=
  ⟨hs, hc.trans (syllable_eq ho hf)⟩

theorem reserved_stands {w : Word} : (Instr.reservedEncoding w).Stands w := ⟨rfl, rfl⟩

/-- The arm of an opcode, and the arms after it. -/
theorem stands_of_arms {w : Word} {x n : Nat} {i j : Instr} (hi : x = n → i.Stands w) (hj : j.Stands w) :
    (dite (x = n) (Eq.ndrec_symm (motive := fun _ => Instr) i) fun _ => j).Stands w := by
  split_ifs with h
  · subst h
    exact hi rfl
  · exact hj

/-- A row with fixed values. -/
theorem stands_of_fixed {w : Word} {c : Prop} [Decidable c] {i j : Instr} (hi : c → i.Stands w) (hj : j.Stands w) :
    (if c then i else j).Stands w := by
  split_ifs with h
  · exact hi h
  · exact hj

/-! ### The word of what a word decodes to -/

/-- A table of rows, one after the other. -/
theorem forall_lt_succ {Q : Nat → Prop} {n : Nat} (h : ∀ k < n, Q k) (hn : Q n) : ∀ k < n + 1, Q k := fun k hk =>
  (Nat.lt_succ_iff_lt_or_eq.1 hk).elim (h k) fun e => e ▸ hn

section tables

variable (w : Word)

/-- The fields that lie in one of the low places that rows fix at 0. -/
theorem bits_eq_zero_of_low11 (h : bits w 0 11 = 0) :
    (bits w 5 6 = 0 ∧ bits w 0 5 = 0) ∧ bits w 6 5 = 0 ∧ bits w 0 6 = 0 :=
  ⟨bits_add_eq_zero (lo := 0) (n := 5) (k := 6) h, bits_add_eq_zero (lo := 0) (n := 6) (k := 5) h⟩

theorem bits_eq_zero_of_low17 (h : bits w 0 17 = 0) :
    bits w 11 6 = 0 ∧ (bits w 5 6 = 0 ∧ bits w 0 5 = 0) ∧ bits w 6 5 = 0 ∧ bits w 0 6 = 0 :=
  have z := bits_add_eq_zero (lo := 0) (n := 11) (k := 6) h
  ⟨z.1, bits_eq_zero_of_low11 w z.2⟩

theorem bits_eq_zero_of_low5 (h : bits w 0 5 = 0) : bits w 2 3 = 0 ∧ bits w 0 2 = 0 :=
  bits_add_eq_zero (lo := 0) (n := 2) (k := 3) h

/-- A place whose upper part is 0 holds what its lower part holds. -/
theorem bits_eq_of_upper {n k lo : Nat} (h : bits w (lo + n) k = 0) : bits w lo (n + k) = bits w lo n := by
  rw [bits_add, h, Nat.zero_mul, Nat.zero_add]

theorem decodeS_stands (hhi : opcode w < 64) : (decodeS w).Stands w := by
  have z11 := bits_eq_zero_of_low11 w
  have z17 := bits_eq_zero_of_low17 w
  have free : bits w 0 0 = 0 := Nat.mod_one _
  unfold decodeS
  generalize hn : opcode w = k at *
  revert k
  suffices h : ∀ k < 64, opcode w = k → Instr.Stands w _ from fun k ho hk => h k hk ho
  iterate 64 refine forall_lt_succ ?_ fun ho => ?_
  exact fun k hk => absurd hk k.not_lt_zero
  any_goals exact reserved_stands
  all_goals repeat' refine stands_of_fixed (fun hz => ?_) ?_
  any_goals with_reducible exact reserved_stands
  all_goals refine row_stands ho rfl rfl ?_
  any_goals with_reducible refine fmtRrr_eq w ?_ ?_ ?_ ?_
  any_goals with_reducible refine fmtRri_eq w ?_ ?_ ?_
  any_goals with_reducible refine fmtRi_eq w ?_ ?_
  any_goals with_reducible exact toNat_field ..
  any_goals (apply Eq.symm; assumption)
  all_goals simp [*]

theorem decodeM_stands (hlo : 64 ≤ opcode w) (hhi : opcode w < 96) : (decodeM w).Stands w := by
  have z11 := bits_eq_zero_of_low11 w
  have z17 := bits_eq_zero_of_low17 w
  have free : bits w 0 0 = 0 := Nat.mod_one _
  have fence : bits w 5 18 = 0 → bits w 0 23 = bits w 3 2 * 2 ^ 3 + bits w 0 3 := fun h =>
    (bits_eq_of_upper w (n := 5) (k := 18) (lo := 0) h).trans (bits_add w 0 3 2)
  obtain ⟨k, hn⟩ := Nat.exists_eq_add_of_le hlo
  have hk : k < 32 := by omega
  unfold decodeM
  rw [hn]
  revert k
  suffices h : ∀ k < 32, opcode w = 64 + k → Instr.Stands w _ from fun k ho hk => h k hk ho
  iterate 32 refine forall_lt_succ ?_ fun ho => ?_
  exact fun k hk => absurd hk k.not_lt_zero
  any_goals exact reserved_stands
  all_goals repeat' refine stands_of_fixed (fun hz => ?_) ?_
  any_goals with_reducible exact reserved_stands
  all_goals refine row_stands ho rfl rfl ?_
  any_goals with_reducible refine fmtMs_eq w ?_ ?_ ?_ ?_
  any_goals with_reducible refine fmtMv_eq w ?_ ?_ ?_ ?_ ?_
  any_goals with_reducible refine fmtAt_eq w ?_ ?_ ?_ ?_ ?_
  any_goals with_reducible refine fmtRrr_eq w ?_ ?_ ?_ ?_
  any_goals with_reducible exact toNat_field ..
  any_goals (apply Eq.symm; assumption)
  all_goals simp [*]

theorem decodeC_stands (hlo : 96 ≤ opcode w) (hhi : opcode w < 128) : (decodeC w).Stands w := by
  have z11 := bits_eq_zero_of_low11 w
  have free : bits w 0 0 = 0 := Nat.mod_one _
  have queue : bits w 10 1 = 0 → bits w 6 5 = bits w 6 4 := bits_eq_of_upper w (n := 4) (k := 1)
  obtain ⟨k, hn⟩ := Nat.exists_eq_add_of_le hlo
  have hk : k < 32 := by omega
  unfold decodeC
  rw [hn]
  revert k
  suffices h : ∀ k < 32, opcode w = 96 + k → Instr.Stands w _ from fun k ho hk => h k hk ho
  iterate 32 refine forall_lt_succ ?_ fun ho => ?_
  exact fun k hk => absurd hk k.not_lt_zero
  any_goals exact reserved_stands
  all_goals repeat' refine stands_of_fixed (fun hz => ?_) ?_
  any_goals with_reducible exact reserved_stands
  all_goals refine row_stands ho rfl rfl ?_
  any_goals with_reducible exact fmtRi_whole w
  any_goals with_reducible refine fmtRi_eq w ?_ ?_
  any_goals with_reducible refine fmtRri_eq w ?_ ?_ ?_
  any_goals with_reducible refine fmtEn_eq w ?_ ?_ ?_ ?_
  any_goals with_reducible refine fmtRrr_eq w ?_ ?_ ?_ ?_
  any_goals with_reducible exact toNat_field ..
  any_goals (apply Eq.symm; assumption)
  all_goals simp [*]

theorem decodeV_stands (hlo : 128 ≤ opcode w) (hhi : opcode w < 192) : (decodeV w).Stands w := by
  have z5 := bits_eq_zero_of_low5 w
  have z11 : bits w 0 11 = 0 → bits w 5 6 = 0 ∧ bits w 2 3 = 0 ∧ bits w 0 2 = 0 := fun h =>
    have z := bits_add_eq_zero (lo := 0) (n := 5) (k := 6) h
    ⟨z.1, z5 z.2⟩
  have free : bits w 0 0 = 0 := Nat.mod_one _
  have part4 : bits w 7 4 = 0 → bits w 5 6 = bits w 5 2 := bits_eq_of_upper w (n := 2) (k := 4)
  have part5 : bits w 6 5 = 0 → bits w 5 6 = bits w 5 1 := bits_eq_of_upper w (n := 1) (k := 5)
  have tag : bits w 8 9 = 0 → bits w 11 6 = 0 ∧ bits w 5 6 = bits w 5 3 := fun h =>
    have z := bits_add_eq_zero (lo := 8) (n := 3) (k := 6) h
    ⟨z.1, bits_eq_of_upper w (n := 3) (k := 3) z.2⟩
  have mid : bits w 5 12 = 0 → bits w 11 6 = 0 ∧ bits w 5 6 = 0 := bits_add_eq_zero (lo := 5) (n := 6) (k := 6)
  obtain ⟨k, hn⟩ := Nat.exists_eq_add_of_le hlo
  have hk : k < 64 := by omega
  unfold decodeV
  rw [hn]
  revert k
  suffices h : ∀ k < 64, opcode w = 128 + k → Instr.Stands w _ from fun k ho hk => h k hk ho
  iterate 64 refine forall_lt_succ ?_ fun ho => ?_
  exact fun k hk => absurd hk k.not_lt_zero
  any_goals exact reserved_stands
  all_goals repeat' refine stands_of_fixed (fun hz => ?_) ?_
  any_goals with_reducible exact reserved_stands
  all_goals refine row_stands ho rfl rfl ?_
  any_goals with_reducible refine fmtVv_eq w ?_ ?_ ?_ ?_ ?_
  any_goals with_reducible exact toNat_field ..
  any_goals (apply Eq.symm; assumption)
  all_goals simp [*]

theorem decodeE_stands (hlo : 192 ≤ opcode w) (hhi : opcode w < 256) : (decodeE w).Stands w := by
  have z17 := bits_eq_zero_of_low17 w
  have free : bits w 0 0 = 0 := Nat.mod_one _
  have set : bits w 10 7 = 0 → bits w 11 6 = 0 ∧ bits w 10 1 = 0 := bits_add_eq_zero (lo := 10) (n := 1) (k := 6)
  have token : bits w 6 11 = 0 → bits w 11 6 = 0 ∧ bits w 6 5 = 0 := bits_add_eq_zero (lo := 6) (n := 5) (k := 6)
  have high : bits w 11 12 = 0 → bits w 17 6 = 0 ∧ bits w 11 6 = 0 := bits_add_eq_zero (lo := 11) (n := 6) (k := 6)
  have only : bits w 6 17 = 0 → bits w 17 6 = 0 ∧ bits w 0 17 = bits w 0 6 := fun h =>
    have z := bits_add_eq_zero (lo := 6) (n := 11) (k := 6) h
    ⟨z.1, bits_eq_of_upper w (n := 6) (k := 11) z.2⟩
  obtain ⟨k, hn⟩ := Nat.exists_eq_add_of_le hlo
  have hk : k < 64 := by omega
  unfold decodeE
  rw [hn]
  revert k
  suffices h : ∀ k < 64, opcode w = 192 + k → Instr.Stands w _ from fun k ho hk => h k hk ho
  iterate 64 refine forall_lt_succ ?_ fun ho => ?_
  exact fun k hk => absurd hk k.not_lt_zero
  any_goals exact reserved_stands
  all_goals repeat' refine stands_of_fixed (fun hz => ?_) ?_
  any_goals with_reducible exact reserved_stands
  all_goals refine row_stands ho rfl rfl ?_
  any_goals with_reducible refine fmtEn_eq w ?_ ?_ ?_ ?_
  any_goals with_reducible refine fmtEnh_eq w ?_ ?_ ?_ ?_ ?_
  any_goals with_reducible refine fmtRrf_eq w ?_ ?_ ?_ ?_ ?_
  any_goals with_reducible refine fmtRi_eq w ?_ ?_
  any_goals with_reducible exact toNat_field ..
  any_goals (apply Eq.symm; assumption)
  all_goals simp [*]

end tables

/-- The table's rows together (R74 to R79). -/
theorem decode_stands (w : Word) : (decode w).Stands w := by
  have hop : opcode w < 256 := Nat.mod_lt _ (by decide)
  unfold decode
  split_ifs with hS hM hC hV
  · exact decodeS_stands w hS
  · exact decodeM_stands w (not_lt.1 hS) hM
  · exact decodeC_stands w (not_lt.1 hM) hC
  · exact decodeV_stands w (not_lt.1 hC) hV
  · exact decodeE_stands w (not_lt.1 hV) hop

theorem decode_isSyllable (w : Word) : (decode w).isSyllable = true := (decode_stands w).1

/-- Settles O3: row after row, a word that a row takes is that row's. -/
theorem encodeOfDecode : Obligations.EncodeOfDecode := by
  unfold Obligations.EncodeOfDecode
  exact decode_stands

end Sys2Proof
end

section
/-! Steps: what every syllable does with the open bundle, what a step without an open bundle does, and the state after reset
(R61, R64 to R68, R415). -/

namespace Sys2Proof.Machine

-- One proof after the other, which keeps the memory of a build low.
set_option Elab.async false

/-! ### Every syllable (R61) -/

/-- A syllable of the open bundle always answers. -/
theorem exec_next_of_cur {i : Instr} (h : i.isSyllable = true) {s : State} {b : Bundle} (hc : s.cur = some b) :
    ∃ t, exec i s = .next t := by
  obtain ⟨f, hf⟩ := exec_eq_runSyl h s
  exact ⟨_, by rw [hf, runSyl, hc]⟩

/-! ### What a fetch leaves (R382) -/

theorem findFlip_cur (s : State) (m u k recid source : Nat) (x : Flip) :
    (s.findFlip m u k recid source x).cur = s.cur := by
  simp only [State.findFlip]
  split_ifs <;> rfl

theorem found_cur (s : State) (m u off n k recid source : Nat) :
    (s.found m u off n k recid source).cur = s.cur := by
  unfold State.found
  generalize List.filter _ _ = l
  induction l generalizing s with
  | nil => rfl
  | cons x r ih => rw [List.foldl_cons, ih, findFlip_cur]

theorem found_of_flips_nil {s : State} {m u : Nat} (h : (s.cell m u).flips = []) (off n k recid source : Nat) :
    s.found m u off n k recid source = s := by
  rw [State.found, h]
  rfl

/-! ### A step without an open bundle -/

/-- Such a step of a chain that holds a module always answers. -/
theorem agendaStep_next {s : State} (h : s.mods ≠ []) : ∃ t, agendaStep s = .next t := by
  have he : s.mods.isEmpty = false := by simpa using h
  simp only [agendaStep, he, Bool.false_eq_true, if_false]
  split
  · split <;> exact ⟨_, rfl⟩
  · split
    · exact ⟨_, rfl⟩
    · exact ⟨_, rfl⟩
    · exact ⟨_, rfl⟩
    · next hp => exact ⟨_, (if_pos hp : execPacingBucketRefill s = _)⟩
    · exact ⟨_, rfl⟩

/-! ### Two moves of one bundle (R68) -/

section exchange

variable {s : State} {m u k : Nat} {a b : BitVec 6}

/-- The first syllable of a bundle that another follows. -/
theorem runSyl_joins {i : Instr} {f : View → Syl} (ho : s.Opened m u k) (hpc : (s.strand m u k).pc.toNat < 32767) :
    runSyl s i false f = .next { s with cur := some { s.nextBundle m u k with syls := [f (s.sees m u k i)] } } := by
  have hp : ¬ (32768 ≤ (s.strand m u k).pc.toNat + 1) := by omega
  simp [runSyl, ho.cur, pushSyl, State.nextBundle, State.sees, hp]

/-- What a syllable evaluates to does not look at the syllables before it. -/
theorem runSyl_closes_after {i : Instr} {f : View → Syl} {x : Syl} {t : State}
    (ht : t = { s with cur := some { s.nextBundle m u k with syls := [x] } }) :
    runSyl t i true f = .next (closeBundle t { s.nextBundle m u k with
      syls := [x, f (View.of t { s.nextBundle m u k with syls := [x] } i)] }) := by
  subst ht
  simp [runSyl, pushSyl]

/-- A strand ready for a syllable is ready for one that names fewer registers. -/
theorem State.Ready.sub {reads names reads' names' : List (BitVec 6)} (h : s.Ready m u k reads names)
    (hr : ∀ r ∈ reads', r ∈ reads) (hn : ∀ r ∈ names', r ∈ names) : s.Ready m u k reads' names' where
  opened := h.opened
  declared := h.declared.mono fun r hm => List.mem_append.2 ((List.mem_append.1 hm).imp (hn r) (hr r))
  settled :=
    { pend := fun p hp => ⟨fun hm => (h.settled.pend p hp).1 (List.map_subset _ hr hm),
        fun hm => (h.settled.pend p hp).2 (List.map_subset _ hn hm)⟩
      notes := fun d hd hm => h.settled.notes d hd (List.map_subset _ hr hm) }
  room := h.room

/-- Two class S syllables with different scalar destinations, one result each, which may issue together (R66 to R71). -/
theorem closeBundle_two {t : State} {x y : Syl} {p q : Landing} (hk : k < 4)
    (hc : (x.cls = .scalar ∧ y.cls = .scalar) ∧ x.specials = [] ∧ y.specials = [])
    (hx : { x with effects := [] }.Issues (t.strand m u k)) (hy : { y with effects := [] }.Issues (t.strand m u k))
    (hd : ∀ d ∈ y.dests, d ∉ x.dests) (hl : x.loop = .none ∧ y.loop = .none)
    (ex : x.effects = [.land p]) (ey : y.effects = [.land q]) (room : (t.strand m u k).landing.length + 2 ≤ 32) :
    (closeBundle t ⟨m, u, k, (t.strand m u k).pc, [x, y]⟩).strand m u k =
      { t.strand m u k with
        landing := (t.strand m u k).landing ++ [p, q]
        pc := (t.strand m u k).pc + 2
        beat := (t.strand m u k).beat + 1
        waiting := .none } := by
  obtain ⟨⟨cx, cy⟩, sx, sy⟩ := hc
  have hstatic : staticTrap [x, y] = none := by
    have hcl : clashes [x] y = false := by
      simp [clashes, classCount, cx, cy, sy]
      exact fun d n hm _ => hd (d, n) hm
    have hsx := hx.static
    have hsy := hy.static
    dsimp only at hsx hsy
    simp [staticTrap, firstClash, clashes_nil, hcl, numbered, List.range_succ, hsx, hsy, pickTrap]
  have hpend : pendingStall (t.strand m u k) [x, y] = false := by
    have h1 := pendingStall_single hx.pend
    have h2 := pendingStall_single hy.pend
    simp only [pendingStall, List.any_cons, List.any_nil, Bool.or_false] at h1 h2 ⊢
    rw [h1, h2]; rfl
  have hloop : loopCaseOf [x, y] = .none := by simp [loopCaseOf, hl.1, hl.2]
  have himage : ∀ b, x.checkImage t b = x ∧ y.checkImage t b = y := fun _ =>
    ⟨checkImage_none hx.image, checkImage_none hy.image⟩
  have hdyn : dynTrap (t.strand m u k) [x, y] = none := by
    have nx : noteTraps (t.strand m u k) x = [] :=
        by simp only [noteTraps, filter_delivered_nil hx.notes, List.flatMap_nil]
    have ny : noteTraps (t.strand m u k) y = [] :=
        by simp only [noteTraps, filter_delivered_nil hy.notes, List.flatMap_nil]
    have dx := hx.dyn
    have dy := hy.dyn
    dsimp only at dx dy
    simp [dynTrap, numbered, List.range_succ, nx, ny, dx, dy, oneLate, pickTrap]
  have hfree : x.blocked = false ∧ y.blocked = false := ⟨hx.free, hy.free⟩
  have hroom : ¬ 32 < (t.strand m u k).landing.length + landCount [x, y] := by
    simp only [landCount, List.flatMap_cons, ex, ey, List.flatMap_nil]
    exact Nat.not_lt.2 room
  simp only [closeBundle, hstatic, hpend, hloop, List.map_cons, List.map_nil, himage, hdyn, List.any_cons, List.any_nil,
    hfree, if_neg hroom, reduceCtorEq, Bool.or_self, Bool.false_eq_true, or_self, if_false]
  have hread : ∀ d ∈ (t.strand m u k).delivered, d.reg ∉ x.reads ++ (y.reads ++ []) := fun d h => by
    simpa using ⟨hx.notes d h, hy.notes d h⟩
  have hdata : dataEffects [x, y] = [.land p, .land q] := by
    simp [dataEffects, cx, cy, ex, ey, Effect.lands, List.filter_cons]
  have hctl : controlEffects [x, y] = [] := by simp [controlEffects, cx, cy]
  simp only [commitBundle, List.flatMap_cons, List.flatMap_nil, notesOf_none hread, List.isEmpty_nil, hdata, hctl,
    List.foldl_cons, List.foldl_nil, applyEffect, State.strand_onStrand_same _ _ _ _ _ hk,
    List.append_assoc, List.cons_append, List.nil_append, if_true]
  simp only [State.strand, State.cell_onCell_same, Cell.endWait_strand]
  have e : ({ t with cur := none, last := .issued, seq := t.seq + 1 } : State).cell m u = t.cell m u := rfl
  have f : ((t.cell m u).strand k).delivered.filter (fun d => !(x.reads ++ (y.reads ++ [])).contains d.reg) =
      ((t.cell m u).strand k).delivered := filter_delivered_same hread
  simp only [e, List.append_nil] at f ⊢
  rw [f]
  rfl

end exchange

/-! ### The statements -/

/-- Settles O1: each word's fields are read off. -/
theorem decodesWords : Obligations.DecodesWords := by
  unfold Obligations.DecodesWords
  decide

/-- Settles O4: with a bundle open by what `fetchSyl` reads, else by the agenda. -/
theorem stepRunsDecoded : Obligations.StepRunsDecoded := by
  unfold Obligations.StepRunsDecoded
  refine ⟨fun s b i hc hf hi => ?_, fun s t i f r hc hm ht he => ?_, fun s n b hc hm ht hp => ?_⟩
  · rw [step, hc]
    simp only [fetched, found_of_flips_nil hf]
    exact congrArg (exec · s) hi
  · have hn : s.mods.isEmpty = false := by simpa using hm
    rw [hc] at he
    simp only [step, hc, agendaStep, hn, ht, he, Bool.false_eq_true, if_false]
  · have hn : s.mods.isEmpty = false := by simpa using hm
    simp [step, hc, agendaStep, hn, ht, hp]

/-- Settles O5: an open bundle's word is a syllable, and without one the agenda answers. -/
theorem stepAlwaysAnswers : Obligations.StepAlwaysAnswers := by
  unfold Obligations.StepAlwaysAnswers
  intro s hm
  rw [step]
  cases hc : s.cur with
  | none => exact agendaStep_next hm
  | some b => exact exec_next_of_cur (decode_isSyllable _) (b := b) (by rw [fetched, found_cur, hc])

/-- Every module of the reset machine, listed or not, is a reset module. -/
theorem mod_reset (m : Nat) : State.reset.mod m = Module.reset := by
  simp [State.mod, State.reset, tget]

theorem cell_reset (m u : Nat) : State.reset.cell m u = Cell.reset (isSpire u) := by
  rw [State.cell, mod_reset]
  rfl

theorem strand_reset {u k : Nat} (m : Nat) (hu : u < 1024) (hk : k < 4) : State.reset.strand m u k = Strand.reset := by
  have h : isSpire u = false := by simp [isSpire]; omega
  rw [State.strand, cell_reset, Cell.strand, h]
  interval_cases k <;> rfl

/-- Settles O7: no memory lists a byte after reset. -/
theorem resetCanonical : Obligations.ResetCanonical := by
  unfold Obligations.ResetCanonical
  exact ⟨fun m u => by rw [cell_reset]; rfl, fun m => by rw [mod_reset]; rfl⟩

/-- Settles O8: every field is that of the reset machine, cell or strand. -/
theorem resetValues : Obligations.ResetValues := by
  unfold Obligations.ResetValues
  refine ⟨rfl, rfl, rfl, rfl, rfl, fun u hu => ⟨?_, ?_, ?_, fun k hk => ?_⟩⟩
  · rw [cell_reset]; rfl
  · rw [cell_reset]; rfl
  · rw [cell_reset]; rfl
  · rw [strand_reset 0 hu hk]
    exact ⟨rfl, rfl, rfl, rfl, rfl, rfl⟩

end Sys2Proof.Machine
end

section
/-! Traps: of several failed checks the one of lowest rank is raised (R72), the traps of privilege and of operands, and trap,
ebrk and rtt (R157, R166 to R172). -/

namespace Sys2Proof.Machine

-- One proof after the other, which keeps the memory of a build low.
set_option Elab.async false

/-! ### The lowest rank wins (R72) -/

/-- Of the checks `l`, the trap `t` is raised: those before it rank above it, those after it no lower. -/
def Leads (t : TrapReq) (l : List TrapReq) : Prop :=
  ∃ l₁ l₂, l = l₁ ++ t :: l₂ ∧ (∀ x ∈ l₁, t.rank < x.rank) ∧ ∀ x ∈ l₂, t.rank ≤ x.rank

section leads

variable {t : TrapReq} {l r : List TrapReq}

theorem leads_singleton : Leads t [t] := ⟨[], [], rfl, fun _ h => (List.not_mem_nil h).elim, fun _ h => (List.not_mem_nil h).elim⟩

theorem Leads.append (h : Leads t l) (hr : ∀ x ∈ r, t.rank ≤ x.rank) : Leads t (l ++ r) := by
  obtain ⟨l₁, l₂, rfl, h1, h2⟩ := h
  refine ⟨l₁, l₂ ++ r, ?_, h1, fun x hx => (List.mem_append.1 hx).elim (h2 x) (hr x)⟩
  rw [List.append_assoc, List.cons_append]

theorem Leads.prepend (h : Leads t r) (hl : ∀ x ∈ l, t.rank < x.rank) : Leads t (l ++ r) := by
  obtain ⟨l₁, l₂, rfl, h1, h2⟩ := h
  exact ⟨l ++ l₁, l₂, (List.append_assoc ..).symm, fun x hx => (List.mem_append.1 hx).elim (hl x) (h1 x), h2⟩

theorem pickTrap_mem {l : List (Nat × TrapReq)} {x : Nat × TrapReq} (h : pickTrap l = some x) : x ∈ l := by
  induction l generalizing x with
  | nil => cases h
  | cons t r ih =>
    rw [pickTrap] at h
    cases hr : pickTrap r with
    | none => rw [hr] at h; exact Option.some.inj h ▸ List.mem_cons_self
    | some y =>
      rw [hr] at h
      rcases ite_eq_or_eq (y.2.rank < t.2.rank) (some y) (some t) with e | e
      · exact Option.some.inj (e.symm.trans h) ▸ List.mem_cons_of_mem _ (ih hr)
      · exact Option.some.inj (e.symm.trans h) ▸ List.mem_cons_self

/-- The trap that leads the checks of a syllable is the one picked. -/
theorem Leads.pickTrap {p : Nat} (h : Leads t l) : pickTrap (l.map fun x => (p, x)) = some (p, t) := by
  obtain ⟨l₁, l₂, rfl, h1, h2⟩ := h
  induction l₁ with
  | nil =>
    rw [List.nil_append, List.map_cons, Machine.pickTrap]
    cases hr : Machine.pickTrap (l₂.map fun x => (p, x)) with
    | none => rfl
    | some x =>
      obtain ⟨y, hy, rfl⟩ := List.mem_map.1 (pickTrap_mem hr)
      exact if_neg (Nat.not_lt.2 (h2 y hy))
  | cons y l ih =>
    rw [List.cons_append, List.map_cons, Machine.pickTrap, ih fun x hx => h1 x (List.mem_cons_of_mem _ hx)]
    exact if_pos (h1 y List.mem_cons_self)

end leads

/-! ### The trap of a bundle of one syllable -/

section single

variable {s : State} {m u k : Nat} {i : Instr} {f : View → Syl} {t : TrapReq}

theorem staticTrap_leads {y : Syl} (h : Leads t y.static) : staticTrap [y] = some (0, t) := by
  have hp := h.pickTrap (p := 0)
  simp [staticTrap, firstClash, clashes_nil, numbered, List.range_succ, hp]

theorem closeBundle_takes_static {y : Syl} (h : Leads t y.static) :
    closeBundle s { s.nextBundle m u k with syls := [y] } = takeTrap s { s.nextBundle m u k with syls := [y] } 0 t := by
  rw [closeBundle, staticTrap_leads h]

/-- Of the failed checks of a syllable that need no register value, the leading one is the trap of its bundle. -/
theorem traps_of_leads (ho : s.Opened m u k) (he : exec i s = runSyl s i true f)
    (hf : Leads t (f (s.sees m u k i)).static) (htl : (s.strand m u k).tl ≠ 2) (hc : t.cause ≠ causeXlatMiss)
    (hs : t.src = 0) : s.Traps m u k i t.cause t.val := by
  rw [State.Traps, he, runSyl_closes ho, closeBundle_takes_static hf]
  exact congrArg _ (takeTrap_eq_trapped rfl rfl rfl rfl htl hc hs)

theorem oneLate_eq_self {l : List TrapReq} (h : ∀ t ∈ l, t.src = 0) : oneLate l = l :=
  List.filter_eq_self.2 fun t ht => by rw [h t ht]; rfl

/-- The same of the checks that need register values, where those before them pass. -/
theorem closeBundle_takes_dyn {y : Syl} (static : y.static = [])
    (pend : ∀ p ∈ (s.strand m u k).pend, p.reg ∉ y.reads ∧ p.reg ∉ y.names)
    (notes : ∀ d ∈ (s.strand m u k).delivered, d.reg ∉ y.reads) (loop : y.loop = .none ∨ y.loop = .start ∨ y.loop = .fin)
    (image : y.image = none) (hf : Leads t y.dyn) (hs : ∀ t ∈ y.dyn, t.src = 0) :
    closeBundle s { s.nextBundle m u k with syls := [y] } = takeTrap s { s.nextBundle m u k with syls := [y] } 0 t := by
  have hstop : loopCaseOf [y] ≠ .stop := by rcases loop with e | e | e <;> simp [loopCaseOf_single, e]
  have himage : ∀ b, y.checkImage s b = y := fun _ => checkImage_none image
  have hnotes : noteTraps (s.strand m u k) y = [] := by
    simp only [noteTraps, filter_delivered_nil notes, List.flatMap_nil]
  have hdyn : dynTrap (s.strand m u k) [y] = some (0, t) := by
    have hp := hf.pickTrap (p := 0)
    simp [dynTrap, numbered, List.range_succ, hnotes, oneLate_eq_self hs, hp]
  simp only [closeBundle, staticTrap_single static, nextBundle_m, nextBundle_u, nextBundle_k, pendingStall_single pend, hstop,
    List.map_cons, List.map_nil, himage, hdyn]
  rfl

theorem traps_of_dynLeads (ho : s.Opened m u k) (he : exec i s = runSyl s i true f)
    (hy : { f (s.sees m u k i) with dyn := [] }.Issues (s.strand m u k)) (hf : Leads t (f (s.sees m u k i)).dyn)
    (hs : ∀ t ∈ (f (s.sees m u k i)).dyn, t.src = 0) (htl : (s.strand m u k).tl ≠ 2) (hc : t.cause ≠ causeXlatMiss) :
    s.Traps m u k i t.cause t.val := by
  rw [State.Traps, he, runSyl_closes ho,
    closeBundle_takes_dyn (y := f (s.sees m u k i)) hy.static hy.pend hy.notes hy.loop hy.image hf hs]
  obtain ⟨l₁, l₂, e, -⟩ := hf
  exact congrArg _ (takeTrap_eq_trapped rfl rfl rfl rfl htl hc (hs t (e ▸ List.mem_append.2 (.inr List.mem_cons_self))))

end single

/-! ### The ranks of the checks of operands (R72) -/

section ranks

variable {v : View} {x : TrapReq}

theorem rank_declChecks {α : Type} {b : Bool} {limit : Nat} {g : α → Nat} {ns : List α}
    (h : x ∈ if b = true then [] else ns.flatMap fun n => declCheck limit (g n)) : x.rank = 5 := by
  cases b with
  | true => cases h
  | false =>
    obtain ⟨n, -, hx⟩ := List.mem_flatMap.1 h
    rw [declCheck] at hx
    by_cases hl : limit < g n
    · rw [if_pos hl] at hx
      rw [List.mem_singleton.1 hx]; rfl
    · rw [if_neg hl] at hx
      cases hx

theorem rank_declS {rs : List (BitVec 6)} (h : x ∈ v.declS rs) : x.rank = 5 := rank_declChecks h
theorem rank_declV {rs : List (BitVec 6)} (h : x ∈ v.declV rs) : x.rank = 5 := rank_declChecks h
theorem rank_declQ {ns : List Nat} (h : x ∈ v.declQ ns) : x.rank = 5 := rank_declChecks h
theorem rank_declH {ns : List Nat} (h : x ∈ v.declH ns) : x.rank = 5 := rank_declChecks h

/-- Of several registers above the declaration, the first leads. -/
theorem leads_declChecks {α : Type} {limit : Nat} {g : α → Nat} {l₁ l₂ : List α} {n : α} (h : ∀ r ∈ l₁, g r ≤ limit)
    (hn : limit < g n) :
    Leads (trapReq causeDecl (BitVec.ofNat 32 (g n))) ((l₁ ++ n :: l₂).flatMap fun r => declCheck limit (g r)) := by
  rw [List.flatMap_append, declChecks_nil h, List.nil_append, List.flatMap_cons, declCheck, if_pos hn]
  exact leads_singleton.append fun x hx => rank_declChecks (b := false) hx ▸ Nat.le_refl 5

theorem checkTag_fails {x : VReg} {num : BitVec 6} {want : BitVec 3} (hw : want ≠ 0) (h : ¬ x.Has want) :
    checkTag x num want = [trapReq causeFmtTag (num.setWidth 32)] :=
  if_pos ⟨hw, not_or.1 h⟩

theorem checkTag_spec {x : VReg} {num : BitVec 6} {want : BitVec 3} :
    ∀ t ∈ checkTag x num want, t.rank = 6 ∧ t.src = 0 := by
  intro t ht
  by_cases h : want ≠ 0 ∧ x.tag ≠ 0 ∧ x.tag ≠ want
  · rw [checkTag, if_pos h] at ht
    rw [List.mem_singleton.1 ht]; exact ⟨rfl, rfl⟩
  · rw [checkTag, if_neg h] at ht; cases ht

theorem mergeCheck_spec {d : BitVec 6} {q : BitVec 3} {w : BitVec 2} {tag : BitVec 3} :
    ∀ t ∈ mergeCheck v d q w tag, t.rank = 6 ∧ t.src = 0 := by
  intro t ht
  by_cases h : q ≠ 0 ∧ w = 0
  · rw [mergeCheck, if_pos h] at ht; exact checkTag_spec t ht
  · rw [mergeCheck, if_neg h] at ht; cases ht

end ranks

/-! ### What a bundle with one command leaves (R70) -/

section commands

variable {s : State} {m u k : Nat} {i : Instr} {f : View → Syl}

theorem committed_eq_left : s.committed m u k 1 = s.left m u k 1 id := by
  simp only [State.committed, State.left, State.onStrand, State.onCell, State.cell_setCell, and_self, if_true,
    State.setCell_setCell]
  rfl

@[simp] theorem cell_left (n : Nat) (g : Cell → Cell) : (s.left m u k n g).cell m u = g (s.wentCell m u k) := by
  simp [State.left]

@[simp] theorem onCell_left (n : Nat) (g h : Cell → Cell) :
    (s.left m u k n g).onCell m u h = s.left m u k n fun c => h (g c) := by
  simp only [State.onCell, cell_left]
  simp only [State.left, State.setCell_setCell]

theorem onStrand_left (n j : Nat) (g : Cell → Cell) (h : Strand → Strand) :
    (s.left m u k n g).onStrand m u j h = s.left m u k n fun c => (g c).onStrand j h := onCell_left ..

@[simp] theorem left_cycle (n : Nat) (g : Cell → Cell) : (s.left m u k n g).cycle = s.cycle := rfl
@[simp] theorem left_seq (n : Nat) (g : Cell → Cell) : (s.left m u k n g).seq = s.seq + n := rfl

theorem strand_wentCell (hk : k < 4) : (s.wentCell m u k).strand k = s.went m u k := by
  simp [State.wentCell, hk]

/-- A last syllable that may issue, alone in its bundle: its effects take place in their order. -/
theorem exec_of_issues (ho : s.Opened m u k) (he : exec i s = runSyl s i true f)
    (h : (f (s.sees m u k i)).Issues (s.strand m u k)) :
    exec i s = .next ((orderedEffects [f (s.sees m u k i)]).foldl (applyEffect m u k ((s.strand m u k).pc + 1))
      (s.left m u k 1 id)) := by
  rw [he, runSyl_commits ho h, commitBundle_single h.notes, committed_eq_left]

/-- The one effect of such a syllable is a command. -/
theorem exec_of_command {x : Cmd} (ho : s.Opened m u k) (he : exec i s = runSyl s i true f)
    (h : (f (s.sees m u k i)).Issues (s.strand m u k)) (hx : (f (s.sees m u k i)).effects = [.cmd x])
    (hc : (f (s.sees m u k i)).cls = .engine ∨ (f (s.sees m u k i)).cls = .control) :
    exec i s = .next (applyCmd (s.left m u k 2 id) m u k x) := by
  rw [exec_of_issues ho he h]
  have ho : orderedEffects [f (s.sees m u k i)] = [.cmd x] := by
    rcases hc with hc | hc
    · rw [orderedEffects_engine hc, hx]; rfl
    · rw [orderedEffects_control hc, hx]; rfl
  rw [ho]
  rfl

end commands

/-! ### Context kill (R175) -/

/-- Two chains with the same open bundle and count of operations, of whose unit memory, strands and record cache agree. -/
structure SameCore (m u : Nat) (s t : State) : Prop where
  cur : t.cur = s.cur
  seq : t.seq = s.seq
  mem : (t.cell m u).mem = (s.cell m u).mem
  strands : (t.cell m u).strands = (s.cell m u).strands
  recs : (t.cell m u).recs = (s.cell m u).recs

section kill

variable {s t : State} {m u k : Nat}

theorem SameCore.refl (s : State) : SameCore m u s s := ⟨rfl, rfl, rfl, rfl, rfl⟩

theorem SameCore.trans {r : State} (h : SameCore m u s t) (g : SameCore m u t r) : SameCore m u s r :=
  ⟨g.cur.trans h.cur, g.seq.trans h.seq, g.mem.trans h.mem, g.strands.trans h.strands, g.recs.trans h.recs⟩

theorem sameCore_onCell {f : Cell → Cell} (hm : ∀ c, (f c).mem = c.mem := by intro; rfl)
    (hs : ∀ c, (f c).strands = c.strands := by intro; rfl) (hr : ∀ c, (f c).recs = c.recs := by intro; rfl) :
    SameCore m u s (s.onCell m u f) where
  cur := rfl
  seq := rfl
  mem := by rw [State.cell_onCell_same, hm]
  strands := by rw [State.cell_onCell_same, hs]
  recs := by rw [State.cell_onCell_same, hr]

theorem sameCore_send {n : Nat} {a : Addr} {vc : Nat} {b : Body} : SameCore m u s (s.send m u n a vc b) where
  cur := rfl
  seq := rfl
  mem := by rw [State.cell_send]
  strands := by rw [State.cell_send]
  recs := by rw [State.cell_send]

theorem sameCore_closeOut (n : Nat) : SameCore m u s (s.closeOut m u n) :=
  sameCore_onCell (fun c => by split <;> rfl) (fun c => by split <;> rfl) fun c => by split <;> rfl

theorem sameCore_deadEnds (s : State) (m u : Nat) (rid : BitVec 16) : SameCore m u s (s.deadEnds m u rid) := by
  refine List.foldlRecOn _ _ (List.foldlRecOn _ _ (.refl s) fun t h n _ => ?_) fun t h n _ => ?_
  · dsimp only
    split
    · exact h.trans ((sameCore_onCell (m := m) (u := u)).trans sameCore_send)
    · exact h
  · dsimp only
    split
    · exact h.trans ((sameCore_closeOut n).trans sameCore_send)
    · exact h

/-- A strand of entry `e` loses everything. -/
def Strand.cleared (st : Strand) (e : Nat) : Strand := if st.mode ≠ .idle ∧ st.entry = e then st.retire .idle else st

theorem Strand.cleared_cleared (st : Strand) (e : Nat) : (st.cleared e).cleared e = st.cleared e := by
  by_cases h : st.mode ≠ .idle ∧ st.entry = e
  · have hc : st.cleared e = st.retire .idle := if_pos h
    rw [hc]
    exact if_neg fun g => g.1 rfl
  · have hc : st.cleared e = st := if_neg h
    rw [hc, hc]

/-- What clearing the strands of an entry does at strand `j`. -/
def Cell.clearStrandAt (e : Nat) (c : Cell) (j : Nat) : Cell :=
  if (c.strand j).mode ≠ .idle ∧ (c.strand j).entry = e then
    { (c.endWait (.strand j)).onStrand j (fun st => st.retire .idle) with
      ctxQueue := c.ctxQueue.filter fun x => x != .save j e && x != .restore j e
      ctxJob := match c.ctxJob with
        | some (.save k' e', t) => if k' = j ∧ e' = e then none else some (.save k' e', t)
        | some (.restore k' e', t) => if k' = j ∧ e' = e then none else some (.restore k' e', t)
        | none => none }
  else c

theorem clearStrands_eq (c : Cell) (e : Nat) : c.clearStrands e = (List.range 4).foldl (Cell.clearStrandAt e) c := rfl

theorem clearStrandAt_spec (c : Cell) (e j : Nat) (hk : k < 4) :
    (c.clearStrandAt e j).mem = c.mem ∧ (c.clearStrandAt e j).recs = c.recs ∧
      (c.clearStrandAt e j).strand k = if k = j then (c.strand k).cleared e else c.strand k := by
  by_cases h : (c.strand j).mode ≠ .idle ∧ (c.strand j).entry = e
  · have hs : (c.clearStrandAt e j).strand k = ((c.endWait (.strand j)).onStrand j fun st => st.retire .idle).strand k := by
      rw [Cell.clearStrandAt, if_pos h]; rfl
    refine ⟨by rw [Cell.clearStrandAt, if_pos h]; rfl, by rw [Cell.clearStrandAt, if_pos h]; rfl, ?_⟩
    rw [hs, Cell.strand_onStrand]
    by_cases hj : k = j
    · subst hj
      rw [if_pos ⟨rfl, hk⟩, if_pos rfl, Strand.cleared, if_pos h]
      rfl
    · rw [if_neg fun g => hj g.1, if_neg hj]
      rfl
  · have hc : c.clearStrandAt e j = c := if_neg h
    refine ⟨by rw [hc], by rw [hc], ?_⟩
    rw [hc]
    by_cases hj : k = j
    · subst hj
      rw [if_pos rfl, Strand.cleared, if_neg h]
    · rw [if_neg hj]

/-- The strands of an entry lose everything; memory and record cache stay. -/
theorem clearStrands_spec (c : Cell) (e : Nat) (hk : k < 4) :
    (c.clearStrands e).mem = c.mem ∧ (c.clearStrands e).recs = c.recs ∧
      (c.clearStrands e).strand k = (c.strand k).cleared e := by
  have main (l : List Nat) : (l.foldl (Cell.clearStrandAt e) c).mem = c.mem ∧
      (l.foldl (Cell.clearStrandAt e) c).recs = c.recs ∧
      (l.foldl (Cell.clearStrandAt e) c).strand k = if k ∈ l then (c.strand k).cleared e else c.strand k := by
    induction l generalizing c with
    | nil => exact ⟨rfl, rfl, rfl⟩
    | cons j r ih =>
      obtain ⟨hm, hr, hs⟩ := clearStrandAt_spec c e j hk
      obtain ⟨im, ir, is⟩ := ih (c.clearStrandAt e j)
      refine ⟨im.trans hm, ir.trans hr, is.trans ?_⟩
      rw [hs]
      by_cases hj : k = j <;> by_cases hl : k ∈ r <;> simp [hj, hl, Strand.cleared_cleared]
  have h := main (List.range 4)
  rwa [if_pos (List.mem_range.2 hk)] at h

/-- At level 2 the trap of a syllable kills the context of a cell's strand. -/
theorem exec_of_kill {i : Instr} {f : View → Syl} {t : TrapReq} (ho : s.Opened m u k) (he : exec i s = runSyl s i true f)
    (hp : closeBundle s { s.nextBundle m u k with syls := [f (s.sees m u k i)] } =
      takeTrap s { s.nextBundle m u k with syls := [f (s.sees m u k i)] } 0 t)
    (htl : (s.strand m u k).tl = 2) :
    exec i s = .next (killStrand { s with cur := none, last := .trapped } m u k t.cause t.val (s.strand m u k).pc) := by
  rw [he, runSyl_closes ho, hp]
  exact congrArg _ (if_pos (.inl htl))

theorem postFault_spec (c : Cell) (n : Nat) (ws : List Word) :
    (c.postFault n ws).mem = c.mem ∧ (c.postFault n ws).strands = c.strands ∧ (c.postFault n ws).recs = c.recs := by
  unfold Cell.postFault
  split <;> exact ⟨rfl, rfl, rfl⟩

theorem killStrand_spec (hk : k < 4) (hu : u < 1024) (hr : (s.strand m u k).mode = .running) (cause : BitVec 8) (val : Word)
    (pc : BitVec 15) :
    (killStrand s m u k cause val pc).cur = s.cur ∧ (killStrand s m u k cause val pc).seq = s.seq ∧
      ((killStrand s m u k cause val pc).cell m u).mem = (s.cell m u).mem ∧
      (killStrand s m u k cause val pc).strand m u k = (s.strand m u k).retire .idle ∧
      ((killStrand s m u k cause val pc).cell m u).record (s.strand m u k).entry =
        { (s.cell m u).record (s.strand m u k).entry with status := .killed, ending := some .killed } := by
  have hs : ¬ isSpire u = true := by simp [isSpire]; omega
  set e := (s.strand m u k).entry with he
  set r := s.onCell m u fun c => (c.postFault k (killWords (s.addr m u) k (s.strand m u k) cause val pc)).onRecord e fun r =>
    { r with status := .killed, ending := some .killed } with hrdef
  have heq : killStrand s m u k cause val pc =
      (r.deadEnds m u (s.strand m u k).recid).onCell m u fun c => c.clearStrands e := if_neg hs
  have core := sameCore_deadEnds r m u (s.strand m u k).recid
  obtain ⟨hm, hrec, hst⟩ := clearStrands_spec ((r.deadEnds m u (s.strand m u k).recid).cell m u) e hk
  obtain ⟨pm, ps, pr⟩ := postFault_spec (s.cell m u) k (killWords (s.addr m u) k (s.strand m u k) cause val pc)
  have rc : r.cell m u = _ := State.cell_onCell_same ..
  have rs : (r.cell m u).strands = (s.cell m u).strands := by rw [rc]; exact ps
  have es : ((r.deadEnds m u (s.strand m u k).recid).cell m u).strand k = s.strand m u k := by
    rw [Cell.strand, core.strands, rs]; rfl
  rw [heq]
  refine ⟨core.cur, core.seq, ?_, ?_, ?_⟩
  · rw [State.cell_onCell_same, hm, core.mem, rc]
    exact pm
  · rw [State.strand, State.cell_onCell_same, hst, es]
    exact if_pos ⟨by rw [hr]; decide, rfl⟩
  · rw [State.cell_onCell_same, Cell.record, hrec, core.recs, ← Cell.record, rc, Cell.record_onRecord, if_pos rfl,
      Cell.record, pr]
    rfl

end kill

/-! ### Landings before a return (R80, R82, R172) -/

section landings

variable {c : Cell} {k : Nat}

theorem beat_writeSp (st : Strand) (n : Nat) (x : Word) : (st.writeSp n x).beat = st.beat := by
  unfold Strand.writeSp
  split <;> rfl

theorem beat_writePr (st : Strand) (n : Nat) (x : Word) : (st.writePr n x).beat = st.beat := by
  unfold Strand.writePr
  split_ifs <;> rfl

theorem beat_loopLand (st : Strand) (start fixed : Bool) : (st.loopLand start fixed).beat = st.beat := by
  cases start <;> rfl

theorem beat_put (st : Strand) (r : Reg) (x : Val) : (st.put r x).beat = st.beat := by
  unfold Strand.put
  split
  case h_1 | h_2 => split_ifs <;> rfl
  case h_5 => exact beat_writeSp ..
  case h_6 => exact beat_writePr ..
  case h_7 => exact beat_loopLand ..
  all_goals rfl

theorem beat_taintWith (st : Strand) (g : BitVec 8) (op : Nat) : (st.taintWith g op).beat = st.beat := by
  unfold Strand.taintWith
  split_ifs <;> rfl

theorem beat_onStrand {f : Strand → Strand} (hf : ∀ st, (f st).beat = st.beat) (j : Nat) :
    ((c.onStrand j f).strand k).beat = (c.strand k).beat := by
  rw [Cell.strand_onStrand]
  by_cases h : k = j ∧ j < 4
  · rw [if_pos h, hf, h.1]
  · rw [if_neg h]

theorem strands_slotHandles (c : Cell) : c.slotHandles.strands = c.strands :=
  List.foldlRecOn (motive := fun x : Cell => x.strands = c.strands) _ _ rfl fun x h p _ => by
    split <;> exact h

theorem beat_writeX (i w : Nat) (x : Word) : ((c.writeX i w x).strand k).beat = (c.strand k).beat := by
  rw [Cell.writeX, Cell.strand, strands_slotHandles]
  unfold Cell.strand Vector.getD
  by_cases h : k < 4 <;> simp [h, Strand.revoke]

/-- The register that a result reaches, without its taint and counts. -/
def Cell.landReg (c : Cell) (k : Nat) (l : Landing) : Cell :=
  match l.reg, l.val with
  | .xd i w, .word x => c.writeX i w x
  | .pr n, .word x => if n = 13 then { c with tokexp := x } else c.onStrand k fun st => st.put l.reg l.val
  | _, _ => c.onStrand k fun st => st.put l.reg l.val

/-- The taint that a result brings. -/
def Cell.landTaint (c : Cell) (k : Nat) (l : Landing) : Cell :=
  match l.taint with
  | some g => c.onStrand k fun st => st.taintWith g l.seq
  | none => c

theorem land_eq (c : Cell) (k : Nat) (l : Landing) : c.land k l = ((c.landReg k l).landTaint k l).count fun n =>
    { n with cvtSat8 := countUpBy n.cvtSat8 l.cvtSat, nanScale := countUpBy n.nanScale l.nanScale } := rfl

theorem landReg_xd {l : Landing} {i w : Nat} {x : Word} (hr : l.reg = .xd i w) (hv : l.val = .word x) :
    c.landReg k l = c.writeX i w x := by
  rw [Cell.landReg, hr, hv]

theorem landReg_tokexp {l : Landing} {x : Word} (hr : l.reg = .pr 13) (hv : l.val = .word x) :
    c.landReg k l = { c with tokexp := x } := by
  rw [Cell.landReg, hr, hv]
  exact if_pos rfl

/-- Every other register is the strand's. -/
theorem landReg_put {l : Landing} (hx : ∀ i w, l.reg ≠ .xd i w) (hp : l.reg ≠ .pr 13) :
    c.landReg k l = c.onStrand k fun st => st.put l.reg l.val := by
  unfold Cell.landReg
  split
  · next hr _ => exact absurd hr (hx _ _)
  · next n _ hr _ => exact if_neg fun h13 : n = 13 => hp (h13 ▸ hr)
  · rfl

theorem beat_land (l : Landing) : ((c.land k l).strand k).beat = (c.strand k).beat := by
  have taint (c : Cell) : ((c.landTaint k l).strand k).beat = (c.strand k).beat := by
    unfold Cell.landTaint
    split
    · exact beat_onStrand (fun st => beat_taintWith st ..) k
    · rfl
  rw [land_eq]
  refine (taint _).trans ?_
  unfold Cell.landReg
  split
  case h_1 => exact beat_writeX ..
  case h_2 =>
    split_ifs
    · rfl
    · exact beat_onStrand (fun st => beat_put st ..) k
  case h_3 => exact beat_onStrand (fun st => beat_put st ..) k

theorem beat_landAll (ls : List Landing) : ((c.landAll k ls).strand k).beat = (c.strand k).beat := by
  have h := beat_onStrand (c := ls.foldl (fun c l => c.land k l) c) (k := k)
    (f := fun st => { st with fpf := ls.foldl (fun f l => f ||| l.flags) st.fpf }) (fun _ => rfl) k
  exact h.trans <| List.foldlRecOn (motive := fun x : Cell => (x.strand k).beat = (c.strand k).beat) _ _ rfl fun x h l _ =>
    (beat_land l).trans h

theorem beat_landUpTo (b : Nat) : ((c.landUpTo k b).strand k).beat = (c.strand k).beat := by
  unfold Cell.landUpTo
  refine List.foldlRecOn (motive := fun x : Cell => (x.strand k).beat = (c.strand k).beat) _ _ ?_ fun x h l _ =>
    (beat_landAll _).trans h
  exact beat_onStrand (f := fun st => { st with landing := st.landing.filter fun l => b < l.due }) (fun _ => rfl) k

theorem setStrand_strand (c : Cell) (k : Nat) : c.setStrand k (c.strand k) = c := by
  have h : c.strands.setIfInBounds k (c.strand k) = c.strands := by
    ext j hj
    rw [Vector.getElem_setIfInBounds]
    split_ifs with e
    · subst e; simp [Cell.strand, Vector.getD, hj]
    · rfl
  rw [Cell.setStrand, h]

theorem setStrand_setStrand (c : Cell) (k : Nat) (x y : Strand) : (c.setStrand k x).setStrand k y = c.setStrand k y := by
  have h : (c.strands.setIfInBounds k x).setIfInBounds k y = c.strands.setIfInBounds k y := by
    ext j hj
    simp only [Vector.getElem_setIfInBounds]
    split_ifs <;> rfl
  rw [Cell.setStrand, Cell.setStrand, Cell.setStrand, h]

theorem landAll_nil (c : Cell) (k : Nat) : c.landAll k [] = c := setStrand_strand c k

/-- Where one result is in flight, it alone lands, at its beat. -/
theorem landUpTo_singleton {l : Landing} {b : Nat} (h : (c.strand k).landing = [l]) (hb : l.due ≤ b)
    (hs : (c.strand k).beat ≤ b) : c.landUpTo k b = (c.setStrand k { c.strand k with landing := [] }).landAll k [l] := by
  have main (n : Nat) (x : Cell) (j : Nat) :
      (List.range n).foldl (fun x i => x.landAll k (if i = j then [l] else [])) x = if j < n then x.landAll k [l] else x := by
    induction n with
    | zero => rfl
    | succ n ih =>
      rw [List.range_succ, List.foldl_append, ih, List.foldl_cons, List.foldl_nil]
      rcases Nat.lt_trichotomy j n with hj | hj | hj
      · rw [if_pos hj, if_neg (Nat.ne_of_gt hj), landAll_nil, if_pos (by omega)]
      · rw [if_neg (by omega), if_pos hj.symm, if_pos (by omega)]
      · rw [if_neg (by omega), if_neg (Nat.ne_of_lt hj), landAll_nil, if_neg (by omega)]
  have hl : (if b < l.due then [l] else []) = [] := if_neg (by omega)
  rw [Cell.landUpTo, h]
  simp only [List.filter_cons, List.filter_nil, decide_eq_true_eq, hl]
  have hj : ∀ i, (if if i = 0 then decide (l.due ≤ (c.strand k).beat) else decide (l.due = (c.strand k).beat + i) then [l] else []) =
      if i = l.due - (c.strand k).beat then [l] else [] := by
    intro i
    refine if_congr ?_ rfl rfl
    by_cases hi : i = 0
    · rw [if_pos hi, decide_eq_true_eq]; omega
    · rw [if_neg hi, decide_eq_true_eq]; omega
  simp only [hj]
  rw [main, if_pos (by omega)]

/-- Where nothing is in flight, nothing lands. -/
theorem landUpTo_nil (h : (c.strand k).landing = []) (b : Nat) : c.landUpTo k b = c := by
  have main (l : List Nat) (x : Cell) : l.foldl (fun x _ => x.landAll k []) x = x := by
    induction l with
    | nil => rfl
    | cons n r ih => rw [List.foldl_cons, landAll_nil, ih]
  have hs : c.setStrand k { c.strand k with landing := [] } = c := by
    rw [← h]
    exact setStrand_strand c k
  simp only [Cell.landUpTo, h, List.filter_nil, hs, main]

theorem countUpBy_zero (n : BitVec 16) : countUpBy n 0 = n := by
  have := n.isLt
  rw [countUpBy, Nat.add_zero, Nat.min_eq_right (by omega), BitVec.ofNat_toNat, BitVec.setWidth_eq]

/-- A result without a taint or counts. -/
theorem land_of_plain {l : Landing} (c : Cell) (k : Nat) (ht : l.taint = none) (h8 : l.cvtSat = 0) (hn : l.nanScale = 0) :
    c.land k l = c.landReg k l := by
  rw [land_eq, Cell.landTaint, ht, h8, hn]
  simp only [Cell.count, countUpBy_zero]

end landings

/-! ### The statements -/

section statements

variable {s : State} {m u k : Nat}

/-- Settles O13: a trap syllable's own check, and at level 2 the kill of the context. -/
theorem trapsEnter : Obligations.TrapsEnter := by
  unfold Obligations.TrapsEnter
  have issues (s : State) (m u k : Nat) (i : Instr) (c : BitVec 8) (n : BitVec 23) (h : s.Ready m u k [] [])
      (hw : i.wellFormed = true) : { sylTrap (s.sees m u k i) c n with dyn := [] }.Issues (s.strand m u k) :=
    { static := illegal_nil hw
      dyn := rfl
      pend := fun p hp => h.settled.pend p hp
      notes := fun d hd => h.settled.notes d hd
      loop := .inl rfl
      free := rfl
      room := h.room.le }
  refine ⟨fun s m u k n h htl => ⟨?_, ?_⟩, fun s m u k n ho hu htl hr => ?_⟩
  · exact traps_of_dyn (t := trapReq causeSwTrap (n.setWidth 32)) h.opened (exec_trap ..) (issues s m u k _ _ n h rfl) rfl htl
      (show causeSwTrap ≠ causeXlatMiss by decide) rfl
  · exact traps_of_dyn (t := trapReq causeEbrk (n.setWidth 32)) h.opened (exec_ebrk ..) (issues s m u k _ _ n h rfl) rfl htl
      (show causeEbrk ≠ causeXlatMiss by decide) rfl
  · have hp := closeBundle_takes_dyn (s := s) (m := m) (u := u) (k := k) (y := sylTrap (s.sees m u k (.trap true n)) causeSwTrap n)
      (illegal_nil rfl) (fun _ _ => ⟨List.not_mem_nil, List.not_mem_nil⟩) (fun _ _ => List.not_mem_nil) (.inl rfl) rfl
      leads_singleton fun t ht => by rw [List.mem_singleton.1 ht]; rfl
    obtain ⟨h1, h2, h3, h4, h5⟩ := killStrand_spec (s := { s with cur := none, last := .trapped }) ho.strand hu hr
      causeSwTrap (n.setWidth 32) (s.strand m u k).pc
    refine ⟨_, exec_of_kill ho (exec_trap ..) hp htl, h1, h2, h3, ?_, ?_, ?_, congrArg _ h5, congrArg _ h5⟩ <;>
      exact congrArg _ h4

/-- Settles O14: PRIV is the lowest rank among the checks that fail. -/
theorem privilegeTraps : Obligations.PrivilegeTraps := by
  unfold Obligations.PrivilegeTraps
  intro s m u k d a b n o c x t ho htl hp hn
  have h2 : (s.strand m u k).tl ≠ 2 := by rw [htl]; decide
  have priv (i : Instr) : Leads (trapReq causePriv 0) (s.sees m u k i).privileged := by
    rw [View.privileged, sees_st, if_pos htl]; exact leads_singleton
  have take (i : Instr) (f : View → Syl) (he : exec i s = runSyl s i true f)
      (hl : Leads (trapReq causePriv 0) (f (s.sees m u k i)).static) : s.Traps m u k i 0x05 0 :=
    traps_of_leads (t := trapReq causePriv 0) ho he hl h2 (show causePriv ≠ causeXlatMiss by decide) rfl
  have engine (i : Instr) (srcs : List (BitVec 6)) (t : BitVec 6) (hw : i.wellFormed = true)
      (hc : (s.cell m u).spire = false) :
      Leads (trapReq causePriv 0) ((engineSyl (s.sees m u k i) false srcs t).static ++ (s.sees m u k i).privileged) := by
    refine (priv i).prepend fun x hx => ?_
    rw [engineSyl, illegal_cell hw hc, List.nil_append] at hx
    rcases List.mem_append.1 hx with h | h <;> exact rank_declS h ▸ (show 3 < 5 by decide)
  have all (i : Instr) (hw : i.wellFormed = true) (rs : List (BitVec 6)) : Leads (trapReq causePriv 0)
      ((s.sees m u k i).illegal true ++ (s.sees m u k i).privileged ++ (s.sees m u k i).declS rs) := by
    rw [illegal_nil hw, List.nil_append]
    exact (priv i).append fun x hx => rank_declS hx ▸ (show 3 ≤ 5 by decide)
  refine ⟨take _ _ (exec_mfc ..) (all (.mfc true d n) (decide_eq_true hn) _), take _ _ (exec_mtc ..) (all (.mtc true a n) (decide_eq_true hn) _),
    take _ _ (exec_rtt ..) ?_, fun hc ht hx => ⟨take _ _ (exec_sset ..) (engine (.sset true a o c t) _ _ (bne_iff_ne.2 fun h => ht (BitVec.eq_of_toNat_eq h)) hc),
      take _ _ (exec_rctl ..) (engine _ _ _ (decide_eq_true hx) hc)⟩⟩
  exact (illegal_nil (s := s) (m := m) (u := u) (k := k) (i := .rtt true) rfl).symm ▸ priv _

/-- A vector syllable of the frame, but for the checks of its tags. -/
theorem frame_issues {vecs ss names : List (BitVec 6)} {d : BitVec 6} {q : BitVec 3} {w : BitVec 2} {tag : BitVec 3}
    {lat c : Nat} {one : Bool} {checks : List TrapReq} {g : Nat → LaneOut} {i : Instr}
    (h : s.ReadyV m u k vecs d q w ss names) (hi : i.wellFormed = true) (hc : c = clusterOf d.toNat) :
    { sylFrame (s.sees m u k i) (vBase (s.sees m u k i) c vecs ss [q.toNat] one) d q w lat tag checks g with dyn := [] }.Issues
      (s.strand m u k) where
  static := vBase_static h hi hc (fun r hr => List.mem_append.2 (.inr hr)) h.declaredQ
  dyn := rfl
  pend := fun p hp => ⟨(h.ready.settled.pend p hp).1, List.not_mem_nil⟩
  notes := fun d hd => h.ready.settled.notes d hd
  loop := .inl rfl
  free := rfl
  room := by rw [landCount_lands [_] rfl]; exact h.ready.room

/-- Settles O15: the checks of the operands in their order, the leading one raised. -/
theorem operandTraps : Obligations.OperandTraps := by
  unfold Obligations.OperandTraps
  intro s m u k d a b q w htl
  have take {i : Instr} {f : View → Syl} {c : BitVec 8} {x : Word} (hc : c ≠ causeXlatMiss) (ho : s.Opened m u k)
      (he : exec i s = runSyl s i true f) (hl : Leads (trapReq c x) (f (s.sees m u k i)).static) : s.Traps m u k i c x :=
    traps_of_leads (t := trapReq c x) ho he hl htl hc rfl
  have above {max : Nat} {i : Instr} {f : View → Syl} (ho : s.Opened m u k) (he : exec i s = runSyl s i true f)
      (hs : ∀ r, Leads (trapReq causeDecl (BitVec.ofNat 32 r)) ([d, a, b].flatMap fun r => declCheck max r.toNat) →
        Leads (trapReq causeDecl (BitVec.ofNat 32 r)) (f (s.sees m u k i)).static) :
      (max < d.toNat → s.Traps m u k i 0x06 (d.setWidth 32)) ∧
      (d.toNat ≤ max → max < a.toNat → s.Traps m u k i 0x06 (a.setWidth 32)) ∧
      (d.toNat ≤ max → a.toNat ≤ max → max < b.toNat → s.Traps m u k i 0x06 (b.setWidth 32)) := by
    have hc : causeDecl ≠ causeXlatMiss := by decide
    rw [← BitVec.ofNat_toNat 32 d, ← BitVec.ofNat_toNat 32 a, ← BitVec.ofNat_toNat 32 b]
    refine ⟨fun h => take hc ho he (hs _ ?_), fun hd h => take hc ho he (hs _ ?_), fun hd ha h => take hc ho he (hs _ ?_)⟩
    · exact leads_declChecks (l₁ := []) (fun _ h => (List.not_mem_nil h).elim) h
    · exact leads_declChecks (l₁ := [d]) (List.forall_mem_singleton.2 hd) h
    · exact leads_declChecks (l₁ := [d, a]) (List.forall_mem_cons.2 ⟨hd, List.forall_mem_singleton.2 ha⟩) h
  refine ⟨fun ho hc => ⟨above ho (exec_add ..) fun r hr => ?_, fun hd ha hb => above ho (exec_por ..) fun r hr => ?_,
    fun ha hb hw hq => above ho (exec_vaddF ..) fun r hr => ?_⟩, fun h => ?_, fun ho hc hcl hw => ?_⟩
  · have hd : (s.sees m u k (.add true d a b)).declS [d, a, b] = [d, a, b].flatMap fun r => declCheck _ r.toNat :=
      if_neg (Bool.eq_false_iff.1 hc)
    refine Leads.append (Leads.prepend (hd ▸ hr) ?_) fun x hx => ?_
    · rw [illegal_nil rfl]; exact fun x hx => (List.not_mem_nil hx).elim
    · exact rank_declQ hx ▸ Nat.le_refl 5
  · have hp (r : BitVec 6) (h : r.toNat ≤ 7) : isPred r = true := decide_eq_true h
    have hw : (isPred d && isPred a && isPred b) = true := by simp [hp, hd, ha, hb]
    have hd' : (s.sees m u k (.por true d a b)).declQ [d.toNat, a.toNat, b.toNat] =
        [d, a, b].flatMap fun r => declCheck _ r.toNat := if_neg (Bool.eq_false_iff.1 hc)
    refine Leads.prepend (hd' ▸ hr) ?_
    rw [illegal_nil (i := .por true d a b) hw, declS_nil (.inr fun _ h => (List.not_mem_nil h).elim)]
    exact fun x hx => (List.not_mem_nil hx).elim
  · have hd' : (s.sees m u k (.vaddF true d a b q w)).declV [d, a, b] = [d, a, b].flatMap fun r => declCheck _ r.toNat :=
      if_neg (Bool.eq_false_iff.1 hc)
    have hcl : clusterCheck (clusterOf d.toNat) [d, a, b] = [] := clusterCheck_nil (by simp [ha, hb])
    have hi := illegal_cell (s := s) (m := m) (u := u) (k := k) (i := .vaddF true d a b q w) (decide_eq_true hw) hc
    refine ((Leads.prepend (hd' ▸ hr) ?_).append fun x hx => rank_declS hx ▸ Nat.le_refl 5).append fun x hx =>
      rank_declQ hx ▸ Nat.le_refl 5
    rw [hi, if_pos rfl, hcl]
    exact fun x hx => (List.not_mem_nil hx).elim
  · have hw := decide_eq_true h.mode
    have tag {x : VReg} {num : BitVec 6} {l : List TrapReq} (hx : ¬ x.Has 2) (hl : ∀ t ∈ l, t.rank = 6 ∧ t.src = 0) :
        Leads (trapReq causeFmtTag (num.setWidth 32)) (checkTag x num tagF32 ++ l) := by
      rw [checkTag_fails (want := tagF32) (by decide) hx]
      exact leads_singleton.append fun t ht => (hl t ht).1.symm ▸ Nat.le_refl 6
    have src {l r : List TrapReq} (hl : ∀ t ∈ l, t.rank = 6 ∧ t.src = 0) (hr : ∀ t ∈ r, t.rank = 6 ∧ t.src = 0) :
        ∀ t ∈ l ++ r, t.rank = 6 ∧ t.src = 0 := fun t ht => (List.mem_append.1 ht).elim (hl t) (hr t)
    have trap {x : Word} (hl : Leads (trapReq causeFmtTag x) (checkTag (s.rv m u k a) a tagF32 ++
        (checkTag (s.rv m u k b) b tagF32 ++ mergeCheck (s.sees m u k (.vaddF true d a b q w)) d q w tagF32))) :
        s.Traps m u k (.vaddF true d a b q w) 0x04 x :=
      traps_of_dynLeads (t := trapReq causeFmtTag x) h.ready.opened (exec_vaddF ..) (frame_issues h hw rfl)
        (show Leads _ (checkTag (s.rv m u k a) a tagF32 ++ checkTag (s.rv m u k b) b tagF32 ++ _) from
          (List.append_assoc ..).symm ▸ hl) (fun t ht => (src (src checkTag_spec checkTag_spec) mergeCheck_spec t ht).2) htl
        (show causeFmtTag ≠ causeXlatMiss by decide)
    refine ⟨fun ha => trap (tag ha (src checkTag_spec mergeCheck_spec)), fun ha hb => trap ?_⟩
    rw [checkTag_nil (want := tagF32) ha]
    exact tag hb mergeCheck_spec
  · have hi := illegal_cell (s := s) (m := m) (u := u) (k := k) (i := .vmov true d a q w) (decide_eq_true hw) hc
    have hf : clusterCheck (clusterOf d.toNat) [d, a] = [trapReq causeCluster (a.setWidth 32)] := by
      simp [clusterCheck, hcl]
    refine take (by decide) ho (exec_vmov ..) (((Leads.append (Leads.append ?_ ?_) ?_)).append ?_)
    · rw [hi, if_pos rfl, hf]; exact leads_singleton
    · exact fun x hx => rank_declV hx ▸ (show 4 ≤ 5 by decide)
    · exact fun x hx => rank_declS hx ▸ (show 4 ≤ 5 by decide)
    · exact fun x hx => rank_declQ hx ▸ (show 4 ≤ 5 by decide)

/-- Leaving the level `tl` above 0, by its bank. -/
theorem leaveTrap_eq (x : Strand) (cycle : Nat) {beat : Nat} {tl : BitVec 2} (h : tl ≠ 0) (hb : x.beat = beat) :
    x.leaveTrap cycle tl.toNat =
      let b := if tl = 1 then x.bank1 else x.bank2
      { x with
        bank1 := if tl = 1 then { b with replay := [] } else x.bank1
        bank2 := if tl = 1 then x.bank2 else { b with replay := [] }
        tl := tl - 1
        rrb := b.rrb
        pc := b.pc
        idleUntil := cycle + 3
        landing := b.replay.map fun l => { l with due := beat + l.due - (if b.adv then 1 else 0) } } := by
  subst hb
  have cases4 : tl = 0 ∨ tl = 1 ∨ tl = 2 ∨ tl = 3 := by
    revert tl; decide
  rcases cases4 with rfl | rfl | rfl | rfl
  · exact absurd rfl h
  all_goals rfl

/-- Settles O16: the landings up to the last due beat, then the return. -/
theorem rttReturns : Obligations.RttReturns := by
  unfold Obligations.RttReturns
  intro s m u k h htl st last leave
  have hk : k < 4 := h.opened.strand
  have hw : (s.wentCell m u k).strand k = s.went m u k := strand_wentCell hk
  have priv : (s.sees m u k (.rtt true)).privileged = [] := if_neg htl
  have run : s.Runs m u k (.rtt true) fun c => c.rtt s.cycle k := by
    refine (exec_of_command h.opened (exec_rtt ..) ?_ rfl (.inr rfl)).trans ?_
    · exact
        { static := by
            show (s.sees m u k (.rtt true)).illegal true ++ (s.sees m u k (.rtt true)).privileged = []
            rw [illegal_nil rfl, priv]; rfl
          dyn := rfl
          pend := fun _ _ => ⟨List.not_mem_nil, List.not_mem_nil⟩
          notes := fun _ _ => List.not_mem_nil
          loop := .inl rfl
          free := rfl
          room := h.room.le }
    · exact congrArg Host.Outcome.next (onCell_left 2 id fun c => c.rtt s.cycle k)
  have same {f : Cell → Cell} (hf : f (s.wentCell m u k) = (s.wentCell m u k).rtt s.cycle k) : s.Runs m u k (.rtt true) f := by
    rw [State.Runs, run, State.left, State.left, hf]
  have rtt : (s.wentCell m u k).rtt s.cycle k = ((s.wentCell m u k).landUpTo k last).onStrand k leave := by
    have hb : (((s.wentCell m u k).landUpTo k last).strand k).beat = st.beat + 1 := by rw [beat_landUpTo, hw]; rfl
    rw [Cell.rtt, hw]
    exact congrArg (Cell.setStrand _ k) (leaveTrap_eq _ s.cycle htl hb)
  refine ⟨same rtt.symm, fun hl => same ?_, fun l x hl hv ht h8 hn => ?_⟩
  · rw [rtt, landUpTo_nil (by rw [hw]; exact hl)]
  · have hlast : last = max (st.beat + 1) l.due := congrArg (List.foldl (fun n l => max n l.due) (st.beat + 1)) hl
    have land (f : Strand → Strand) (hx : ∀ i w, l.reg ≠ .xd i w) (hp : l.reg ≠ .pr 13)
        (hf : ∀ y : Strand, (({ y with landing := [] } : Strand).put l.reg l.val) = { f y with landing := [] } ∧
          (f y).fpf = y.fpf) :
        s.Runs m u k (.rtt true) fun c => (c.onStrand k fun y =>
          { f y with landing := [], fpf := y.fpf ||| l.flags }).onStrand k leave := by
      refine same ?_
      have hone := landUpTo_singleton (c := s.wentCell m u k) (k := k) (b := last) (l := l) (by rw [hw]; exact hl)
        (hlast ▸ le_max_right ..) (by rw [hw, hlast]; exact le_max_left ..)
      rw [rtt, hone, Cell.landAll, List.foldl_cons, List.foldl_nil, land_of_plain _ _ ht h8 hn, landReg_put hx hp]
      simp only [Cell.onStrand, setStrand_setStrand, Cell.strand_setStrand, hk, and_self, if_true, (hf _).1]
      have hfpf := (hf ((s.wentCell m u k).strand k)).2
      simp only [List.foldl_cons, List.foldl_nil, hfpf]
    have reg (r : Reg) (y : Strand) : l.reg = r → ({ y with landing := [] } : Strand).put l.reg l.val =
        ({ y with landing := [] } : Strand).put r (.word x) := fun h => by rw [h, hv]
    exact ⟨fun n hn0 hr => land (fun y => { y with s := y.s.setIfInBounds n x }) (by simp [hr]) (by simp [hr]) fun y =>
        ⟨(reg _ y hr).trans (if_neg hn0), rfl⟩,
      fun hr => land (fun y => { y with bank1 := { y.bank1 with pc := x.setWidth 15 } }) (by simp [hr]) (by simp [hr]) fun y =>
        ⟨reg _ y hr, rfl⟩,
      fun hr => land (fun y => { y with bank2 := { y.bank2 with pc := x.setWidth 15 } }) (by simp [hr]) (by simp [hr]) fun y =>
        ⟨reg _ y hr, rfl⟩⟩

end statements

end Sys2Proof.Machine
end

section
/-! Predicates, special registers and branches (R77, R113, R153 to R162, R403). -/

namespace Sys2Proof.Machine

-- One proof after the other, which keeps the memory of a build low.
set_option Elab.async false

section registers

variable {s : State} {m u k : Nat} {i : Instr} {f : View → Syl} {d c : BitVec 6} {z : Word}

/-! ### Predicates (R113) -/

/-- A class S syllable with a predicate destination lands its value in the predicate's slot. -/
theorem gives_of_sylToQ {srcs preds : List (BitVec 6)} (h : s.Ready m u k srcs [])
    (hq : s.DeclaresQ m u k (d.toNat :: preds.map fun q => q.toNat)) (he : exec i s = runSyl s i true f)
    (hi : i.wellFormed = true) (hf : f (s.sees m u k i) = sylToQ (s.sees m u k i) d srcs preds z) :
    s.Gives m u k i (.q (s.pq m u k d.toNat)) (.word z) 1 :=
  have static : (sylToQ (s.sees m u k i) d srcs preds z).static = [] :=
    List.append_eq_nil_iff.2 ⟨List.append_eq_nil_iff.2 ⟨illegal_nil hi, declS_nil h.declared⟩, declQ_nil hq⟩
  gives_of_syl h he (hf ▸ static) (hf ▸ rfl) (hf ▸ rfl) (hf ▸ fun _ hp => hp) (hf ▸ rfl) (hf ▸ rfl) (hf ▸ rfl) (hf ▸ rfl)

/-- A class S syllable that reads a predicate into a scalar register. -/
theorem givesS_of_pred {a : BitVec 6} {lat : Nat} (h : s.Ready m u k [] [c]) (hq : s.DeclaresQ m u k [a.toNat])
    (he : exec i s = runSyl s i true f) (hi : i.wellFormed = true)
    (hf : f (s.sees m u k i) = sylToS (s.sees m u k i) c [] [a] z lat) : s.GivesS m u k i c z lat :=
  have static : (sylToS (s.sees m u k i) c [] [a] z lat).static = [] :=
    List.append_eq_nil_iff.2 ⟨List.append_eq_nil_iff.2 ⟨illegal_nil hi, declS_nil h.declared⟩, declQ_nil hq⟩
  gives_of_syl h he (hf ▸ static) (hf ▸ rfl) (hf ▸ rfl) (hf ▸ fun _ hp => hp) (hf ▸ rfl) (hf ▸ rfl) (hf ▸ rfl) (hf ▸ rfl)

/-- Below the first one every bit is 0. -/
theorem firstOne_spec (x : Word) : firstOne x ≤ 32 ∧ (∀ i < firstOne x, x.getLsbD i = false) ∧
    (firstOne x < 32 → x.getLsbD (firstOne x) = true) := by
  unfold firstOne
  cases hf : (List.range 32).find? fun i => x.getLsbD i with
  | none =>
    refine ⟨Nat.le_refl 32, fun i hi => ?_, fun h => absurd h (Nat.lt_irrefl 32)⟩
    exact Bool.eq_false_iff.2 (List.find?_eq_none.1 hf i (List.mem_range.2 hi))
  | some n =>
    obtain ⟨hx, hn, hl⟩ := List.find?_range_eq_some.1 hf
    exact ⟨(List.mem_range.1 hn).le, fun i hi => by simpa using hl i hi, fun _ => hx⟩

/-! ### Special registers (R153 to R160) -/

/-- A class S or control syllable that reads a value of the machine into a scalar register. -/
theorem givesS_of_read {lat : Nat} (h : s.Ready m u k [] [d]) (he : exec i s = runSyl s i true f)
    (static : (f (s.sees m u k i)).static = []) (dyn : (f (s.sees m u k i)).dyn = []) (hr : (f (s.sees m u k i)).reads = [])
    (hn : (f (s.sees m u k i)).names = [s.ps m u k d]) (loop : (f (s.sees m u k i)).loop = .none)
    (free : (f (s.sees m u k i)).blocked = false) (image : (f (s.sees m u k i)).image = none)
    (hf : (f (s.sees m u k i)).effects = [.land (s.result m u k (.s (s.ps m u k d)) (.word z) lat)]) :
    s.GivesS m u k i d z lat :=
  gives_of_syl h he static dyn hr (fun p hp => by rwa [hn] at hp) loop free hf image

theorem static_read (h : s.Ready m u k [] [d]) (hi : i.wellFormed = true) :
    (s.sees m u k i).illegal true ++ (s.sees m u k i).declS [d] = [] :=
  List.append_eq_nil_iff.2 ⟨illegal_nil hi, declS_nil h.declared⟩

theorem givesS_mfs {n : BitVec 11} (h : s.Ready m u k [] [d]) (hn : n.toNat < 12) (hz : (s.sees m u k (.mfs true d n)).readSp n.toNat = z) :
    s.GivesS m u k (.mfs true d n) d z 2 :=
  givesS_of_read h (exec_mfs ..) (static_read h (decide_eq_true (Nat.le_of_lt_succ hn))) rfl rfl rfl rfl rfl rfl (hz ▸ rfl)

theorem givesS_mfc {n : BitVec 11} (h : s.Ready m u k [] [d]) (htl : (s.strand m u k).tl ≠ 0) (hn : n.toNat < 14)
    (hz : (s.sees m u k (.mfc true d n)).readPr n.toNat = z) : s.GivesS m u k (.mfc true d n) d z 2 := by
  have hi := illegal_nil (s := s) (m := m) (u := u) (k := k) (i := .mfc true d n) (decide_eq_true (Nat.le_of_lt_succ hn))
  have hp : (s.sees m u k (.mfc true d n)).privileged = [] := if_neg htl
  exact givesS_of_read h (exec_mfc ..)
    (List.append_eq_nil_iff.2 ⟨List.append_eq_nil_iff.2 ⟨hi, hp⟩, declS_nil h.declared⟩) rfl rfl rfl rfl rfl rfl (hz ▸ rfl)

theorem givesS_rdid {n : BitVec 11} (h : s.Ready m u k [] [d]) (hn : n.toNat < 6) (hz : identity (s.chip m) u k n.toNat = z) :
    s.GivesS m u k (.rdid true d n) d z 1 :=
  givesS_of_read h (exec_rdid ..) (static_read h (decide_eq_true (Nat.le_of_lt_succ hn))) rfl rfl rfl rfl rfl rfl (hz ▸ rfl)

/-- A word below 2^j has no bit outside the mask of its low `j` bits. -/
theorem and_not_mask_eq_zero {x : Word} {j : Nat} (h : x.toNat < 2 ^ j) : x &&& ~~~(BitVec.ofNat 32 (2 ^ j - 1)) = 0 := by
  apply BitVec.eq_of_getLsbD_eq
  intro i hi
  rw [BitVec.getLsbD_and, BitVec.getLsbD_not, BitVec.getLsbD_ofNat, Nat.testBit_two_pow_sub_one]
  by_cases hj : i < j
  · simp [hi, hj]
  · have hx : x.getLsbD i = false := Nat.testBit_lt_two_pow (h.trans_le (Nat.pow_le_pow_right (by decide) (Nat.le_of_not_lt hj)))
    rw [hx, Bool.false_and]
    exact BitVec.getLsbD_zero.symm

theorem and_not_ones (x : Word) : x &&& ~~~(0xFFFFFFFF : Word) = 0 := BitVec.and_zero

/-- mts with no reserved bit set (R158). -/
theorem gives_mts {a : BitVec 6} {n : BitVec 11} (h : s.Ready m u k [a] []) (hn : (n.toNat ≤ 4 || n.toNat == 10) = true)
    (hx : s.rs m u k a &&& ~~~(spMask n.toNat) = 0) :
    s.Gives m u k (.mts true a n) (.sp n.toNat) (.word (s.rs m u k a)) 1 :=
  gives_of_syl h (exec_mts ..) (List.append_eq_nil_iff.2 ⟨illegal_nil hn, declS_nil h.declared⟩)
    (if_neg (by rw [bne_iff_ne]; exact not_not.2 hx)) rfl (fun _ hp => hp) rfl rfl rfl

/-- mtc above level 0 of a word that its register admits (R158, R355). -/
theorem gives_mtc {a : BitVec 6} {n : BitVec 11} {reg : Reg} (h : s.Ready m u k [a] []) (htl : (s.strand m u k).tl ≠ 0)
    (hn : n.toNat ≤ 13)
    (hreg : (if n.toNat = 12 then .xd (s.strand m u k).xidx.toNat (s.strand m u k).xword.toNat else .pr n.toNat) = reg)
    (hx : s.rs m u k a &&& ~~~(prMask n.toNat) = 0)
    (h11 : (n.toNat == 11 && (s.rs m u k a).toNat / 256 % 4 == 3) = false)
    (h13 : (n.toNat == 13 && decide ((s.rs m u k a).toNat < 0x10000)) = false)
    (h12 : (n.toNat == 12 && ((s.cell m u).xentry (s.strand m u k).xidx.toNat).refuses (s.chip m) u
      (s.strand m u k).xword.toNat (s.rs m u k a) (!(s.cell m u).spire)) = false) :
    s.Gives m u k (.mtc true a n) reg (.word (s.rs m u k a)) 1 := by
  have hi := illegal_nil (s := s) (m := m) (u := u) (k := k) (i := .mtc true a n) (decide_eq_true hn)
  have hp : (s.sees m u k (.mtc true a n)).privileged = [] := if_neg htl
  refine gives_of_syl h (exec_mtc ..)
    (List.append_eq_nil_iff.2 ⟨List.append_eq_nil_iff.2 ⟨hi, hp⟩, declS_nil h.declared⟩)
    (if_neg (Bool.eq_false_iff.1 (Bool.or_eq_false_iff.2 ⟨Bool.or_eq_false_iff.2 ⟨Bool.or_eq_false_iff.2 ⟨?_, h11⟩, h13⟩, h12⟩)))
    rfl (fun _ hp => hp) rfl rfl (by rw [← hreg]; rfl)
  exact bne_eq_false_iff_eq.2 hx

end registers

/-! ### The statements -/

/-- Settles O21: each operation by its function, pfirst by what the lowest one bit is. -/
theorem predicateResults : Obligations.PredicateResults := by
  unfold Obligations.PredicateResults
  intro s m u k d a b c hd ha hb
  have two (h : d.toNat ≤ 7 ∧ a.toNat ≤ 7 ∧ b.toNat ≤ 7) : (isPred d && isPred a && isPred b) = true := by
    simp [isPred, h]
  have hw := two ⟨hd, ha, hb⟩
  refine ⟨fun h hq => ⟨?_, ?_, ?_, ?_⟩, fun h hq => ?_, fun h hq => ⟨?_, ?_, _, (firstOne_spec _).1, ?_, (firstOne_spec _).2⟩⟩
  · exact gives_of_sylToQ (preds := [a, b]) h hq (exec_pand ..) hw rfl
  · exact gives_of_sylToQ (preds := [a, b]) h hq (exec_por ..) hw rfl
  · exact gives_of_sylToQ (preds := [a, b]) h hq (exec_pxor ..) hw rfl
  · exact gives_of_sylToQ (preds := [a, b]) h hq (exec_pandn ..) hw rfl
  · exact gives_of_sylToQ (preds := []) h hq (exec_pfs ..) (decide_eq_true hd) rfl
  · exact givesS_of_pred h hq (exec_pts ..) (decide_eq_true ha) rfl
  · exact givesS_of_pred h hq (exec_pcnt ..) (decide_eq_true ha) rfl
  · exact givesS_of_pred h hq (exec_pfirst ..) (decide_eq_true ha) rfl

/-- Settles O22: each register by what the reading instruction finds under its number. -/
theorem specialReads : Obligations.SpecialReads := by
  unfold Obligations.SpecialReads
  refine ⟨fun s m u k d h => ?_, fun s m u k d h htl => ?_, fun s m u k d h => ?_⟩
  · have gives {n : BitVec 11} (hn : n.toNat < 12) := givesS_mfs (z := (s.sees m u k (.mfs true d n)).readSp n.toNat) h hn rfl
    refine ⟨gives (by decide), gives (by decide), gives (by decide), gives (by decide), gives (by decide), gives (by decide),
      gives (by decide), fun hs => ⟨givesS_mfs h (by decide) ?_, givesS_mfs h (by decide) ?_⟩, gives (by decide),
      gives (by decide), gives (by decide)⟩
    · exact if_neg (Bool.eq_false_iff.1 hs)
    · exact if_neg (Bool.eq_false_iff.1 hs)
  · have gives {n : BitVec 11} (hn : n.toNat < 14) :=
      givesS_mfc (z := (s.sees m u k (.mfc true d n)).readPr n.toNat) h htl hn rfl
    have word (e : XEntry) (w : BitVec 2) : e.word w.toNat = if w = 0 then e.flags else if w = 1 then e.tag else e.frame := by
      have nat (n : Nat) (hn : n < 4) : (w.toNat = n) = (w = BitVec.ofNat 2 n) := by
        rw [← BitVec.toNat_inj, BitVec.toNat_ofNat, Nat.mod_eq_of_lt hn]
      rw [XEntry.word]
      simp only [nat 0 (by decide), nat 1 (by decide)]
      rfl
    exact ⟨gives (by decide), ⟨gives (by decide), gives (by decide), gives (by decide), gives (by decide), gives (by decide)⟩,
      ⟨gives (by decide), gives (by decide), gives (by decide), gives (by decide), gives (by decide)⟩, gives (by decide),
      givesS_mfc h htl (by decide) (word ..), gives (by decide)⟩
  · have ill {n : BitVec 11} (hn : 6 ≤ n.toNat) : (Instr.rdid true d n).wellFormed = false := decide_eq_false (by omega)
    refine ⟨givesS_rdid h (by decide) rfl, givesS_rdid h (by decide) rfl, givesS_rdid h (by decide) rfl, fun hu => ?_,
      fun hl hu => ?_, ?_, fun n hn htl => ?_⟩
    · have hs : isSpire u = false := by simp [isSpire]; omega
      refine ⟨givesS_rdid h (by decide) ?_, givesS_rdid h (by decide) ?_, givesS_rdid h (by decide) ?_⟩
      · refine (if_neg (Bool.eq_false_iff.1 hs)).trans (congrArg _ ?_)
        omega
      · exact if_neg (Bool.eq_false_iff.1 hs)
      · exact if_neg (Bool.eq_false_iff.1 hs)
    · have hs : isSpire u = true := by simp [isSpire, hl, hu]
      exact ⟨givesS_rdid h (by decide) (if_pos hs), givesS_rdid h (by decide) (if_pos hs), givesS_rdid h (by decide) (if_pos hs)⟩
    · exact givesS_of_read h (exec_rdcyc ..) (static_read h rfl) rfl rfl rfl rfl rfl rfl rfl
    · refine traps_of_static (t := trapReq causeIllegalOp (encode (.rdid true d n))) h.opened (exec_rdid ..) ?_ htl
        (show causeIllegalOp ≠ causeXlatMiss by decide) rfl
      have hd : (s.sees m u k (.rdid true d n)).declS [d] = [] := declS_nil h.declared
      have hl : (s.sees m u k (.rdid true d n)).illegal true = [trapReq causeIllegalOp (encode (.rdid true d n))] :=
        if_pos (by rw [sees_i, ill hn]; rfl)
      show (s.sees m u k (.rdid true d n)).illegal true ++ (s.sees m u k (.rdid true d n)).declS [d] = _
      rw [hl, hd]
      rfl

/-- Settles O23: no reserved bit is set, and the register is the one that the number names. -/
theorem specialWrites : Obligations.SpecialWrites := by
  unfold Obligations.SpecialWrites
  refine ⟨fun s m u k a n h hx => ?_, fun s m u k a n h htl => ⟨fun hx => ?_, fun hx => ?_⟩⟩
  · rcases hx with rfl | rfl | ⟨rfl, hx⟩ | ⟨rfl, hx⟩ | ⟨rfl, hx⟩ | ⟨rfl, hx⟩
    · exact gives_mts h rfl (and_not_ones _)
    · exact gives_mts h rfl (and_not_ones _)
    · exact gives_mts h rfl (and_not_mask_eq_zero (j := 3) hx)
    · exact gives_mts h rfl (and_not_mask_eq_zero (j := 4) hx)
    · exact gives_mts h rfl (and_not_mask_eq_zero (j := 5) hx)
    · exact gives_mts h rfl hx
  · have other {n : BitVec 11} (hn : (n.toNat == 11) = false ∧ (n.toNat == 13) = false ∧ (n.toNat == 12) = false)
        (h13 : n.toNat ≤ 13) (hx : s.rs m u k a &&& ~~~(prMask n.toNat) = 0) :
        s.Gives m u k (.mtc true a n) (.pr n.toNat) (.word (s.rs m u k a)) 1 :=
      gives_mtc h htl h13 (if_neg (beq_eq_false_iff_ne.1 hn.2.2)) hx (by rw [hn.1]; rfl) (by rw [hn.2.1]; rfl)
        (by rw [hn.2.2]; rfl)
    rcases hx with ⟨rfl, hx⟩ | ⟨rfl | rfl, hx⟩ | ⟨rfl | rfl, hx⟩ | (rfl | rfl | rfl | rfl) | ⟨rfl | rfl, hx⟩ | ⟨rfl, hx⟩ | ⟨rfl, hx⟩
    · exact other (by decide) (by decide) hx
    · exact other (by decide) (by decide) (and_not_mask_eq_zero (j := 8) hx)
    · exact other (by decide) (by decide) (and_not_mask_eq_zero (j := 8) hx)
    · exact other (by decide) (by decide) (and_not_mask_eq_zero (j := 15) hx)
    · exact other (by decide) (by decide) (and_not_mask_eq_zero (j := 15) hx)
    · exact other (by decide) (by decide) (and_not_ones _)
    · exact other (by decide) (by decide) (and_not_ones _)
    · exact other (by decide) (by decide) (and_not_ones _)
    · exact other (by decide) (by decide) (and_not_ones _)
    · exact other (by decide) (by decide) (and_not_mask_eq_zero (j := 14) hx)
    · exact other (by decide) (by decide) (and_not_mask_eq_zero (j := 14) hx)
    · refine gives_mtc h htl (by decide) rfl (and_not_mask_eq_zero (j := 10) (by omega)) ?_ rfl rfl
      exact beq_eq_false_iff_ne.2 (by omega)
    · exact gives_mtc h htl (by decide) rfl (and_not_ones _) rfl (decide_eq_false (Nat.not_lt.2 hx)) rfl
  · exact gives_mtc h htl (by decide) rfl (and_not_ones _) rfl rfl hx

end Sys2Proof.Machine
end

section
/-! Control flow: branches, call and jr (R77, R161, R162). -/

namespace Sys2Proof.Machine

-- One proof after the other, which keeps the memory of a build low.
set_option Elab.async false

section control

variable {s : State} {m u k : Nat} {i : Instr} {f : View → Syl}

theorem onStrand_onStrand (c : Cell) (hk : k < 4) (f g : Strand → Strand) :
    (c.onStrand k f).onStrand k g = c.onStrand k fun x => g (f x) := by
  simp only [Cell.onStrand, setStrand_setStrand, Cell.strand_setStrand, hk, and_self, if_true]

/-- The target of a branch counts from its bundle's address (R77). -/
theorem target_eq (o : BitVec 17) :
    (s.sees m u k i).target o = BitVec.ofInt 15 ((s.strand m u k).pc.toNat + o.toInt) := by
  rw [BitVec.ofInt_add, BitVec.ofInt_natCast, BitVec.ofNat_toNat, BitVec.setWidth_eq]
  exact congrArg _ (BitVec.signExtend_eq_setWidth_of_le o (by decide)).symm

/-- A control syllable that passes its checks, of a strand with settled registers. -/
theorem control_issues {y : Syl} {reads names : List (BitVec 6)} (h : s.Ready m u k reads names) (static : y.static = [])
    (dyn : y.dyn = []) (hr : y.reads = reads.map (s.ps m u k)) (hn : ∀ p ∈ y.names, p ∈ names.map (s.ps m u k))
    (loop : y.loop = .none ∨ y.loop = .start ∨ y.loop = .fin) (free : y.blocked = false)
    (room : (s.strand m u k).landing.length + landCount [y] ≤ 32) (image : y.image = none := by rfl) :
    y.Issues (s.strand m u k) where
  static := static
  dyn := dyn
  image := image
  pend := fun p hp => ⟨hr ▸ (h.settled.pend p hp).1, fun e => (h.settled.pend p hp).2 (hn _ e)⟩
  notes := fun d hd => hr ▸ h.settled.notes d hd
  loop := loop
  free := free
  room := room

/-- One command of such a syllable. -/
theorem exec_of_control {reads names : List (BitVec 6)} {x : Cmd} (h : s.Ready m u k reads names)
    (he : exec i s = runSyl s i true f) (static : (f (s.sees m u k i)).static = []) (dyn : (f (s.sees m u k i)).dyn = [])
    (hr : (f (s.sees m u k i)).reads = reads.map (s.ps m u k))
    (hn : ∀ p ∈ (f (s.sees m u k i)).names, p ∈ names.map (s.ps m u k)) (loop : (f (s.sees m u k i)).loop = .none)
    (free : (f (s.sees m u k i)).blocked = false) (hx : (f (s.sees m u k i)).effects = [.cmd x])
    (hc : (f (s.sees m u k i)).cls = .engine ∨ (f (s.sees m u k i)).cls = .control)
    (image : (f (s.sees m u k i)).image = none) :
    exec i s = .next (applyCmd (s.left m u k 2 id) m u k x) :=
  exec_of_command h.opened he (control_issues h static dyn hr hn (.inl loop) free
    (by simpa [landCount, hx, Effect.lands] using h.room.le) image) hx hc

theorem runs_of_jump {reads : List (BitVec 6)} {target : BitVec 15} (h : s.Ready m u k reads [])
    (he : exec i s = runSyl s i true f) (static : (f (s.sees m u k i)).static = []) (dyn : (f (s.sees m u k i)).dyn = [])
    (hr : (f (s.sees m u k i)).reads = reads.map (s.ps m u k)) (hn : (f (s.sees m u k i)).names = [])
    (loop : (f (s.sees m u k i)).loop = .none) (free : (f (s.sees m u k i)).blocked = false)
    (hx : (f (s.sees m u k i)).effects = jumpIf true target) (hc : (f (s.sees m u k i)).cls = .control)
    (image : (f (s.sees m u k i)).image = none) :
    s.Runs m u k i fun c => c.onStrand k fun x => { x with landing := x.landing ++ [], pc := target, idleUntil := s.cycle + 3 } := by
  simp only [List.append_nil]
  exact (exec_of_control h he static dyn hr (by rw [hn]; exact fun _ h => (List.not_mem_nil h).elim) loop free hx (.inr hc)
    image).trans (congrArg Host.Outcome.next (onStrand_left 2 k id fun st => st.jump s.cycle target))

theorem sends_of_noJump {reads : List (BitVec 6)} (h : s.Ready m u k reads [])
    (he : exec i s = runSyl s i true f) (static : (f (s.sees m u k i)).static = []) (dyn : (f (s.sees m u k i)).dyn = [])
    (hr : (f (s.sees m u k i)).reads = reads.map (s.ps m u k)) (hn : (f (s.sees m u k i)).names = [])
    (loop : (f (s.sees m u k i)).loop = .none) (free : (f (s.sees m u k i)).blocked = false)
    (hx : (f (s.sees m u k i)).effects = []) (image : (f (s.sees m u k i)).image = none) : s.Sends m u k i [] :=
  sends_of_lands [] h.opened he (control_issues h static dyn hr (by rw [hn]; exact fun _ h => (List.not_mem_nil h).elim)
    (.inl loop) free (by rw [landCount_lands [] hx]; exact h.room.le) image) hx

/-- A branch on a scalar register (R161). -/
theorem branchS {a : BitVec 6} {o : BitVec 17} {p : Word → Bool} (h : s.Ready m u k [a] []) (hi : i.wellFormed = true)
    (he : exec i s = runSyl s i true fun v => sylBranchS v a o p) :
    (p (s.rs m u k a) = true → s.Runs m u k i fun c => c.onStrand k fun x => { x with
      landing := x.landing ++ [], pc := BitVec.ofInt 15 ((s.strand m u k).pc.toNat + o.toInt), idleUntil := s.cycle + 3 }) ∧
    (p (s.rs m u k a) = false → s.Sends m u k i []) := by
  have static : (sylBranchS (s.sees m u k i) a o p).static = [] :=
    List.append_eq_nil_iff.2 ⟨illegal_nil hi, declS_nil h.declared⟩
  refine ⟨fun hp => runs_of_jump h he static rfl rfl rfl rfl rfl ?_ rfl rfl, fun hp => sends_of_noJump h he static rfl rfl rfl rfl rfl
    ?_ rfl⟩
  · rw [← target_eq (i := i), ← hp]; rfl
  · exact if_neg (Bool.eq_false_iff.1 hp)

/-- A branch on a predicate (R161). -/
theorem branchQ {a : BitVec 6} {o : BitVec 17} {p : Word → Bool} (h : s.Ready m u k [] [])
    (hq : s.DeclaresQ m u k [a.toNat]) (hi : i.wellFormed = true) (he : exec i s = runSyl s i true fun v => sylBranchQ v a o p) :
    (p (s.rq m u k a.toNat) = true → s.Runs m u k i fun c => c.onStrand k fun x => { x with
      landing := x.landing ++ [], pc := BitVec.ofInt 15 ((s.strand m u k).pc.toNat + o.toInt), idleUntil := s.cycle + 3 }) ∧
    (p (s.rq m u k a.toNat) = false → s.Sends m u k i []) := by
  have static : (sylBranchQ (s.sees m u k i) a o p).static = [] := List.append_eq_nil_iff.2 ⟨illegal_nil hi, declQ_nil hq⟩
  refine ⟨fun hp => runs_of_jump h he static rfl rfl rfl rfl rfl ?_ rfl rfl, fun hp => sends_of_noJump h he static rfl rfl rfl rfl rfl
    ?_ rfl⟩
  · rw [← target_eq (i := i), ← hp]; rfl
  · exact if_neg (Bool.eq_false_iff.1 hp)

end control

/-- Settles O35: each branch by its condition, and call by its link and its jump. -/
theorem branches : Obligations.Branches := by
  unfold Obligations.Branches
  intro s m u k a o st target taken falls next
  have ht (i : Instr) : (s.sees m u k i).target o = target := target_eq o
  refine ⟨fun h => ?_, fun h => ⟨fun ha => ⟨?_, ?_⟩, fun ha => ⟨?_, ?_⟩, ?_⟩, fun h ha hq => ⟨fun hx => ⟨?_, ?_⟩,
    fun hx => ⟨?_, ?_⟩, fun hx hx' => ⟨?_, ?_⟩⟩, fun h => ?_⟩
  · exact runs_of_jump h (exec_br ..) (illegal_nil rfl) rfl rfl rfl rfl rfl (congrArg (jumpIf true) (ht _)) rfl rfl
  · exact (branchS h rfl (exec_bz ..)).1 (beq_iff_eq.2 ha)
  · exact (branchS h rfl (exec_bnz ..)).2 (bne_eq_false_iff_eq.2 ha)
  · exact (branchS h rfl (exec_bz ..)).2 (beq_eq_false_iff_ne.2 ha)
  · exact (branchS h rfl (exec_bnz ..)).1 (bne_iff_ne.2 ha)
  · exact runs_of_jump h (exec_jr ..) (List.append_eq_nil_iff.2 ⟨illegal_nil rfl, declS_nil h.declared⟩) rfl rfl rfl rfl rfl rfl
      rfl rfl
  · exact (branchQ (i := .bqa true a o) h hq (decide_eq_true ha) (exec_bqa ..)).1 (beq_iff_eq.2 hx)
  · exact (branchQ (i := .bqn true a o) h hq (decide_eq_true ha) (exec_bqn ..)).2 (by rw [hx]; rfl)
  · exact (branchQ (i := .bqa true a o) h hq (decide_eq_true ha) (exec_bqa ..)).2 (by rw [hx]; rfl)
  · exact (branchQ (i := .bqn true a o) h hq (decide_eq_true ha) (exec_bqn ..)).1 (beq_iff_eq.2 hx)
  · exact (branchQ (i := .bqa true a o) h hq (decide_eq_true ha) (exec_bqa ..)).2 (beq_eq_false_iff_ne.2 hx)
  · exact (branchQ (i := .bqn true a o) h hq (decide_eq_true ha) (exec_bqn ..)).2 (beq_eq_false_iff_ne.2 hx')
  · have hk := h.opened.strand
    refine (exec_of_issues h.opened (exec_call ..) (control_issues h
      (List.append_eq_nil_iff.2 ⟨illegal_nil rfl, declS_nil h.declared⟩) rfl rfl (fun _ hp => hp) (.inl rfl) rfl h.room)).trans ?_
    refine (congrArg Host.Outcome.next ?_)
    rw [orderedEffects_control rfl]
    show State.onStrand { (s.left m u k 1 id).onStrand m u k fun x =>
      { x with landing := x.landing ++ [s.result m u k (.s 63) (.word next) 1] } with seq := s.seq + 2 } m u k
        (fun x => x.jump s.cycle ((s.sees m u k (.call true o)).target o)) = _
    rw [onStrand_left, ht]
    refine (onStrand_left (s := s) 2 k (fun c => c.onStrand k fun x =>
      { x with landing := x.landing ++ [s.result m u k (.s 63) (.word next) 1] }) fun x => x.jump s.cycle target).trans ?_
    simp only [onStrand_onStrand _ hk]
    rfl

end Sys2Proof.Machine
end

section
/-! Bundles that wait, and wait, halt, yield and fence (R163 to R165, R196). -/

namespace Sys2Proof.Machine

-- One proof after the other, which keeps the memory of a build low.
set_option Elab.async false

section waits

variable {s : State} {m u k : Nat} {i : Instr} {f : View → Syl}

/-- A last syllable, alone in its bundle, that would issue but for a resource: it waits for that (R434, item 4). -/
theorem exec_of_blocked (ho : s.Opened m u k) (he : exec i s = runSyl s i true f)
    (h : { f (s.sees m u k i) with blocked := false }.Issues (s.strand m u k)) (hb : (f (s.sees m u k i)).blocked = true) :
    exec i s = .next (waitBundle s { s.nextBundle m u k with syls := [f (s.sees m u k i)] }) := by
  rw [he, runSyl_closes ho]
  generalize f (s.sees m u k i) = y at h hb ⊢
  have hstatic : staticTrap [y] = none := staticTrap_single h.static
  have hpend : pendingStall (s.strand m u k) [y] = false := pendingStall_single h.pend
  have hl : y.loop = .none ∨ y.loop = .start ∨ y.loop = .fin := h.loop
  have hstop : loopCaseOf [y] ≠ .stop ∧ loopCaseOf [y] ≠ .park := by rcases hl with e | e | e <;> simp [loopCaseOf_single, e]
  have himage : ∀ b, y.checkImage s b = y := fun _ => checkImage_none h.image
  have hdyn : dynTrap (s.strand m u k) [y] = none := dynTrap_single h.dyn h.notes
  simp [closeBundle, hstatic, hpend, hstop, himage, hdyn, hb]

theorem markWaits_none {b : Bundle} {y : Syl} (hb : b.syls = [y]) (hc : y.fbcWait = []) (hs : y.starved = false) :
    markWaits s b = s := by
  simp [markWaits, hb, hc, hs]

/-- A syllable that waits for no credits of a channel begins its own wait, and stalls. -/
theorem waitBundle_single {y : Syl} (hc : y.fbcWait = []) (hs : y.starved = false) :
    waitBundle s { s.nextBundle m u k with syls := [y] } =
      stallBundle (beginWait s m u k y.begins) { s.nextBundle m u k with syls := [y] } := by
  rw [waitBundle, markWaits_none rfl hc hs]
  by_cases hb : y.begins = .nothing
  · simp [hb, beginWait]
  · simp [hb]

/-- Where it begins no wait, its strand alone notes the cycle of its first try. -/
theorem stalled_of_blocked (ho : s.Opened m u k) (he : exec i s = runSyl s i true f)
    (h : { f (s.sees m u k i) with blocked := false }.Issues (s.strand m u k)) (hb : (f (s.sees m u k i)).blocked = true)
    (hc : (f (s.sees m u k i)).fbcWait = []) (hs : (f (s.sees m u k i)).starved = false)
    (hn : (f (s.sees m u k i)).begins = .nothing) : exec i s = .next (s.stalled m u k (s.strand m u k).waiting) := by
  rw [exec_of_blocked ho he h hb, waitBundle_single hc hs, hn]
  rfl

/-- What a strand's waiting bundle has noted stays beside the cycle of its first try. -/
theorem stallBundle_waits {b : Bundle} (hm : b.m = m) (hu : b.u = u) (hk : b.k = k) (hk4 : k < 4) (g : Waits → Waits) :
    stallBundle (s.onStrand m u k fun st => { st with waiting := g st.waiting }) b =
      s.stalled m u k (g (s.strand m u k).waiting) := by
  subst hm hu hk
  have hc (t : State) (f g : Strand → Strand) : (t.onStrand b.m b.u b.k f).onStrand b.m b.u b.k g =
      t.setCell b.m b.u ((t.cell b.m b.u).setStrand b.k (g (f (t.strand b.m b.u b.k)))) := by
    simp only [State.onStrand, State.onCell, State.cell_setCell, and_self, if_true, State.setCell_setCell,
      onStrand_onStrand _ hk4]
    rfl
  exact hc { s with cur := none, last := .stalled } (fun st => { st with waiting := g st.waiting }) fun st => st.firstTry s.cycle

theorem stallBundle_send {b : Bundle} (n : Nat) (a : Addr) (vc : Nat) (x : Body) :
    stallBundle (s.send m u n a vc x) b = (stallBundle s b).send m u n a vc x := by
  have hc : (stallBundle s b).chip m = s.chip m := congrArg (fun io : IoDie => io.chip) (State.io_onStrand ..)
  rw [State.send, State.send, hc]
  rfl

/-- A wait on a unit begins once. -/
theorem stallBundle_unit {b : Bundle} {level : Nat} {x : Word} (hm : b.m = m) (hu : b.u = u) (hk : b.k = k) (hk4 : k < 4)
    (h : (s.strand m u k).waiting.unit = none) :
    stallBundle (beginWait s m u k (.unit level x)) b =
      (s.stalled m u k { (s.strand m u k).waiting with unit := some ⟨s.cycle, none, false, false⟩ }).send m u k
        ⟨s.chip m, ioUnit⟩ 6 (.unitQuery level (x.toNat % 65536) k s.cycle) := by
  have hn : ¬ (s.strand m u k).waiting.unit.isSome = true := by rw [h]; exact Bool.false_ne_true
  rw [beginWait, if_neg hn, stallBundle_send,
    stallBundle_waits hm hu hk hk4 fun w => { w with unit := some ⟨s.cycle, none, false, false⟩ }]

/-- A record that its cell does not hold, or that has ended, has fired (R163). -/
theorem completion_record {c : Cell} {io : IoDie} {x : Word} (hx : x.toNat / 2 ^ 16 % 4 = 0)
    (h : ∀ e, c.entryOf (x.setWidth 16) = some e → (c.record e).state = .ended) : (completion c io x).getLsbD 31 = true := by
  have he : BitVec.ofNat 16 (x.toNat % 2 ^ 16) = x.setWidth 16 := by
    apply BitVec.eq_of_toNat_eq; simp
  have fired (n : Nat) (hn : n < 4) : (firedWord true n).getLsbD 31 = true := by
    interval_cases n <;> decide
  unfold completion
  rw [hx]
  simp only [he]
  cases hc : c.entryOf (x.setWidth 16) with
  | none => exact fired 0 (by decide)
  | some e =>
    simp only [h e hc]
    refine fired _ ?_
    cases (c.record e).status <;> decide

/-- The record of a strand that is not cancelled lets its `wait` go on. -/
theorem wait_loop {b : Bool} (h : (s.cell m u).spire = true ∨ b = false) :
    (if (!(s.cell m u).spire && b) = true then LoopCase.stop else .none) = .none := by
  rcases h with h | h <;> simp [h]

theorem halt_static (h : (!(s.cell m u).spire && (s.strand m u k).tl != 0) = false) :
    (s.sees m u k (.halt true)).illegal true ++ (s.sees m u k (.halt true)).illegalIf
      (!(s.cell m u).spire && (s.strand m u k).tl != 0) = [] := by
  rw [h]; exact List.append_eq_nil_iff.2 ⟨illegal_nil (i := .halt true) rfl, rfl⟩

/-- A halt that need not wait acts on its strand as `g` says (R164). -/
theorem runs_halt {g : Cell → Cell} (h : s.Ready m u k [] [])
    (htl : (!(s.cell m u).spire && (s.strand m u k).tl != 0) = false) (hp : (s.strand m u k).pend = [])
    (hbusy : (s.cell m u).busy (s.strand m u k).recid.toNat (some k) = false)
    (hb : (!(s.cell m u).spire && !(s.strand m u k).sibling && !((s.cell m u).siblings (s.strand m u k).entry).isEmpty) = false)
    (hg : (s.wentCell m u k).halt k = g (s.wentCell m u k)) : s.Runs m u k (.halt true) g := by
  have free : (!(s.strand m u k).pend.isEmpty || (s.cell m u).busy (s.strand m u k).recid.toNat (some k) ||
      (!(s.cell m u).spire && !(s.strand m u k).sibling && !((s.cell m u).siblings (s.strand m u k).entry).isEmpty)) = false := by
    rw [hp, hbusy, hb]; rfl
  refine (exec_of_control h (exec_halt ..) (halt_static htl) rfl rfl (fun _ hp => hp) rfl free rfl (.inr rfl) rfl).trans
    (congrArg Host.Outcome.next ((onCell_left 2 id fun c => c.halt k).trans ?_))
  rw [State.left, State.left, id_eq, hg]

end waits

/-- Settles O37: each of the three by the one command of its syllable, or by the wait that it begins. -/
theorem waitHaltYield : Obligations.WaitHaltYield := by
  unfold Obligations.WaitHaltYield
  intro s m u k a st c x level
  refine ⟨fun h hc => ?_, fun h hs htl hb hsib => ?_, fun h hp hbusy => ⟨fun hs => ?_, fun hs htl hb hsib => ?_, fun hs htl hb => ?_⟩,
    fun h => ?_⟩
  · have static : (s.sees m u k (.wait true a)).illegal true ++ (s.sees m u k (.wait true a)).declS [a] = [] :=
      List.append_eq_nil_iff.2 ⟨illegal_nil rfl, declS_nil h.declared⟩
    have room : (s.strand m u k).landing.length ≤ 32 := h.room.le
    refine ⟨fun hx => ?_, fun hl hu => ?_⟩
    · have free : (if level = 0 then !(completion c (s.mod m).io x).getLsbD 31
          else !(st.waiting.unit.any fun w => w.answered)) = false := by
        rcases hx with ⟨hl, he⟩ | ⟨hl, w, hw, ha⟩
        · rw [if_pos hl, completion_record hl he]; rfl
        · rw [if_neg hl, hw, Option.any_some, ha]; rfl
      refine (exec_of_issues h.opened (exec_wait ..) (control_issues h static rfl rfl (fun _ hp => hp) (.inl (wait_loop hc)) free
        room)).trans ?_
      rw [orderedEffects_control rfl]
      exact congrArg Host.Outcome.next (onStrand_left (s := { s with seq := s.seq + 1 }) 1 k id fun y => { y with lacq := s.cycle })
    · have blocked : (if level = 0 then !(completion c (s.mod m).io x).getLsbD 31
          else !(st.waiting.unit.any fun w => w.answered)) = true := by
        rw [if_neg hl, hu]; rfl
      refine (exec_of_blocked h.opened (exec_wait ..) (control_issues h static rfl rfl (fun _ hp => hp) (.inl (wait_loop hc)) rfl
        room) blocked).trans (congrArg Host.Outcome.next ?_)
      rw [waitBundle_single rfl rfl]
      have begins : (if level = 0 then BeginWait.nothing else .unit level x) = .unit level x := if_neg hl
      exact (congrArg (fun w => stallBundle (beginWait s m u k w) _) begins).trans (stallBundle_unit rfl rfl rfl h.opened.strand hu)
  · have static : (s.sees m u k (.halt true)).illegal true ++ (s.sees m u k (.halt true)).illegalIf
        (!(s.cell m u).spire && st.tl != 0) = [] := halt_static (by rw [htl]; exact Bool.and_false _)
    have blocked : (!st.pend.isEmpty || c.busy st.recid.toNat (some k) ||
        (!c.spire && !st.sibling && !(c.siblings st.entry).isEmpty)) = true := by
      rw [hs, hb, List.isEmpty_eq_false_iff.2 hsib]; exact Bool.or_true _
    exact stalled_of_blocked h.opened (exec_halt ..) (control_issues h static rfl rfl (fun _ hp => hp) (.inl rfl) rfl h.room.le)
      blocked rfl rfl rfl
  · refine runs_halt h (by rw [hs]; rfl) hp hbusy (by rw [hs]; rfl) ?_
    exact if_pos hs
  · refine runs_halt h (by rw [htl]; exact Bool.and_false _) hp hbusy (by rw [hsib]; exact Bool.and_false _) ?_
    exact (if_neg (by rw [show (s.wentCell m u k).spire = false from hs]; exact Bool.false_ne_true)).trans
      (if_neg (by rw [strand_wentCell h.opened.strand]; exact Bool.eq_false_iff.1 hb))
  · refine runs_halt h (by rw [htl]; exact Bool.and_false _) hp hbusy (by rw [hb]; simp) ?_
    exact (if_neg (by rw [show (s.wentCell m u k).spire = false from hs]; exact Bool.false_ne_true)).trans
      (if_pos (by rw [strand_wentCell h.opened.strand]; exact hb))
  · have yields : exec (.yield true) s = _ := exec_of_control h (exec_yield ..) (illegal_nil rfl) rfl rfl (fun _ hp => hp) rfl rfl
      rfl (.inr rfl) rfl
    refine ⟨fun hu => ?_, fun hu => ?_⟩
    · exact yields.trans (congrArg Host.Outcome.next (if_pos hu))
    · exact yields.trans (congrArg Host.Outcome.next ((if_neg (Bool.eq_false_iff.1 hu)).trans (onStrand_left 2 k id _)))
/-! ### fence (R196) -/

section fences

variable {s : State} {m u k : Nat} {i : Instr} {f : View → Syl}

/-- A command that changes its cell but no other strand of it changes nothing else. -/
theorem elsewhere_left {g : Cell → Cell}
    (hg : ∀ k', k' ≠ k → (g (s.wentCell m u k)).strand k' = (s.wentCell m u k).strand k') :
    Elsewhere { s with seq := s.seq + 1 } (s.left m u k 2 g) m u k where
  machine := rfl
  modules := fun m' h => (State.mod_setCell ..).trans (if_neg h)
  io := State.io_setCell ..
  cells := fun u' h => (State.cell_setCell ..).trans (if_neg fun e => h e.2)
  strands := fun k' h => by
    have h' := hg k' h
    rw [State.wentCell, Cell.strand_setStrand, if_neg fun e => h e.1] at h'
    rw [State.strand, cell_left]
    exact h'

/-- What a fence leaves in its cell: it may be a release, an acquire or both. -/
def Cell.fenced (c : Cell) (rel acq : Bool) (k cycle : Nat) : Cell :=
  let c := if rel then c.release k cycle else c
  if acq then c.acquire k cycle else c

/-- The effects of a fence, in their order. -/
def fenceEffects (rel acq : Bool) (x : Cmd) : List Effect :=
  (if rel then [.release] else []) ++ (if acq then [.acquire] else []) ++ [.cmd x]

theorem orderedEffects_fence {y : Syl} {rel acq : Bool} {x : Cmd} (hc : y.cls = .memory)
    (he : y.effects = fenceEffects rel acq x) : orderedEffects [y] = fenceEffects rel acq x := by
  rw [orderedEffects_memory hc, he]
  cases rel <;> cases acq <;> rfl

theorem foldl_fence (rel acq : Bool) (next : BitVec 15) (kind scope : Nat) :
    (fenceEffects rel acq (.fence kind scope)).foldl (applyEffect m u k next) (s.left m u k 1 id) =
      s.left m u k 2 fun c => c.fenced rel acq k s.cycle := by
  have two : { s.left m u k 1 id with seq := s.seq + 2 } = s.left m u k 2 id := rfl
  cases rel <;> cases acq
  · exact two
  · exact onCell_left (s := s) 2 id fun c => c.acquire k s.cycle
  · exact onCell_left (s := s) 2 id fun c => c.release k s.cycle
  · exact (congrArg (fun t : State => t.onCell m u fun c => c.acquire k s.cycle)
      (onCell_left (s := s) 2 id fun c => c.release k s.cycle)).trans (onCell_left ..)

theorem fenced_strand (c : Cell) (rel acq : Bool) (k cycle k' : Nat) :
    (c.fenced rel acq k cycle).strand k' =
      if acq = true ∧ k' = k ∧ k < 4 then { c.strand k with lacq := cycle } else c.strand k' := by
  cases rel <;> cases acq <;> simp [Cell.fenced, Cell.acquire, Cell.release] <;> rfl

end fences

/-- Settles O29: its effects are the release and the acquire alone, as its command changes nothing. -/
theorem fenceCompletes : Obligations.FenceCompletes := by
  unfold Obligations.FenceCompletes
  intro s m u k kind scope h hkind hscope v hr hw ht he
  have hk4 := h.opened.strand
  obtain ⟨hrel, hacq⟩ : ((kind == 1 || kind == 2) = true ↔ kind ≠ 0) ∧ ((kind == 0 || kind == 2) = true ↔ kind ≠ 1) := by
    clear hr hw; revert kind; decide
  have hsc : (scope.toNat != 0) = true ↔ scope ≠ 0 := by clear ht hr hw hscope; revert scope; decide
  have hs4 : (scope.toNat == 4) = true ↔ scope = 4 := by clear ht hr hw hscope hsc; revert scope; decide
  let rel := (kind == 1 || kind == 2) && scope.toNat != 0
  let acq := (kind == 0 || kind == 2) && scope.toNat != 0
  have hrel' : rel = true ↔ kind ≠ 0 ∧ scope ≠ 0 := by rw [Bool.and_eq_true, hrel, hsc]
  have hacq' : acq = true ↔ kind ≠ 1 ∧ scope ≠ 0 := by rw [Bool.and_eq_true, hacq, hsc]
  have hwf : (Instr.fence true kind scope).wellFormed = true := Bool.and_eq_true_iff.2 ⟨decide_eq_true hkind, decide_eq_true hscope⟩
  have dyn : (if (kind == 1 || kind == 2) = true then v.lateErr fun x => !x.array && v.inScope scope.toNat ⟨x.chip, x.unit⟩
      else []) = [] := by
    have hl (p : WaitingErr → Bool) : v.lateErr p = [] := by
      rw [View.lateErr, show v.st.errs = [] from he]; rfl
    rw [hl, ite_self]
  have free : (((kind == 0 || kind == 2) && v.readsOpen scope.toNat) || ((kind == 1 || kind == 2) && v.writesOpen scope.toNat) ||
      (scope.toNat == 4 && v.tokensOpen)) = false := by
    simp only [Bool.or_eq_false_iff, Bool.and_eq_false_imp]
    exact ⟨⟨fun e => hr (hacq.1 e), fun e => hw (hrel.1 e)⟩, fun e => ht (hs4.1 e)⟩
  refine ⟨s.left m u k 2 fun c => c.fenced rel acq k s.cycle, ?_, elsewhere_left fun k' e => ?_, ?_, ?_⟩
  · refine (exec_of_issues h.opened (exec_fence ..) (control_issues h (illegal_nil hwf) dyn rfl (fun _ hp => hp) (.inl rfl) free
      ?_)).trans ?_
    · have hl : (fenceEffects rel acq (.fence kind.toNat scope.toNat)).countP Effect.lands = 0 := by
        cases rel <;> cases acq <;> rfl
      rw [landCount, List.flatMap_cons, List.flatMap_nil, List.append_nil]
      exact (congrArg (_ + ·) hl).trans_le h.room.le
    · rw [orderedEffects_fence (rel := rel) (acq := acq) rfl rfl, foldl_fence]
  · rw [fenced_strand, if_neg fun x => e x.2.1]
  · have hc : (s.wentCell m u k).strand k = s.went m u k := strand_wentCell hk4
    rw [cell_left]
    by_cases hx : kind ≠ 0 ∧ scope ≠ 0
    · rw [Cell.fenced, if_pos (hrel'.2 hx), Cell.release, hc]
      simp only [if_pos hx]
      cases acq <;> rfl
    · rw [Cell.fenced, if_neg (mt hrel'.1 hx)]
      simp only [if_neg hx]
      cases acq <;> rfl
  · rw [State.strand, cell_left, fenced_strand, strand_wentCell hk4]
    by_cases hx : kind ≠ 1 ∧ scope ≠ 0
    · rw [if_pos ⟨hacq'.2 hx, rfl, hk4⟩, if_pos hx]; rfl
    · rw [if_neg fun e => hx (hacq'.1 e.1), if_neg hx]; rfl
end Sys2Proof.Machine
end

section
/-! xlat, hinv and hchk, and the writes of translation-set entries (R101, R114 to R116). -/

namespace Sys2Proof.Machine

-- One proof after the other, which keeps the memory of a build low.
set_option Elab.async false

section handles

variable {s : State} {m u k : Nat} {i : Instr} {f : View → Syl}

/-- A syllable that makes a handle. -/
theorem gives_of_sylToH {d : BitVec 6} {srcs : List (BitVec 6)} {val : Handle} {lat : Nat} (h : s.Ready m u k srcs [])
    (hd : s.DeclaresH m u k [d.toNat]) (he : exec i s = runSyl s i true f) (hi : i.wellFormed = true)
    (hf : f (s.sees m u k i) = sylToH (s.sees m u k i) d srcs val lat) : s.Gives m u k i (.h d.toNat) (.handle val) lat :=
  have static : (sylToH (s.sees m u k i) d srcs val lat).static = [] :=
    List.append_eq_nil_iff.2 ⟨List.append_eq_nil_iff.2 ⟨illegal_nil hi, declH_nil hd⟩, declS_nil h.declared⟩
  gives_of_syl h he (hf ▸ static) (hf ▸ rfl) (hf ▸ rfl) (hf ▸ fun _ hp => hp) (hf ▸ rfl) (hf ▸ rfl) (hf ▸ rfl) (hf ▸ rfl)

/-- The first entry that is valid and has the page's tag is the one that is looked up. -/
theorem lookup_eq_some {l : Tab XEntry} {p : Nat × XEntry → Bool} {j : Nat} {x : XEntry} (hm : (j, x) ∈ l) (hx : p (j, x) = true)
    (hl : ∀ e ∈ l.takeWhile fun e => e.1 != j, p e = false) (hu : ∀ e ∈ l, e.1 = j → e.2 = x) : l.find? p = some (j, x) := by
  induction l with
  | nil => cases hm
  | cons e r ih =>
    by_cases he : e.1 = j
    · have hj : e = (j, x) := Prod.ext he (hu e List.mem_cons_self he)
      rw [hj, List.find?_cons_of_pos hx]
    · have ht : (e :: r).takeWhile (fun e => e.1 != j) = e :: r.takeWhile fun e => e.1 != j :=
        List.takeWhile_cons_of_pos (bne_iff_ne.2 he)
      rw [ht] at hl
      have hne : (j, x) ≠ e := fun h => he (h ▸ rfl)
      rw [List.find?_cons_of_neg (by rw [hl e List.mem_cons_self]; exact Bool.false_ne_true)]
      exact ih ((List.mem_cons.1 hm).resolve_left hne) (fun y hy => hl y (List.mem_cons_of_mem _ hy))
        fun y hy => hu y (List.mem_cons_of_mem _ hy)

theorem xset_slotHandles (c : Cell) : c.slotHandles.xset = c.xset :=
  List.foldlRecOn (motive := fun x : Cell => x.xset = c.xset) _ _ rfl fun x h p _ => by
    split <;> exact h

/-- A write of a word of the translation set changes its entry alone. -/
theorem xentry_writeX (c : Cell) (i w : Nat) (x : Word) (j : Nat) :
    (c.writeX i w x).xentry j = if j = i then (c.xentry i).write w x else c.xentry j := by
  rw [Cell.writeX, Cell.xentry, xset_slotHandles]
  exact tget_tput ..

theorem handles_writeX (c : Cell) (i w : Nat) (x : Word) (k : Nat) :
    ((c.writeX i w x).strand k).h = (c.strand k).h.map (Handle.revokeIf i) := by
  rw [Cell.writeX, Cell.strand, strands_slotHandles]
  unfold Cell.strand Vector.getD
  by_cases h : k < 4
  · simp [h, Strand.revoke]
  · have hz : Handle.zero = Handle.zero.revokeIf i := (if_neg (by simp [Handle.valid, Handle.zero])).symm
    have hr : Strand.reset.h.map (Handle.revokeIf i) = Strand.reset.h := by
      ext j hj : 1
      rw [Vector.getElem_map]
      exact (congrArg _ (Vector.getElem_replicate ..)).trans (hz.symm.trans (Vector.getElem_replicate ..).symm)
    simp [h, hr]

theorem revokeIf_eq (i : Nat) (h : Handle) : h.revokeIf i =
    if h.w0.getLsbD 31 = true ∧ h.w0.getLsbD 29 = false ∧ h.w0.toNat % 256 = i then
      { h with w0 := (h.w0 &&& 0x7FFFFFFF) ||| 0x40000000 } else h := by
  unfold Handle.revokeIf Handle.valid Handle.win Handle.idx Handle.revoke
  simp only [Bool.and_eq_true, Bool.not_eq_true', beq_iff_eq, and_assoc]

end handles

/-- Settles O28: the entry that xlat finds, and the handles that a write of it revokes. -/
theorem handleInstructions : Obligations.HandleInstructions := by
  unfold Obligations.HandleInstructions
  refine ⟨fun s m u k d a b j x => ?_, fun c i w x k => ?_⟩
  · intro hi lo page old
    refine ⟨fun h hd hh hm hv ht hl hu => ?_, fun h hd hh => ?_, fun h ha hh => ?_⟩
    · have found : (s.cell m u).lookup page = some (j, x) :=
        lookup_eq_some hm (Bool.and_eq_true_iff.2 ⟨hv, beq_iff_eq.2 ht⟩) (fun e he => by
          rcases hl e he with h | h
          · exact Bool.and_eq_false_imp.2 fun hv => absurd hv (by rw [XEntry.valid, h]; exact Bool.false_ne_true)
          · rw [beq_eq_false_iff_ne.2 h, Bool.and_false]) hu
      refine gives_of_sylToH h hh (exec_xlat ..) (decide_eq_true hd) ?_
      exact congrArg (fun r : Option (Nat × XEntry) => match r with
        | some (i, x) => sylToH (s.sees m u k (.xlat true d a b)) d [a, b] (pageHandle i x hi lo) 6
        | none => { sylToH (s.sees m u k (.xlat true d a b)) d [a, b] Handle.zero 6 with dyn := [trapReq causeXlatMiss lo] }) found
    · exact gives_of_sylToH h hh (exec_hinv ..) (decide_eq_true hd) rfl
    · exact givesS_of_read h (exec_hchk ..) (List.append_eq_nil_iff.2 ⟨List.append_eq_nil_iff.2
        ⟨illegal_nil (i := .hchk true d a) (decide_eq_true ha), declS_nil h.declared⟩, declH_nil hh⟩) rfl rfl rfl rfl rfl rfl rfl
  · refine ⟨(xentry_writeX ..).trans (if_pos rfl), fun j h => (xentry_writeX ..).trans (if_neg h), ?_⟩
    refine (handles_writeX ..).trans (congrArg (Vector.map · _) (funext (revokeIf_eq i)))

end Sys2Proof.Machine
end

section
/-! Syllables of class E: their checks, their effects and what their commands leave (R63, R70, R79, R84). -/

namespace Sys2Proof.Machine

-- One proof after the other, which keeps the memory of a build low.
set_option Elab.async false

section engine

variable {s : State} {m u k : Nat} {i : Instr} {f : View → Syl} {t : BitVec 6}

/-! ### Token registers (R63) -/

theorem ps_zero : s.ps m u k 0 = 0 := rfl

/-- Only s0 is register 0. -/
theorem ps_ne_zero (h : t ≠ 0) : s.ps m u k t ≠ 0 := by
  have ht : t.toNat ≠ 0 := fun e => h (BitVec.eq_of_toNat_eq e)
  unfold State.ps physS rotated
  split_ifs <;> omega

theorem sees_pt : (s.sees m u k i).pt t = s.ps m u k t := by
  by_cases h : t = 0
  · subst h; rfl
  · exact if_neg h

theorem State.Ready.tokens {reads : List (BitVec 6)} (h : s.Ready m u k reads [t]) : s.Ready m u k reads (tokenRegs t) := by
  have hs : ∀ r ∈ tokenRegs t, r ∈ [t] := by unfold tokenRegs; split_ifs <;> simp
  exact
    { opened := h.opened
      declared := h.declared.mono fun r hr => List.mem_append.2 ((List.mem_append.1 hr).imp_left (hs r))
      settled :=
        { pend := fun p hp => ⟨(h.settled.pend p hp).1, fun e => (h.settled.pend p hp).2 <| by
            obtain ⟨r, hr, hp⟩ := List.mem_map.1 e
            exact hp ▸ List.mem_map_of_mem (hs r hr)⟩
          notes := h.settled.notes }
      room := h.room }

theorem tokenRegs_names : ∀ p ∈ (if t = 0 then [] else [s.ps m u k t]), p ∈ (tokenRegs t).map (s.ps m u k) := by
  unfold tokenRegs
  split_ifs <;> simp

/-- The checks that every syllable of class E makes. -/
theorem engine_static {reads : List (BitVec 6)} {b : Bool} (h : s.Ready m u k reads (tokenRegs t))
    (hi : (s.sees m u k i).illegal b = []) : (engineSyl (s.sees m u k i) b reads t).static = [] := by
  have ht : s.DeclaresS m u k [t] := by
    by_cases h0 : t = 0
    · exact .inr fun r hr => by rw [List.mem_singleton.1 hr, h0]; exact Nat.zero_le _
    · exact h.declared.mono fun r hr => List.mem_append.2 (.inl (by rwa [tokenRegs, if_neg h0]))
  exact List.append_eq_nil_iff.2 ⟨List.append_eq_nil_iff.2 ⟨hi, declS_nil
    (h.declared.mono fun r hr => List.mem_append.2 (.inr hr))⟩, declS_nil ht⟩

/-! ### Effects and answers -/

/-- A command of class E, after effects that change its cell as `g` says. -/
theorem exec_of_engine {reads names : List (BitVec 6)} {es : List Effect} {x : Cmd} {g : Cell → Cell} (h : s.Ready m u k reads names)
    (he : exec i s = runSyl s i true f) (static : (f (s.sees m u k i)).static = []) (dyn : (f (s.sees m u k i)).dyn = [])
    (hr : (f (s.sees m u k i)).reads = reads.map (s.ps m u k))
    (hn : ∀ p ∈ (f (s.sees m u k i)).names, p ∈ names.map (s.ps m u k)) (loop : (f (s.sees m u k i)).loop = .none)
    (free : (f (s.sees m u k i)).blocked = false) (hx : (f (s.sees m u k i)).effects = es ++ [.cmd x])
    (hes : ∀ e ∈ es, e.lands = false ∧ e.reads = false) (hc : (f (s.sees m u k i)).cls = .engine)
    (image : (f (s.sees m u k i)).image = none)
    (hg : es.foldl (applyEffect m u k ((s.strand m u k).pc + 1)) (s.left m u k 1 id) = s.left m u k 1 g) :
    exec i s = .next (applyCmd (s.left m u k 2 g) m u k x) := by
  have all : ∀ e ∈ (f (s.sees m u k i)).effects, e.lands = false ∧ e.reads = false := by
    rw [hx]
    exact fun e he => (List.mem_append.1 he).elim (hes e) fun h => by rw [List.mem_singleton.1 h]; exact ⟨rfl, rfl⟩
  have hl : (f (s.sees m u k i)).effects.filter Effect.lands = [] :=
    List.filter_eq_nil_iff.2 fun e he => Bool.eq_false_iff.1 (all e he).1
  have hr' : (f (s.sees m u k i)).effects.filter Effect.reads = [] :=
    List.filter_eq_nil_iff.2 fun e he => Bool.eq_false_iff.1 (all e he).2
  have hw : ((f (s.sees m u k i)).effects.filter fun e => e.writes || e.syncs) = (f (s.sees m u k i)).effects :=
    List.filter_eq_self.2 fun e he => by
      rw [Effect.writes, (all e he).1, (all e he).2]
      cases e.syncs <;> rfl
  have room : (s.strand m u k).landing.length + landCount [f (s.sees m u k i)] ≤ 32 := by
    rw [landCount, List.flatMap_cons, List.flatMap_nil, List.append_nil, List.countP_eq_length_filter, hl]
    exact h.room.le
  rw [exec_of_issues h.opened he (control_issues h static dyn hr hn (.inl loop) free room image), orderedEffects_engine hc, hl, hr',
    hw, hx, List.nil_append, List.nil_append, List.foldl_append, hg]
  rfl

/-- Only what a command makes of its own cell counts. -/
theorem left_congr {n : Nat} {f g : Cell → Cell} (h : f (s.wentCell m u k) = g (s.wentCell m u k)) :
    s.left m u k n f = s.left m u k n g := by
  rw [State.left, State.left, h]

theorem awaits_eq (c : Cell) : c.awaits k s.op (s.ps m u k t) = s.asks m u k t c := rfl

theorem answer_eq (c : Cell) (x : Word) : c.answer s.cycle k s.op (s.ps m u k t) x = s.answers m u k t x [] c := by
  unfold Cell.answer State.answers
  split_ifs with h
  · rfl
  · rw [State.asks, if_neg h]; rfl

theorem deliverAt_eq (h : t ≠ 0) (c : Cell) (x : Word) (ns : List Note) :
    (s.asks m u k t c).deliverAt (s.cycle + 1) k s.op (s.ps m u k t) x ns = s.answers m u k t x ns c := by
  rw [State.answers, State.asks, if_neg (ps_ne_zero h), if_neg (ps_ne_zero h)]; rfl

theorem recid_asks (c : Cell) : ((s.asks m u k t c).strand k).recid = (c.strand k).recid := by
  unfold State.asks
  split_ifs
  · rfl
  · rw [Cell.strand_onStrand]
    split_ifs <;> rfl

theorem answers_proj {α : Type} (p : Cell → α) (hp : ∀ (c : Cell) (g : Strand → Strand), p (c.onStrand k g) = p c)
    (hd : ∀ (c : Cell) (ds), p { c with deliveries := ds } = p c) (c : Cell) (x : Word) (ns : List Note) :
    p (s.answers m u k t x ns c) = p c := by
  unfold State.answers State.asks
  split_ifs
  · rfl
  · exact (hd ..).trans (hp ..)

@[simp] theorem chip_left (n : Nat) (g : Cell → Cell) : (s.left m u k n g).chip m = s.chip m :=
  congrArg (fun io : IoDie => io.chip) (State.io_setCell ..)

theorem acquires_left (n : Nat) (g : Cell → Cell) (next : BitVec 15) :
    applyEffect m u k next (s.left m u k n g) .acquire = s.left m u k n fun c => (g c).acquire k s.cycle :=
  onCell_left n g fun c => c.acquire k s.cycle

theorem releases_left (n : Nat) (g : Cell → Cell) (next : BitVec 15) :
    applyEffect m u k next (s.left m u k n g) .release = s.left m u k n fun c => (g c).release k s.cycle :=
  onCell_left n g fun c => c.release k s.cycle

/-- The write of a range is noted at the detector that sees it (R202). -/
theorem engineRace_left (j : Nat) (g : Cell → Cell) (next : BitVec 15) (off n : Nat)
    (hr : (g (s.wentCell m u k)).raceAt off = (s.cell m u).raceAt off) :
    ((s.sees m u k i).engineRace off n).foldl (applyEffect m u k next) (s.left m u k j g) =
      s.left m u k j fun c => (g c).wroteRange k [(off, n)] := by
  unfold View.engineRace
  by_cases h0 : n = 0
  · rw [if_pos h0, State.left, State.left, Cell.wroteRange, List.foldl_cons, List.foldl_nil, if_pos h0]; rfl
  · have hw : (g (s.wentCell m u k)).wroteRange k [(off, n)] = (g (s.wentCell m u k)).wrote k off := if_neg h0
    rw [if_neg h0, sees_cell]
    cases hc : (s.cell m u).raceAt off with
    | none => rw [State.left, State.left, hw, Cell.wrote, hr, hc]; rfl
    | some r =>
      refine (onCell_left j g fun c => { c with races := c.races.map fun x =>
        if x.off = r.off then { x with wr := some ((c.strand k).recid.toNat, k), wrel := none } else x }).trans ?_
      rw [State.left, State.left, hw, Cell.wrote, hr, hc]

theorem mem_engineRace {v : View} {off n : Nat} : ∀ e ∈ v.engineRace off n, e.lands = false ∧ e.reads = false := by
  intro e he
  unfold View.engineRace at he
  split_ifs at he
  · cases he
  · split at he
    · rw [List.mem_singleton.1 he]; exact ⟨rfl, rfl⟩
    · cases he

end engine

end Sys2Proof.Machine
end

section
/-! The token instructions (R375 to R378). -/

namespace Sys2Proof.Machine

-- One proof after the other, which keeps the memory of a build low.
set_option Elab.async false

section tokens

variable {s : State} {m u k : Nat} {a b t : BitVec 6} {x y : Word} {c c' : Cell}

/-- Here a token counts as landed. -/
theorem joinDone_iff {chip : Nat} : c.joinDone chip u x = true ↔ x = 0 ∨ tokenLocal chip u x = true ∧ c.tokenPending x = false := by
  simp [Cell.joinDone]

/-- What an observer of a token meets is a matter of the cell's table. -/
theorem tokensOf_congr (h : c.tokens = c'.tokens) (chip u : Nat) (x : Word) : c.tokensOf chip u x = c'.tokensOf chip u x := by
  have ht (i : Nat) : c.token i = c'.token i := congrArg (fun t => tget TokEntry.free t i) h
  have hj (n : Nat) (ts : List Word) : c.joined chip u n ts = c'.joined chip u n ts := by
    induction n generalizing ts with
    | zero => rfl
    | succ n ih => simp only [Cell.joined, Cell.tokenCurrent, ht, ih]; rfl
  rw [Cell.tokensOf, Cell.tokensOf, hj]

theorem exec_tchk_eq (h : s.Ready m u k [a] [t]) (ht : t ≠ 0) :
    exec (.tchk true a t) s = .next ((s.left m u k 2 id).issueTchk m u k s.op (s.rs m u k a) (s.ps m u k t)) :=
  have hwf : (Instr.tchk true a t).wellFormed = true := bne_iff_ne.2 fun e => ht (BitVec.eq_of_toNat_eq e)
  exec_of_control h.tokens (exec_tchk ..) (engine_static h.tokens (illegal_nil hwf)) rfl rfl tokenRegs_names rfl rfl
    (congrArg (fun n => [Effect.cmd (.tchk (s.rs m u k a) n)]) sees_pt) (.inl rfl) rfl

theorem issueTchk_local (ht : t ≠ 0) (hx : x = 0 ∨ tokenLocal (s.chip m) u x = true) :
    (s.left m u k 2 id).issueTchk m u k s.op x (s.ps m u k t) = s.left m u k 2 fun c =>
      s.answers m u k t (c.tokenStatus x) [.concerns (c.tokensOf (s.chip m) u x)] c := by
  rw [State.issueTchk, chip_left, if_pos hx, onCell_left]
  exact left_congr (deliverAt_eq ht ..)

theorem exec_tjoin_eq (h : s.Ready m u k [a, b] [t]) (ht : t ≠ 0)
    (free : (!(s.cell m u).joinDone (s.chip m) u (s.rs m u k a) && !(s.cell m u).joinDone (s.chip m) u (s.rs m u k b) &&
      !(s.cell m u).spire && (s.cell m u).freeToken.isNone) = false) :
    exec (.tjoin true a b t) s =
      .next ((s.left m u k 2 id).issueTjoin m u k s.op (s.rs m u k a) (s.rs m u k b) (s.ps m u k t)) :=
  have hwf : (Instr.tjoin true a b t).wellFormed = true := bne_iff_ne.2 fun e => ht (BitVec.eq_of_toNat_eq e)
  exec_of_control h.tokens (exec_tjoin ..) (engine_static h.tokens (illegal_nil hwf)) rfl rfl tokenRegs_names rfl free
    (congrArg (fun n => [Effect.cmd (.tjoin (s.rs m u k a) (s.rs m u k b) n)]) sees_pt) (.inl rfl) rfl

theorem lateErr_nil {v : View} (h : v.st.errs = []) (p : WaitingErr → Bool) : v.lateErr p = [] := by
  rw [View.lateErr, h]; rfl

/-! A token is waited for here, in the cell's table, or elsewhere, by the answer to a WATCH (R377). -/

theorem tokenWait_here {v : View} (hx : x = 0 ∨ tokenLocal v.chip v.b.u x = true ∧ v.cell.tokenPending x = false) :
    v.tokenWait x = (false, false) := by
  rcases hx with hx | ⟨hl, hp⟩ <;> unfold View.tokenWait
  · rw [if_pos hx]
  · rw [if_pos hl, hp, ite_self]

theorem tokenWait_pending {v : View} (hl : tokenLocal v.chip v.b.u x = true) (hp : v.cell.tokenPending x = true) :
    v.tokenWait x = (true, false) := by
  have hx : x ≠ 0 := fun e => by simp [e, Cell.tokenPending] at hp
  unfold View.tokenWait
  rw [if_neg hx, if_pos hl, hp]

theorem tokenWait_foreign {v : View} (hx : x ≠ 0) (hl : tokenLocal v.chip v.b.u x = false) :
    (v.cell.waitOf (.strand v.b.k) = none → v.tokenWait x = (true, false)) ∧
    ∀ w, v.cell.waitOf (.strand v.b.k) = some w → w.state = .landed → v.tokenWait x = (false, false) := by
  have hl' : ¬ tokenLocal v.chip v.b.u x = true := Bool.eq_false_iff.1 hl
  unfold View.tokenWait
  rw [if_neg hx, if_neg hl']
  exact ⟨fun hw => by rw [hw], fun w hw hs => by simp only [hw, hs]⟩

/-- A twt that need not wait is an acquire. -/
theorem runs_twt (h : s.Ready m u k [a] []) (hw : (s.sees m u k (.twt true a)).tokenWait (s.rs m u k a) = (false, false))
    (he : s.NoErrors m u k) :
    s.Runs m u k (.twt true a) fun c => c.onStrand k fun st => { st with lacq := s.cycle } := by
  let v := s.sees m u k (.twt true a)
  let ts := v.cell.tokensOf v.chip v.b.u (v.rs a)
  have dyn : (if (v.tokenWait (v.rs a)).1 = true then [] else if (v.tokenWait (v.rs a)).2 = true then
      [trapReq causeTokenExpired (v.rs a)] else v.lateErr fun x => ts.contains x.token) = [] := by
    rw [show v.tokenWait (v.rs a) = (false, false) from hw]; exact lateErr_nil (v := v) he _
  exact exec_of_engine (es := [.acquire]) h (exec_twt ..) (engine_static (t := 0) h (illegal_nil rfl)) dyn rfl (fun _ hp => hp) rfl
    (congrArg Prod.fst hw) rfl (by simp [Effect.lands, Effect.reads]) rfl rfl (acquires_left 1 id ((s.strand m u k).pc + 1))

/-- One that must wait begins its wait. -/
theorem stalls_twt (h : s.Ready m u k [a] []) (hw : (s.sees m u k (.twt true a)).tokenWait (s.rs m u k a) = (true, false)) :
    exec (.twt true a) s = .next (stallBundle (beginWait s m u k ((s.sees m u k (.twt true a)).beginsToken (s.rs m u k a)))
      (s.nextBundle m u k)) := by
  let v := s.sees m u k (.twt true a)
  let ts := v.cell.tokensOf v.chip v.b.u (v.rs a)
  have dyn : (if (v.tokenWait (v.rs a)).1 = true then [] else if (v.tokenWait (v.rs a)).2 = true then
      [trapReq causeTokenExpired (v.rs a)] else v.lateErr fun x => ts.contains x.token) = [] := by
    rw [show v.tokenWait (v.rs a) = (true, false) from hw]; rfl
  refine (exec_of_blocked h.opened (exec_twt ..) (control_issues h (engine_static (t := 0) h (illegal_nil rfl)) dyn rfl
    (fun _ hp => hp) (.inl rfl) rfl h.room.le) (congrArg Prod.fst hw)).trans (congrArg Host.Outcome.next ?_)
  exact waitBundle_single rfl rfl

theorem onCell_onCell (f g : Cell → Cell) : (s.onCell m u f).onCell m u g = s.onCell m u fun c => g (f c) := by
  simp only [State.onCell, State.cell_setCell, and_self, if_true, State.setCell_setCell]

/-- The WATCH of a token and the stall of the bundle that waits for it concern different parts of the machine. -/
theorem stallBundle_startWatch {b : Bundle} (hm : b.m = m) (hu : b.u = u) (w : WaitFor) :
    stallBundle (s.startWatch m u w x) b = (stallBundle s b).startWatch m u w x := by
  subst hm hu
  have hc : stallBundle (s.onCell b.m b.u fun c => { c with waits := c.waits ++ [⟨w, x, s.cycle, 0, .out⟩] }) b =
      (stallBundle s b).onCell b.m b.u fun c => { c with waits := c.waits ++ [⟨w, x, s.cycle, 0, .out⟩] } := by
    let t : State := { s with cur := none, last := .stalled }
    exact (onCell_onCell (s := t) (fun c => { c with waits := c.waits ++ [⟨w, x, s.cycle, 0, .out⟩] }) fun c =>
      c.onStrand b.k fun st => st.firstTry s.cycle).trans (onCell_onCell (s := t) (fun c =>
        c.onStrand b.k fun st => st.firstTry s.cycle) fun c => { c with waits := c.waits ++ [⟨w, x, s.cycle, 0, .out⟩] }).symm
  rw [State.startWatch, stallBundle_send, hc]
  rfl

/-- A wait for a foreign token begins with a WATCH to its origin. -/
theorem stallBundle_token {b : Bundle} (hm : b.m = m) (hu : b.u = u) (hk : b.k = k) (hk4 : k < 4)
    (h : (s.strand m u k).waiting.engine = none) :
    stallBundle (beginWait s m u k (.token x)) b =
      (s.stalled m u k { (s.strand m u k).waiting with engine := some ⟨s.cycle, none, false, false⟩ }).startWatch m u
        (.strand k) x := by
  have hn : ¬ (s.strand m u k).waiting.engine.isSome = true := by rw [h]; exact Bool.false_ne_true
  have hs := stallBundle_waits (s := s) hm hu hk hk4 fun w => { w with engine := some ⟨s.cycle, none, false, false⟩ }
  rw [beginWait, if_neg hn, stallBundle_startWatch hm hu, hs]

/-- The foreign inputs of a JOIN entry are watched. -/
def watchInputs (s : State) (m u i chip : Nat) (a b : Word) : State :=
  let s := if tokenLocal chip u a then s else s.startWatch m u (.join i false) a
  if tokenLocal chip u b then s else s.startWatch m u (.join i true) b

/-- What tjoin of two tokens does, by which of them have landed and by the cell's free entry (R378). -/
def joinsAs (s : State) (m u k : Nat) (a b : Word) (t : Nat) (done done' spire : Bool) (e : Option Nat) : State :=
  let chip := s.chip m
  let op := s.seq
  let give (s : State) (w : Word) : State := s.onCell m u fun c => c.answer s.cycle k op t w
  if done && done' then give s 0
  else if done then give s b
  else if done' then give s a
  else if spire then give { s with free := s.free + 1 } (Config.spireJoin s.free)
  else
    match e with
    | none => s
    | some i =>
      watchInputs ((give s ((s.cell m u).nextToken chip u)).onCell m u fun c =>
        c.allocToken i k (c.strand k).recid.toNat 2 .join 0 a b) m u i chip a b

theorem issueTjoin_left {n : Nat} : (s.left m u k 2 id).issueTjoin m u k s.op x y n =
    joinsAs (s.left m u k 2 id) m u k x y n ((s.cell m u).joinDone (s.chip m) u x) ((s.cell m u).joinDone (s.chip m) u y)
      (s.cell m u).spire (s.cell m u).freeToken := by
  have e (s' : State) : s'.issueTjoin m u k s'.seq x y n = joinsAs s' m u k x y n ((s'.cell m u).joinDone (s'.chip m) u x)
      ((s'.cell m u).joinDone (s'.chip m) u y) (s'.cell m u).spire (s'.cell m u).freeToken := rfl
  refine (e _).trans ?_
  rw [cell_left, chip_left]
  rfl

theorem give_left (w : Word) : (s.left m u k 2 id).onCell m u (fun c => c.answer s.cycle k s.op (s.ps m u k t) w) =
    s.left m u k 2 (s.answers m u k t w []) :=
  (onCell_left ..).trans (left_congr (answer_eq ..))

theorem answers_recid (c : Cell) (x : Word) (ns : List Note) :
    ((s.answers m u k t x ns c).strand k).recid = (c.strand k).recid := by
  unfold State.answers
  split_ifs
  · rfl
  · exact recid_asks c

/-- A JOIN entry, before the inputs that are foreign are watched. -/
def joined (s : State) (m u k i : Nat) (a b : Word) (t : BitVec 6) : State :=
  s.left m u k 2 fun c => (s.answers m u k t ((s.cell m u).nextToken (s.chip m) u) [] c).allocToken i k
    (s.strand m u k).recid.toNat 2 .join 0 a b

theorem joinsAs_some (hk : k < 4) (i : Nat) :
    joinsAs (s.left m u k 2 id) m u k x y (s.ps m u k t) false false false (some i) =
      watchInputs (joined s m u k i x y t) m u i (s.chip m) x y := by
  have e (s' : State) (n : Nat) : joinsAs s' m u k x y n false false false (some i) =
      watchInputs ((s'.onCell m u fun c => c.answer s'.cycle k s'.seq n ((s'.cell m u).nextToken (s'.chip m) u)).onCell m u
        fun c => c.allocToken i k (c.strand k).recid.toNat 2 .join 0 x y) m u i (s'.chip m) x y := rfl
  have hc : ((s.left m u k 2 id).cell m u).nextToken ((s.left m u k 2 id).chip m) u = (s.cell m u).nextToken (s.chip m) u := by
    rw [cell_left, chip_left]; rfl
  have hj : ((s.left m u k 2 id).onCell m u fun c => c.answer s.cycle k s.op (s.ps m u k t)
      ((s.cell m u).nextToken (s.chip m) u)).onCell m u (fun c => c.allocToken i k (c.strand k).recid.toNat 2 .join 0 x y) =
        joined s m u k i x y t := by
    rw [give_left, onCell_left]
    refine left_congr ?_
    rw [answers_recid, strand_wentCell hk]
    rfl
  rw [e, hc, chip_left, ← hj]
  rfl

theorem startWatch_last (w : WaitFor) : (s.startWatch m u w x).last = s.last := rfl

theorem startWatch_cell (w : WaitFor) : ((s.startWatch m u w x).cell m u).mem = (s.cell m u).mem ∧
    ((s.startWatch m u w x).cell m u).tokens = (s.cell m u).tokens := by
  simp [State.startWatch]

theorem watchInputs_spec (i chip : Nat) : (watchInputs s m u i chip x y).last = s.last ∧
    ((watchInputs s m u i chip x y).cell m u).mem = (s.cell m u).mem ∧
    ((watchInputs s m u i chip x y).cell m u).tokens = (s.cell m u).tokens := by
  unfold watchInputs
  by_cases hx : tokenLocal chip u x = true <;> by_cases hy : tokenLocal chip u y = true <;>
    simp only [hx, hy, if_true, Bool.false_eq_true, if_false, startWatch_last, startWatch_cell, and_self]

end tokens

/-- Settles O45: each by the token that it names. -/
theorem tokenInstructions : Obligations.TokenInstructions := by
  unfold Obligations.TokenInstructions
  intro s m u k a b t c x y chip done
  refine ⟨fun h ht => ⟨fun hx => ?_, fun hx hl => ?_⟩, fun h => ⟨fun hx he => ?_, fun hl hp => ?_, fun hx hl => ⟨fun w hw hs he => ?_,
    fun hw hn => ?_⟩⟩, fun h ht => ?_⟩
  · refine (exec_tchk_eq h ht).trans (congrArg Host.Outcome.next ?_)
    rw [issueTchk_local ht hx]
    refine left_congr ?_
    rw [tokensOf_congr (c := s.wentCell m u k) (c' := c) rfl]
    rfl
  · refine (exec_tchk_eq h ht).trans (congrArg Host.Outcome.next ?_)
    rw [State.issueTchk, chip_left, if_neg (not_or.2 ⟨hx, Bool.eq_false_iff.1 hl⟩), onCell_left]
    rfl
  · exact runs_twt h (tokenWait_here hx) he
  · have hb : (s.sees m u k (.twt true a)).beginsToken x = .nothing := if_neg fun e => by
      have hf : (!tokenLocal chip u x) = true := e.2
      rw [hl] at hf; cases hf
    refine (stalls_twt h (tokenWait_pending hl hp)).trans (congrArg Host.Outcome.next ?_)
    rw [hb]; rfl
  · exact runs_twt h ((tokenWait_foreign (v := s.sees m u k (.twt true a)) hx hl).2 w hw hs) he
  · have hb : (s.sees m u k (.twt true a)).beginsToken x = .token x := if_pos ⟨hx, by
      show (!tokenLocal chip u x) = true
      rw [hl]; rfl⟩
    refine (stalls_twt h ((tokenWait_foreign (v := s.sees m u k (.twt true a)) hx hl).1 hw)).trans (congrArg Host.Outcome.next ?_)
    rw [hb]
    exact stallBundle_token rfl rfl rfl h.opened.strand hn
  have hd (z : Word) : c.joinDone chip u z = true ↔ done z := joinDone_iff
  have hf (z : Word) (hz : ¬ done z) : c.joinDone chip u z = false := Bool.eq_false_iff.2 (mt (hd z).1 hz)
  have free (hx : c.joinDone chip u x = true ∨ c.joinDone chip u y = true ∨ c.spire = true ∨ c.freeToken.isNone = false) :
      (!c.joinDone chip u x && !c.joinDone chip u y && !c.spire && c.freeToken.isNone) = false := by
    rcases hx with h | h | h | h <;> simp only [h, Bool.not_true, Bool.false_and, Bool.and_false]
  refine ⟨fun hx hy => ?_, fun hx hy => ?_, fun hx hy => ?_, fun hx hy hs => ?_, fun hx hy hs e he => ?_, fun hx hy hs hlx hly e he => ?_⟩
  · rw [State.Runs, exec_tjoin_eq h ht (free (.inl ((hd x).2 hx))), issueTjoin_left, (hd x).2 hx, (hd y).2 hy]
    exact congrArg Host.Outcome.next (give_left ..)
  · rw [State.Runs, exec_tjoin_eq h ht (free (.inl ((hd x).2 hx))), issueTjoin_left, (hd x).2 hx, hf y hy]
    exact congrArg Host.Outcome.next (give_left ..)
  · rw [State.Runs, exec_tjoin_eq h ht (free (.inr (.inl ((hd y).2 hy)))), issueTjoin_left, hf x hx, (hd y).2 hy]
    exact congrArg Host.Outcome.next (give_left ..)
  · rw [exec_tjoin_eq h ht (free (.inr (.inr (.inl hs)))), issueTjoin_left, hf x hx, hf y hy, hs]
    exact congrArg Host.Outcome.next (congrArg (fun t : State => { t with free := s.free + 1 }) (give_left ..))
  · have hfree : c.freeToken.isNone = false := by rw [he]; rfl
    rw [exec_tjoin_eq h ht (free (.inr (.inr (.inr hfree)))), issueTjoin_left, hf x hx, hf y hy, hs, he,
      joinsAs_some h.opened.strand]
    let st := s.strand m u k
    obtain ⟨hlast, hmem, htok⟩ := watchInputs_spec (s := joined s m u k e x y t) (m := m) (u := u) (x := x) (y := y) e chip
    have htoken : ((watchInputs (joined s m u k e x y t) m u e chip x y).cell m u).token e = ((joined s m u k e x y t).cell m u).token e :=
      congrArg (fun l => tget TokEntry.free l e) htok
    refine ⟨_, rfl, hlast, hmem.trans ?_, ?_⟩
    · rw [joined, cell_left]
      exact (answers_proj Cell.mem (fun _ _ => rfl) (fun _ _ => rfl) ..)
    · have hj : ((watchInputs (joined s m u k e x y t) m u e chip x y).cell m u).token e = _ :=
        htoken.trans (congrArg (fun z : Cell => z.token e) (cell_left ..))
      have ha : ∀ z : Cell, (z.allocToken e k st.recid.toNat 2 .join 0 x y).token e = { TokEntry.free with
          state := .join, gen := if (z.token e).gen = 15 then 1 else (z.token e).gen + 1, recid := st.recid.toNat, k := k
          count := 2, ina := x, inb := y } := fun z => tget_tput_same ..
      exact ⟨congrArg TokEntry.state (hj.trans (ha _)), congrArg TokEntry.ina (hj.trans (ha _)),
        congrArg TokEntry.inb (hj.trans (ha _))⟩
  · have hfree : c.freeToken.isNone = false := by rw [he]; rfl
    rw [State.Runs, exec_tjoin_eq h ht (free (.inr (.inr (.inr hfree)))), issueTjoin_left, hf x hx, hf y hy, hs, he,
      joinsAs_some h.opened.strand]
    have here : watchInputs (joined s m u k e x y t) m u e chip x y = joined s m u k e x y t := by
      rw [watchInputs, hlx, hly]; rfl
    have word : c.nextToken chip u = tokenWord chip u (if (c.token e).gen = 15 then 1 else (c.token e).gen + 1) e := by
      rw [Cell.nextToken, hs, he]; rfl
    refine congrArg Host.Outcome.next (here.trans (left_congr ?_))
    have tokens (w : Word) : (s.answers m u k t w [] (s.wentCell m u k)).tokens = c.tokens :=
      answers_proj Cell.tokens (fun _ _ => rfl) (fun _ _ => rfl) ..
    rw [show (s.cell m u).nextToken (s.chip m) u = _ from word]
    have token (w : Word) : (s.answers m u k t w [] (s.wentCell m u k)).token e = c.token e :=
      congrArg (fun l => tget TokEntry.free l e) (tokens w)
    rw [Cell.allocToken, Cell.onToken, token, tokens]
    rfl

end Sys2Proof.Machine
end

section
/-! The barrier instructions, qpush and qpop (R329, R391 to R394). -/

namespace Sys2Proof.Machine

-- One proof after the other, which keeps the memory of a build low.
set_option Elab.async false

section barriers

variable {s : State} {m u k : Nat} {i : Instr} {a b t : BitVec 6} {n : BitVec 5} {x y : Word}

theorem tb_static {reads : List (BitVec 6)} (h : s.Ready m u k reads (tokenRegs t)) (hi : i.wellFormed = true)
    (hc : (s.cell m u).spire = false) (hn : n.toNat < (s.desc m u k).tbars) :
    (engineSyl (s.sees m u k i) false reads t).static ++ (s.sees m u k i).declTb n = [] :=
  List.append_eq_nil_iff.2 ⟨engine_static h (illegal_cell hi hc), if_neg (Nat.not_le.2 hn)⟩

theorem not_scbFull {l : Nat} (h : (s.cell m u).scb.length + l ≤ 32) : (s.sees m u k i).scbFull l = false :=
  decide_eq_false (Nat.not_lt.2 h)

/-- A barrier is ready for a phase that it has completed, or that lies before it (R394). -/
theorem tbReady_of {z : Tbar} (h : (x.toNat % 256 = z.phase.toNat ∧ z.state = .done) ∨
    128 ≤ (x.toNat % 256 + 256 - z.phase.toNat) % 256) : tbReady z x = true := by
  rw [tbReady, Bool.or_eq_true]
  refine h.imp (fun h => Bool.and_eq_true_iff.2 ⟨?_, beq_iff_eq.2 h.2⟩) decide_eq_true
  rw [h.1, Nat.add_sub_cancel_left]
  rfl

theorem recid_wentCell (hk : k < 4) : ((s.wentCell m u k).strand k).recid = (s.strand m u k).recid := by
  rw [strand_wentCell hk]; rfl

theorem recid_acquire (c : Cell) (cycle : Nat) : ((c.acquire k cycle).strand k).recid = (c.strand k).recid := by
  rw [Cell.acquire, Cell.strand_onStrand]
  split_ifs <;> rfl

/-- The detectors alone note a write. -/
theorem wrote_eq (c : Cell) (off : Nat) : c.wrote k off = { c with races := (c.wrote k off).races } := by
  unfold Cell.wrote
  split <;> rfl

theorem wroteRange_eq (c : Cell) (ws : List (Nat × Nat)) :
    c.wroteRange k ws = { c with races := (c.wroteRange k ws).races } :=
  List.foldlRecOn (motive := fun x : Cell => x = { c with races := x.races }) _ _ rfl fun x h w _ => by
    split_ifs
    · exact h
    · rw [wrote_eq, h]

theorem strand_wroteRange (c : Cell) (ws : List (Nat × Nat)) (k' : Nat) : (c.wroteRange k ws).strand k' = c.strand k' :=
  (congrArg (fun x : Cell => x.strand k') (wroteRange_eq c ws)).trans rfl

/-- A barrier job of an issuing command, which holds a scoreboard entry until the end of the cycle. -/
def State.asksTb (s : State) (m u k : Nat) (t : BitVec 6) (n : Nat) (init : Bool) (a b : Word) (rid : Nat) (c : Cell) : Cell :=
  s.claims k [] [] { s.asks m u k t c with tbjobs := c.tbjobs ++ [⟨s.op, k, rid, n, init, a, b, s.ps m u k t⟩] }

theorem barrierCmd_tbinit (c : Cell) (n : Nat) : c.barrierCmd s.cycle k s.op (.tbinit n x y (s.ps m u k t)) =
    s.asksTb m u k t n true x y (c.strand k).recid.toNat c := rfl

theorem barrierCmd_tbarr (c : Cell) (n : Nat) : c.barrierCmd s.cycle k s.op (.tbarr n x (s.ps m u k t)) =
    s.asksTb m u k t n false x 0 (c.strand k).recid.toNat c := rfl

/-- A queue command of an issuing bundle. -/
def State.asksQueue (s : State) (m u k : Nat) (t : BitVec 6) (push : Bool) (a b : Word) (rid : Nat) (c : Cell) : Cell :=
  s.claims k (if push then [(b.toNat, 16)] else []) (if push then [] else [(b.toNat, 16)])
    { s.asks m u k t c with qwaits := c.qwaits ++ [⟨s.op, k, rid, push, a.toNat / 128, b.toNat, s.ps m u k t, false⟩] }

theorem issueQueue_eq (c : Cell) (push : Bool) : c.issueQueue k s.op push x y (s.ps m u k t) =
    s.asksQueue m u k t push x y (c.strand k).recid.toNat c := by
  unfold Cell.issueQueue State.asksQueue State.asks
  split_ifs <;> rfl

theorem queue_static {h : BitVec 4} (hr : s.Ready m u k [a, b] [t]) (hi : i.wellFormed = true) (hh : s.DeclaresH m u k [h.toNat]) :
    (engineSyl (s.sees m u k i) true [a, b] t).static ++ (s.sees m u k i).declH [h.toNat] = [] :=
  List.append_eq_nil_iff.2 ⟨engine_static hr.tokens (illegal_nil hi), declH_nil hh⟩

end barriers

/-- Settles O47: each of the five by its one command. -/
theorem barriersAndQueues : Obligations.BarriersAndQueues := by
  unfold Obligations.BarriersAndQueues
  intro s m u k a b n hn t c st x y tb rid ready
  have hrid (h : k < 4) : ((s.wentCell m u k).strand k).recid = st.recid := recid_wentCell h
  refine ⟨fun hc hd => ⟨fun h => ⟨fun hx hscb => ?_, fun hx => ?_⟩, fun h hscb => ?_⟩, fun h ht hh hscb => ?_⟩
  · have dyn : (if x.getLsbD 31 = false ∧ (c.tbar n.toNat).state = .armed then [engineErr 6 1 n.toNat] else []) = [] :=
      if_neg fun e => hx.elim (fun h => Bool.false_ne_true (e.1.symm.trans h)) fun h => h e.2
    refine (exec_of_engine (es := []) h (exec_tbinit ..) (tb_static h rfl hc hd) dyn rfl tokenRegs_names rfl (not_scbFull hscb)
      (congrArg (fun j => [Effect.cmd (.tbinit n.toNat x y j)]) sees_pt) (fun e he => (List.not_mem_nil he).elim) rfl rfl rfl).trans
      (congrArg Host.Outcome.next ((onCell_left 2 id fun c => c.barrierCmd s.cycle k s.op
        (.tbinit n.toNat x y (s.ps m u k t))).trans (left_congr ?_)))
    rw [barrierCmd_tbinit, id_eq, hrid h.opened.strand]
    rfl
  · have free : (!(tbReady tb x) && !(st.waiting.engine.any fun w => w.failed) && (decide (y.toNat % 2 ^ 16 * 256 = 0) ||
        st.waiting.first.all fun c => decide (s.cycle < c + y.toNat % 2 ^ 16 * 256))) = false := by
      rcases hx with hx | ⟨w, hw, hf⟩ | ⟨hl, f, hf, hle⟩
      · rw [tbReady_of hx]; rfl
      · rw [hw, Option.any_some, hf, Bool.not_true, Bool.and_false, Bool.false_and]
      · rw [hf, Option.all_some, decide_eq_false hl, decide_eq_false (Nat.not_lt.2 hle), Bool.or_self, Bool.and_false]
    refine (exec_of_engine (es := [.acquire]) h (exec_tbwait ..) (tb_static h rfl hc hd) rfl rfl tokenRegs_names rfl
      free (congrArg (fun j => [Effect.acquire, .cmd (.tbwait n.toNat x y j)]) sees_pt)
      (by simp [Effect.lands, Effect.reads]) rfl rfl (acquires_left 1 id ((s.strand m u k).pc + 1))).trans
      (congrArg Host.Outcome.next ((onCell_left 2 (fun c => c.acquire k s.cycle) fun c => c.barrierCmd s.cycle k s.op
        (.tbwait n.toNat x y (s.ps m u k t))).trans (left_congr ?_)))
    exact answer_eq ..
  · refine (exec_of_engine (es := [.release]) h (exec_tbarr ..) (tb_static h rfl hc hd) rfl rfl tokenRegs_names rfl
      (not_scbFull hscb) (congrArg (fun j => [Effect.release, .cmd (.tbarr n.toNat x j)]) sees_pt)
      (by simp [Effect.lands, Effect.reads]) rfl rfl (releases_left 1 id ((s.strand m u k).pc + 1))).trans
      (congrArg Host.Outcome.next ((onCell_left 2 (fun c => c.release k s.cycle) fun c => c.barrierCmd s.cycle k s.op
        (.tbarr n.toNat x (s.ps m u k t))).trans (left_congr ?_)))
    rw [barrierCmd_tbarr]
    exact congrArg (fun r : BitVec 16 => s.asksTb m u k t n.toNat false x 0 r.toNat ((s.wentCell m u k).release k s.cycle))
      (hrid h.opened.strand)
  · intro v wait
    have hwf : (Instr.qpush true a b hn t).wellFormed = true := bne_iff_ne.2 fun e => ht (BitVec.eq_of_toNat_eq e)
    refine ⟨fun hq => ?_, fun hq => ?_⟩
    · refine (exec_of_engine (es := [.release]) h.tokens (exec_qpush ..) (queue_static h hwf hh) hq rfl tokenRegs_names rfl
        (not_scbFull hscb) (congrArg (fun j => [Effect.release, .cmd (.qpush (s.rh m u k hn.toNat) x y j)]) sees_pt)
        (by simp [Effect.lands, Effect.reads]) rfl rfl (releases_left 1 id ((s.strand m u k).pc + 1))).trans
        (congrArg Host.Outcome.next ((onCell_left 2 (fun c => c.release k s.cycle) fun c => c.issueQueue k s.op true x y
          (s.ps m u k t)).trans (left_congr ?_)))
      rw [issueQueue_eq]
      exact congrArg (fun r : BitVec 16 => s.asksQueue m u k t true x y r.toNat ((s.wentCell m u k).release k s.cycle))
        (hrid h.opened.strand)
    · let es : List Effect := .acquire :: (s.sees m u k (.qpop true a b hn t)).engineRace y.toNat 16
      have hg : es.foldl (applyEffect m u k ((s.strand m u k).pc + 1)) (s.left m u k 1 id) =
          s.left m u k 1 fun c => (c.acquire k s.cycle).wroteRange k [(y.toNat, 16)] := by
        rw [List.foldl_cons, acquires_left]
        exact engineRace_left 1 (fun c => c.acquire k s.cycle) _ y.toNat 16 rfl
      refine (exec_of_engine (x := .qpop (s.rh m u k hn.toNat) x y (s.ps m u k t)) (es := es) h.tokens (exec_qpop ..) (queue_static h hwf hh) hq rfl tokenRegs_names rfl
        (not_scbFull hscb) (congrArg (fun j => es ++ [.cmd (.qpop (s.rh m u k hn.toNat) x y j)]) sees_pt)
        (fun e he => (List.mem_cons.1 he).elim (fun h => h ▸ ⟨rfl, rfl⟩) (mem_engineRace e)) rfl rfl hg).trans
        (congrArg Host.Outcome.next ((onCell_left 2 (fun c => (c.acquire k s.cycle).wroteRange k [(y.toNat, 16)]) fun c =>
          c.issueQueue k s.op false x y (s.ps m u k t)).trans (left_congr ?_)))
      rw [issueQueue_eq]
      have hr : ((((s.wentCell m u k).acquire k s.cycle).wroteRange k [(y.toNat, 16)]).strand k).recid = st.recid := by
        rw [strand_wroteRange]
        exact (recid_acquire ..).trans (hrid h.opened.strand)
      have hq : (((s.wentCell m u k).acquire k s.cycle).wroteRange k [(y.toNat, 16)]).qwaits = (s.wentCell m u k).qwaits :=
        (congrArg Cell.qwaits (wroteRange_eq ..)).trans rfl
      rw [State.asksQueue, hr, hq]
      rfl

end Sys2Proof.Machine
end

section
/-! Results reach their registers (R80, R90, R94, R155 to R157, R342, R430). -/

namespace Sys2Proof.Machine

-- One proof after the other, which keeps the memory of a build low.
set_option Elab.async false

section landing

variable {s : State} {m u k : Nat} {c : Cell} {l : Landing} {r : List Landing} {st : Strand}

/-- The one result that is due lands, and leaves the queue. -/
theorem landDue_eq (hl : (c.strand k).landing = l :: r) (hd : l.due ≤ (c.strand k).beat)
    (hr : ∀ x ∈ r, (c.strand k).beat < x.due) :
    c.landDue k = (c.setStrand k { c.strand k with landing := r }).landAll k [l] := by
  have hdue : ((c.strand k).landing.any fun x => x.due ≤ (c.strand k).beat) = true := by
    rw [hl, List.any_cons, decide_eq_true hd, Bool.true_or]
  have hrest : ((c.strand k).landing.filter fun x => decide ((c.strand k).beat < x.due)) = r := by
    rw [hl, List.filter_cons_of_neg (by simpa using hd)]
    exact List.filter_eq_self.2 fun x hx => decide_eq_true (hr x hx)
  have hone : ((c.strand k).landing.filter fun x => decide (x.due ≤ (c.strand k).beat)) = [l] := by
    rw [hl, List.filter_cons_of_pos (by simpa using hd), List.filter_eq_nil_iff.2 fun x hx => by simpa using hr x hx]
  have hrange : (c.strand k).beat + 1 - (c.strand k).beat = 1 := by omega
  rw [Cell.landDue, if_pos hdue, Cell.landUpTo]
  simp only [hrest, hrange, List.range_one, List.foldl_cons, List.foldl_nil, if_true, hone]

/-- The counts that a result brings. -/
def Landing.counts (l : Landing) (n : Counters) : Counters :=
  { n with cvtSat8 := countUpBy n.cvtSat8 l.cvtSat, nanScale := countUpBy n.nanScale l.nanScale }

/-- What a landing leaves, from what the result and its taint make of the cell. -/
theorem exec_landing {c' : Cell} (hm : s.focus.m = m) (hu : s.focus.u = u) (hj : s.focus.j = k)
    (hl : (s.strand m u k).landing = l :: r) (hd : l.due ≤ (s.strand m u k).beat)
    (hr : ∀ x ∈ r, (s.strand m u k).beat < x.due)
    (hc : (((s.cell m u).setStrand k { s.strand m u k with landing := r }).landReg k l).landTaint k l = c')
    (hn : c'.cnts = (s.cell m u).cnts ∧ c'.cntsNew = (s.cell m u).cntsNew := by exact ⟨rfl, rfl⟩) :
    exec .resultLanding s = .next (s.setCell m u { c'.onStrand k (fun x => { x with fpf := x.fpf ||| l.flags }) with
      cnts := l.counts (s.cell m u).cnts, cntsNew := l.counts (s.cell m u).cntsNew }) := by
  subst hm hu hj
  have hdue : ((s.strand s.focus.m s.focus.u s.focus.j).landing.any fun x =>
      decide (x.due ≤ (s.strand s.focus.m s.focus.u s.focus.j).beat)) = true := by
    rw [hl, List.any_cons, decide_eq_true hd, Bool.true_or]
  refine (if_pos hdue).trans (congrArg (fun x => Host.Outcome.next (s.setCell s.focus.m s.focus.u x)) ?_)
  refine (landDue_eq (c := s.cell s.focus.m s.focus.u) hl hd hr).trans ?_
  rw [Cell.landAll, List.foldl_cons, List.foldl_nil, land_eq]
  have e := hc
  rw [State.strand] at e
  rw [e, ← hn.1, ← hn.2]
  rfl

theorem landTaint_none (ht : l.taint = none) (c : Cell) : c.landTaint k l = c := by
  rw [Cell.landTaint, ht]

/-- A result of the strand's own registers, without a taint. -/
theorem landed_put (hk : k < 4) (ht : l.taint = none) (hx : ∀ i w, l.reg ≠ .xd i w) (hp : l.reg ≠ .pr 13) :
    ((c.setStrand k st).landReg k l).landTaint k l = c.setStrand k (st.put l.reg l.val) := by
  rw [landTaint_none ht, landReg_put hx hp, Cell.onStrand, setStrand_setStrand, Cell.strand_setStrand, if_pos ⟨rfl, hk⟩]

theorem landed_taint {g : BitVec 8} (hk : k < 4) (ht : l.taint = some g) (hx : ∀ i w, l.reg ≠ .xd i w) (hp : l.reg ≠ .pr 13) :
    ((c.setStrand k st).landReg k l).landTaint k l = c.setStrand k ((st.put l.reg l.val).taintWith g l.seq) := by
  rw [landReg_put hx hp, Cell.landTaint, ht, Cell.onStrand, setStrand_setStrand, Cell.strand_setStrand, if_pos ⟨rfl, hk⟩]
  simp only [Cell.onStrand, setStrand_setStrand, Cell.strand_setStrand, hk, and_self, if_true]

theorem put_s (n : Nat) (x : Word) :
    st.put (.s n) (.word x) = { st with s := if n = 0 then st.s else st.s.setIfInBounds n x } := by
  by_cases h : n = 0
  · rw [if_pos h]; exact if_pos h
  · rw [if_neg h]; exact if_neg h

theorem put_q (n : Nat) (x : Word) :
    st.put (.q n) (.word x) = { st with q := if n = 0 then st.q else st.q.setIfInBounds n x } := by
  by_cases h : n = 0
  · rw [if_pos h]; exact if_pos h
  · rw [if_neg h]; exact if_neg h

theorem counts_slotHandles (c : Cell) : c.slotHandles.cnts = c.cnts ∧ c.slotHandles.cntsNew = c.cntsNew :=
  List.foldlRecOn (motive := fun x : Cell => x.cnts = c.cnts ∧ x.cntsNew = c.cntsNew) _ _ ⟨rfl, rfl⟩ fun x h p _ => by
    split <;> exact h

end landing

/-- Settles O11: what the result's register, its taint and its counts make of the cell. -/
theorem resultsLand : Obligations.ResultsLand := by
  unfold Obligations.ResultsLand
  intro s m u k l r hm hu hj hk st c hl hd hr rest counts leaves lands
  have put (ht : l.taint = none) {reg : Reg} {val : Val} {st' : Strand} (hst : rest.put reg val = st')
      (hx : ∀ i w, reg ≠ .xd i w := by simp) (hp : reg ≠ .pr 13 := by simp) : lands reg val st' := by
    intro hreg hval
    subst hreg hval hst
    exact exec_landing hm hu hj hl hd hr (landed_put hk ht hx hp)
  have taints {g : BitVec 8} (ht : l.taint = some g) {reg : Reg} {val : Val} {st' : Strand}
      (hst : (rest.put reg val).taintWith g l.seq = st')
      (hx : ∀ i w, reg ≠ .xd i w := by simp) (hp : reg ≠ .pr 13 := by simp) : lands reg val st' := by
    intro hreg hval
    subst hreg hval hst
    exact exec_landing hm hu hj hl hd hr (landed_taint hk ht hx hp)
  refine ⟨fun ht => ⟨fun n i w x y h => ?_, put ht rfl, put ht rfl, put ht rfl⟩, fun g ht => ?_⟩
  · refine ⟨put ht (put_s n x), put ht (put_q n x), put ht rfl, put ht rfl, put ht rfl, put ht rfl, put ht rfl, put ht rfl,
      put ht rfl, put ht rfl, put ht rfl, put ht rfl, put ht rfl, put ht rfl, put ht rfl, put ht rfl, put ht rfl, put ht rfl,
      put ht rfl, put ht rfl, put ht rfl, put ht rfl, fun hreg hval => ?_, fun hreg hval => ?_⟩
    · refine exec_landing (c' := { c.setStrand k rest with tokexp := x }) hm hu hj hl hd hr
        ((landTaint_none ht _).trans (landReg_tokexp hreg hval))
    · refine exec_landing (c' := (c.setStrand k rest).writeX i w x) hm hu hj hl hd hr
        ((landTaint_none ht _).trans (landReg_xd hreg hval)) (counts_slotHandles _)
  · intro keeps tainted n x y
    have kept (hk' : keeps) (st' : Strand) (ht' : st'.taint = st.taint) (hat : st'.taintAt = st.taintAt) (hb : st'.beat = st.beat) :
        st'.taintWith g l.seq = st' := if_pos (by rw [ht', hat, hb]; exact hk')
    have taint (hk' : ¬ keeps) (st' : Strand) (ht' : st'.taint = st.taint) (hat : st'.taintAt = st.taintAt)
        (hb : st'.beat = st.beat) : st'.taintWith g l.seq = tainted st' := by
      have hn : ¬ (st'.taint = true ∧ ¬ (st'.taintAt.1 = st'.beat ∧ l.seq < st'.taintAt.2)) := by rw [ht', hat, hb]; exact hk'
      exact (if_neg hn).trans (congrArg (fun b => ({ st' with taint := true, etag := g, taintAt := (b, l.seq) } : Strand)) hb)
    refine ⟨fun hk' => ⟨taints ht ?_, taints ht (kept hk' _ rfl rfl rfl)⟩, fun hk' => ⟨taints ht ?_, taints ht (taint hk' _ rfl rfl rfl)⟩⟩
    · rw [put_s]; exact kept hk' _ rfl rfl rfl
    · rw [put_s]; exact taint hk' _ rfl rfl rfl

end Sys2Proof.Machine
end

section
/-! Pending registers, deliveries and a full landing queue (R83, R84, R434). -/

namespace Sys2Proof.Machine

-- One proof after the other, which keeps the memory of a build low.
set_option Elab.async false

section pending

variable {s : State} {m u k : Nat} {i : Instr} {f : View → Syl}

/-- A bundle of one syllable that reads or names a pending register stalls. -/
theorem stalls_of_pending {r : Nat} (ho : s.Opened m u k) (he : exec i s = runSyl s i true f)
    (static : (f (s.sees m u k i)).static = []) (hp : ∃ p ∈ (s.strand m u k).pend, p.reg = r)
    (hr : r ∈ (f (s.sees m u k i)).reads ∨ r ∈ (f (s.sees m u k i)).names) :
    exec i s = .next (s.stalled m u k (s.strand m u k).waiting) := by
  obtain ⟨p, hp, rfl⟩ := hp
  have stalls : pendingStall (s.strand m u k) [f (s.sees m u k i)] = true := by
    simp only [pendingStall, List.any_cons, List.any_nil, Bool.or_false, List.any_eq_true, Bool.or_eq_true, List.contains_iff_mem]
    exact ⟨p, hp, hr⟩
  rw [he, runSyl_closes ho, closeBundle, staticTrap_single static]
  exact congrArg Host.Outcome.next (if_pos stalls)

/-- Whatever the address is, a load reads its offset and names its destination. -/
theorem sylLoad_checks (v : View) (d : BitVec 6) (h : BitVec 4) (a : BitVec 6) (o : BitVec 7) (n : Nat) (ext : Nat → Word) :
    (sylLoad v d h a o n ext).static = v.illegal true ++ v.declS [d, a] ++ v.declH [h.toNat] ∧
    (sylLoad v d h a o n ext).reads = [v.ps a] ∧ (sylLoad v d h a o n ext).names = [v.ps d] := by
  unfold sylLoad
  split
  · exact ⟨rfl, rfl, rfl⟩
  · dsimp only
    split_ifs <;> exact ⟨rfl, rfl, rfl⟩

theorem sylStore_checks (v : View) (d : BitVec 6) (h : BitVec 4) (a : BitVec 6) (o : BitVec 7) (n : Nat) :
    (sylStore v d h a o n).static = v.illegal true ++ v.declS [d, a] ++ v.declH [h.toNat] ∧
    (sylStore v d h a o n).reads = [v.ps d, v.ps a] ∧ (sylStore v d h a o n).names = [] := by
  unfold sylStore
  split
  · exact ⟨rfl, rfl, rfl⟩
  · dsimp only
    split_ifs <;> exact ⟨rfl, rfl, rfl⟩

/-- Where its result would not fit, an empty bundle takes the place of a bundle that would issue. -/
theorem exec_of_full {y : Syl} (ho : s.Opened m u k) (he : exec i s = runSyl s i true f) (hy : f (s.sees m u k i) = y)
    (h : { y with effects := [] }.Issues (s.strand m u k)) (full : 32 < (s.strand m u k).landing.length + landCount [y]) :
    exec i s = .next (emptyBundle s (s.nextBundle m u k)) := by
  have hstatic : staticTrap [y] = none := staticTrap_single h.static
  have hpend : pendingStall (s.strand m u k) [y] = false := pendingStall_single h.pend
  have hl : y.loop = .none ∨ y.loop = .start ∨ y.loop = .fin := h.loop
  have hloop : loopCaseOf [y] ≠ .stop ∧ loopCaseOf [y] ≠ .park ∧ loopCaseOf [y] ≠ .wait := by
    rcases hl with e | e | e <;> simp [loopCaseOf_single, e]
  have himage : ∀ b, y.checkImage s b = y := fun _ => checkImage_none h.image
  have hdyn : dynTrap (s.strand m u k) [y] = none := dynTrap_single h.dyn h.notes
  have hfree : y.blocked = false := h.free
  rw [he, runSyl_closes ho, hy]
  simp only [closeBundle, hstatic, nextBundle_m, nextBundle_u, nextBundle_k, hpend, hloop, himage, hdyn, hfree, List.map_cons,
    List.map_nil, List.any_cons, List.any_nil, full, if_true, Bool.false_eq_true, if_false]
  rfl

theorem spop_wellFormed {n : BitVec 5} {t : BitVec 6} (ht : t ≠ 0) (hn : n.toNat ≤ 15) : (Instr.spop true n t).wellFormed = true :=
  Bool.and_eq_true_iff.2 ⟨decide_eq_true hn, bne_iff_ne.2 fun e => ht (BitVec.eq_of_toNat_eq e)⟩

/-! ### Deliveries -/

theorem tget_map {α : Type} {e : α} {f : α → α} (t : Tab α) (k : Nat) (h : f e = e ∨ tget e t k ≠ e) :
    tget e (t.map fun p => (p.1, f p.2)) k = f (tget e t k) := by
  induction t with
  | nil => exact (h.resolve_right fun h => h rfl).symm
  | cons p r ih =>
    obtain ⟨j, x⟩ := p
    by_cases hj : j = k
    · simp [tget, hj]
    · simpa [tget, hj] using ih (by simpa [tget, hj] using h)

/-- A cell that differs from a reset one stands in its module's table. -/
theorem cell_eachCell (g : Cell → Cell) (hd : s.cell m u ≠ Cell.reset (isSpire u)) :
    (s.eachCell g).cell m u = g (s.cell m u) := by
  have hm : (s.eachCell g).mod m = { s.mod m with cells := (s.mod m).cells.map fun q => (q.1, g q.2) } :=
    tget_map (f := fun x : Module => { x with cells := x.cells.map fun q => (q.1, g q.2) }) s.mods m (.inl rfl)
  rw [State.cell, hm]
  exact tget_map _ u (.inr hd)

/-- The one delivery that is due reaches its register. -/
theorem deliverDue_single {c : Cell} {d : Delivery} {now : Nat} (hd : c.deliveries = [d]) (hdue : d.due ≤ now) (hk : d.k < 4) :
    (c.deliverDue now).deliveries = [] ∧
      (c.deliverDue now).strand d.k = (c.strand d.k).deliver d.op d.reg d.val d.notes := by
  have hf : ([d].filter fun x : Delivery => decide (x.due ≤ now)) = [d] := List.filter_cons_of_pos (decide_eq_true hdue)
  have hn : ([d].filter fun x : Delivery => decide (now < x.due)) = [] :=
    List.filter_cons_of_neg (by simpa using hdue)
  rw [Cell.deliverDue, hd, hf, hn, List.foldl_cons, List.foldl_nil]
  exact ⟨rfl, (Cell.strand_onStrand ..).trans (if_pos ⟨rfl, hk⟩)⟩

theorem deliver_pending {st : Strand} {op reg : Nat} {x : Word} {ns : List Note} (h : ∃ p ∈ st.pend, p.op = op ∧ p.reg = reg) :
    st.deliver op reg x ns = { st with
      s := if reg = 0 then st.s else st.s.setIfInBounds reg x
      pend := st.pend.filter fun p => !(p.op == op && p.reg == reg)
      delivered := st.delivered.filter (fun d => d.reg != reg) ++ if ns = [] then [] else [⟨reg, op, ns⟩] } := by
  have hp : (st.pend.any fun p => p.op == op && p.reg == reg) = true := by simpa using h
  rw [Strand.deliver, if_pos hp, put_s]
  cases ns with
  | nil => simp
  | cons n r => simp

end pending

/-- Settles O10: -/
theorem pendingRegisters : Obligations.PendingRegisters := by
  unfold Obligations.PendingRegisters
  refine ⟨fun s m u k d a b t h i o n ho hs hh => ?_, fun s m u d hcur htodo hphase hd hdue hk => ?_, fun s m u k d a b ho hs hset hl => ?_⟩
  · intro pending stalls
    have decl {j : Instr} {rs : List (BitVec 6)} (hrs : ∀ r ∈ rs, r ∈ [d, a, b, t]) : (s.sees m u k j).declS rs = [] :=
      declS_nil (hs.mono hrs)
    have declH {j : Instr} : (s.sees m u k j).declH [h.toNat] = [] := declH_nil hh
    have three (j : Instr) (hi : j.wellFormed = true) {rs : List (BitVec 6)} (hrs : ∀ r ∈ rs, r ∈ [d, a, b, t]) :
        (s.sees m u k j).illegal true ++ (s.sees m u k j).declS rs ++ (s.sees m u k j).declQ [] = [] :=
      List.append_eq_nil_iff.2 ⟨List.append_eq_nil_iff.2 ⟨illegal_nil hi, decl hrs⟩, declQ_nil (.inr fun _ h => (List.not_mem_nil h).elim)⟩
    have access (j : Instr) (hi : j.wellFormed = true) :
        (s.sees m u k j).illegal true ++ (s.sees m u k j).declS [d, a] ++ (s.sees m u k j).declH [h.toNat] = [] :=
      List.append_eq_nil_iff.2 ⟨List.append_eq_nil_iff.2 ⟨illegal_nil hi, decl (by simp)⟩, declH⟩
    have wait {j : Instr} {f : View → Syl} (he : exec j s = runSyl s j true f) (static : (f (s.sees m u k j)).static = [])
        {regs : List (BitVec 6)} (hp : ∃ r ∈ regs, pending r)
        (hr : regs.map (s.ps m u k) = (f (s.sees m u k j)).names ++ (f (s.sees m u k j)).reads) : stalls j := by
      obtain ⟨r, hr', hp⟩ := hp
      exact stalls_of_pending ho he static hp (List.mem_append.1 (hr ▸ List.mem_map_of_mem hr')).symm
    refine ⟨fun hp => ⟨?_, ?_⟩, fun hp => ⟨?_, ?_, ?_⟩, fun hp => ⟨?_, ?_⟩, fun hp => ?_, fun ht hp => ?_, fun ht hp hn hc => ?_⟩
    · exact wait (exec_add ..) (three (.add true d a b) rfl (by simp)) (regs := [d, a, b]) (by simpa using hp) rfl
    · exact wait (exec_div ..) (three (.div true d a b) rfl (by simp)) (regs := [d, a, b]) (by simpa using hp) rfl
    · exact wait (exec_addi ..) (three (.addi true d a 0) rfl (by simp)) (regs := [d, a]) (by simpa using hp) rfl
    · obtain ⟨hstatic, hreads, hnames⟩ := sylLoad_checks (s.sees m u k (.ldw true d h a i)) d h a i 4 (BitVec.ofNat 32)
      exact wait (exec_ldw ..) (hstatic.trans (access (.ldw true d h a i) rfl)) (regs := [d, a]) (by simpa using hp)
        (congrArg₂ (· ++ ·) hnames.symm hreads.symm)
    · obtain ⟨hstatic, hreads, hnames⟩ := sylStore_checks (s.sees m u k (.stw true d h a i)) d h a i 4
      exact wait (exec_stw ..) (hstatic.trans (access (.stw true d h a i) rfl)) (regs := [d, a]) (by simpa using hp)
        (congrArg₂ (· ++ ·) hnames.symm hreads.symm)
    · exact wait (exec_bz ..) (List.append_eq_nil_iff.2 ⟨illegal_nil rfl, decl (by simp)⟩) (regs := [a]) (by simpa using hp) rfl
    · exact wait (exec_twt ..) (three (.twt true a) rfl (by simp)) (regs := [a]) (by simpa using hp) rfl
    · exact wait (exec_li ..) (three (.li true d o) rfl (by simp)) (regs := [d]) (by simpa using hp) rfl
    · have hi : (Instr.tjoin true a b t).wellFormed = true := bne_iff_ne.2 fun e => ht (BitVec.eq_of_toNat_eq e)
      have hp' : pending t ∨ pending a ∨ pending b := hp.rotate.rotate
      exact wait (exec_tjoin ..) (List.append_eq_nil_iff.2 ⟨List.append_eq_nil_iff.2 ⟨illegal_nil hi, decl (by simp)⟩,
        decl (by simp)⟩) (regs := [t, a, b]) (by simpa using hp') (by
          have hn : (if t = 0 then [] else [s.ps m u k t]) = [s.ps m u k t] := if_neg ht
          exact (congrArg (· ++ [s.ps m u k a, s.ps m u k b]) hn).symm)
    · have hi : (Instr.spop true n t).wellFormed = true := spop_wellFormed ht hn
      exact wait (exec_spop ..) (List.append_eq_nil_iff.2 ⟨List.append_eq_nil_iff.2 ⟨illegal_cell hi hc, decl (by simp)⟩,
        decl (by simp)⟩) (regs := [t]) (by simpa using hp) (by
          have hn : (if t = 0 then [] else [s.ps m u k t]) = [s.ps m u k t] := if_neg ht
          exact (congrArg (· ++ []) hn).symm)
  · intro st hp
    have hne : s.cell m u ≠ Cell.reset (isSpire u) := fun e => by rw [e] at hd; cases hd
    have hmods : s.mods ≠ [] := fun e => hne (by rw [State.cell, State.mod, e]; rfl)
    have hstep : step s = .next (beginStage 1 s) := by
      rw [step, hcur, agendaStep, htodo, hphase]
      exact if_neg (by simpa using hmods)
    have hcell : (beginStage 1 s).cell m u = ((s.cell m u).deliverDue s.cycle).applyWeights s.cycle :=
      cell_eachCell (fun c => (c.deliverDue s.cycle).applyWeights s.cycle) hne
    obtain ⟨hgone, hstrand⟩ := deliverDue_single hd hdue hk
    refine ⟨_, hstep, ?_, ?_⟩
    · rw [hcell]; exact hgone
    · rw [State.strand, hcell]; exact hstrand.trans (deliver_pending hp)
  · intro st
    have issues : { sylRR (s.sees m u k (.add true d a b)) d a b (fun x y => x + y) 1 with effects := [] }.Issues st :=
      { static := List.append_eq_nil_iff.2 ⟨List.append_eq_nil_iff.2 ⟨illegal_nil rfl, declS_nil hs⟩,
          declQ_nil (.inr fun _ h => (List.not_mem_nil h).elim)⟩
        dyn := rfl
        pend := fun p hp => hset.pend p hp
        notes := fun n hn => hset.notes n hn
        loop := .inl rfl
        free := rfl
        room := hl.le }
    have full : 32 < st.landing.length + landCount [sylRR (s.sees m u k (.add true d a b)) d a b (fun x y => x + y) 1] := by
      rw [landCount_lands [_] rfl, hl]
      exact Nat.lt_succ_self 32
    have e : exec (.add true d a b) s = .next (emptyBundle s (s.nextBundle m u k)) :=
      exec_of_full (f := fun v => sylRR v d a b (fun x y => x + y) 1) ho (exec_add ..) rfl issues full
    refine e.trans (congrArg Host.Outcome.next ?_)
    unfold emptyBundle State.onStrand State.onCell Cell.onStrand Strand.firstTry
    rfl

end Sys2Proof.Machine
end

section
/-! Class V: the lanes of integers, of FP32 and of the conversions (R137, R139 to R142, R149). -/

namespace Sys2Proof.Machine

-- One proof after the other, which keeps the memory of a build low.
set_option Elab.async false

section lanes

variable {s : State} {m u k : Nat} {i : Instr} {d a b : BitVec 6} {q : BitVec 3} {w : BitVec 2} {want tag : BitVec 3} {lat : Nat}
  {f : View → Syl}

/-- A bitwise form, whose tag is the join of its sources' (R127). -/
theorem givesV_of_sylJoin {g : Word → Word → Word} (h : s.ReadyV m u k [d, a, b] d q w [] [])
    (he : exec i s = runSyl s i true fun v => sylJoin v d a b q w g) (hi : i.wellFormed = true)
    (ht : joinTag (s.rv m u k a) (s.rv m u k b) b = .ok tag) (hm : s.Merges m u k d q w tag) :
    s.GivesV m u k i d q w tag 2 fun j => laneVal (g ((s.rv m u k a).lanes.getD j 0) ((s.rv m u k b).lanes.getD j 0)) := by
  refine givesV_of_frame (c := clusterOf d.toNat) (one := true) (checks := []) h he hi rfl ?_ rfl rfl hm
  rw [sylJoin]
  simp only [sees_rv, ht]

/-! ### Packs (R142) -/

/-- Numbers that agree below a place have the same parts there. -/
theorem part_of_mod {x y : Word} {n l w : Nat} (hl : l < n) (h : x.toNat % 2 ^ (w * n) = y.toNat % 2 ^ (w * n)) :
    lanePart x l w = lanePart y l w := by
  have hd : 2 ^ (w * l) * 2 ^ w ∣ 2 ^ (w * n) := by
    rw [← pow_add]
    exact pow_dvd_pow 2 (Nat.mul_succ w l ▸ Nat.mul_le_mul_left w hl)
  rw [lanePart, lanePart, ← Nat.mod_mul_right_div_self, ← Nat.mod_mul_right_div_self, ← Nat.mod_mod_of_dvd _ hd, h, Nat.mod_mod_of_dvd _ hd]

/-- Numbers that agree above a place have the same parts there. -/
theorem part_of_div {x y : Word} {n l w : Nat} (hl : n < l) (h : x.toNat / 2 ^ (w * (n + 1)) = y.toNat / 2 ^ (w * (n + 1))) :
    lanePart x l w = lanePart y l w := by
  have hp : 2 ^ (w * l) = 2 ^ (w * (n + 1)) * 2 ^ (w * (l - (n + 1))) := by
    rw [← pow_add, ← Nat.mul_add, Nat.add_sub_cancel' hl]
  rw [lanePart, lanePart, hp, ← Nat.div_div_eq_div_mul, ← Nat.div_div_eq_div_mul, h]

/-- A word with part `n` replaced. -/
theorem toNat_setPart {x : Word} {n w r : Nat} (hn : w * (n + 1) ≤ 32) (hr : r < 2 ^ w) :
    (setPart x n w r).toNat = x.toNat / 2 ^ (w * (n + 1)) * 2 ^ (w * (n + 1)) + (r * 2 ^ (w * n) + x.toNat % 2 ^ (w * n)) := by
  have hp : 2 ^ (w * (n + 1)) = 2 ^ (w * n) * 2 ^ w := by rw [Nat.mul_succ, pow_add]
  have hx : x.toNat / 2 ^ (w * (n + 1)) * 2 ^ (w * (n + 1)) + (lanePart x n w * 2 ^ (w * n) + x.toNat % 2 ^ (w * n)) = x.toNat := by
    rw [lanePart, Nat.mul_comm (_ % 2 ^ w), Nat.add_comm (_ * _) (_ % _), ← Nat.mod_mul, ← hp, Nat.div_add_mod']
  have hlow : r * 2 ^ (w * n) + x.toNat % 2 ^ (w * n) < 2 ^ (w * (n + 1)) := by
    rw [hp, Nat.mul_comm]
    calc 2 ^ (w * n) * r + x.toNat % 2 ^ (w * n) < 2 ^ (w * n) * r + 2 ^ (w * n) := Nat.add_lt_add_left (Nat.mod_lt _ (by positivity)) _
      _ = 2 ^ (w * n) * (r + 1) := (Nat.mul_succ ..).symm
      _ ≤ _ := Nat.mul_le_mul_left _ hr
  have hsum : x.toNat / 2 ^ (w * (n + 1)) * 2 ^ (w * (n + 1)) + (r * 2 ^ (w * n) + x.toNat % 2 ^ (w * n)) < 2 ^ 32 := by
    have hd : 2 ^ 32 = 2 ^ (w * (n + 1)) * 2 ^ (32 - w * (n + 1)) := by rw [← pow_add, Nat.add_sub_cancel' hn]
    have hq : x.toNat / 2 ^ (w * (n + 1)) < 2 ^ (32 - w * (n + 1)) := Nat.div_lt_of_lt_mul (hd ▸ x.isLt)
    calc _ < x.toNat / 2 ^ (w * (n + 1)) * 2 ^ (w * (n + 1)) + 2 ^ (w * (n + 1)) := Nat.add_lt_add_left hlow _
      _ = (x.toNat / 2 ^ (w * (n + 1)) + 1) * 2 ^ (w * (n + 1)) := (Nat.succ_mul ..).symm
      _ ≤ 2 ^ (32 - w * (n + 1)) * 2 ^ (w * (n + 1)) := Nat.mul_le_mul_right _ hq
      _ = 2 ^ 32 := by rw [hd, Nat.mul_comm]
  have hsub : x.toNat - lanePart x n w * 2 ^ (w * n) + r * 2 ^ (w * n) =
      x.toNat / 2 ^ (w * (n + 1)) * 2 ^ (w * (n + 1)) + (r * 2 ^ (w * n) + x.toNat % 2 ^ (w * n)) := by
    conv_lhs => rw [← hx]
    generalize lanePart x n w * 2 ^ (w * n) = p, r * 2 ^ (w * n) = r'
    generalize x.toNat / 2 ^ (w * (n + 1)) * 2 ^ (w * (n + 1)) = u, x.toNat % 2 ^ (w * n) = v
    omega
  rw [setPart, BitVec.toNat_ofNat, Nat.mod_eq_of_lt hr, hsub, Nat.mod_eq_of_lt hsum]

/-- A lane with part `n` replaced has the new part there and its old parts elsewhere. -/
theorem lanePart_setPart {x : Word} {n l w r : Nat} (hn : w * (n + 1) ≤ 32) (hr : r < 2 ^ w) :
    lanePart (setPart x n w r) l w = if l = n then r else lanePart x l w := by
  have hy := toNat_setPart (x := x) hn hr
  have hp : 2 ^ (w * (n + 1)) = 2 ^ (w * n) * 2 ^ w := by rw [Nat.mul_succ, pow_add]
  have hlow : x.toNat % 2 ^ (w * n) < 2 ^ (w * n) := Nat.mod_lt _ (by positivity)
  rcases lt_trichotomy l n with h | rfl | h
  · rw [if_neg h.ne]
    refine part_of_mod h ?_
    rw [hy, hp, ← Nat.mul_assoc, Nat.mul_right_comm, ← Nat.add_assoc, ← Nat.add_mul, Nat.add_comm, Nat.add_mul_mod_self_right, Nat.mod_mod]
  · rw [if_pos rfl, lanePart, hy, hp, ← Nat.mul_assoc, Nat.mul_right_comm, ← Nat.add_assoc, ← Nat.add_mul, Nat.add_comm,
      Nat.add_mul_div_right _ _ (by positivity), Nat.div_eq_of_lt hlow, Nat.zero_add, Nat.add_comm, Nat.add_mul_mod_self_right,
      Nat.mod_eq_of_lt hr]
  · rw [if_neg h.ne']
    refine part_of_div h ?_
    have hl : r * 2 ^ (w * n) + x.toNat % 2 ^ (w * n) < 2 ^ (w * (n + 1)) := by
      rw [hp, Nat.mul_comm]
      exact Nat.lt_of_lt_of_le (Nat.add_lt_add_left hlow _) (Nat.mul_succ (2 ^ (w * n)) r ▸ Nat.mul_le_mul_left _ hr)
    rw [hy, Nat.add_comm, Nat.add_mul_div_right _ _ (by positivity), Nat.div_eq_of_lt hl, Nat.zero_add]

/-- A pack gives lanes whose parts are those of vd, or 0, but for the one that it makes. -/
theorem gives_of_sylPack {n w' : Nat} {g : Word → Nat × FpFlags × Nat} (h : s.ReadyV m u k [d, a] d q w [] [])
    (he : exec i s = runSyl s i true f) (hf : f (s.sees m u k i) = sylPack (s.sees m u k i) d a n w' q w want tag g)
    (hi : i.wellFormed = true) (hw : w' = 8 ∨ w' = 16) (hn : n < 32 / w') (hg : ∀ x, (g x).1 < 2 ^ w')
    (hx : (s.rv m u k a).Has want) (hm : s.Merges m u k d q w tag) : ∃ lanes : Nat → Word,
      (s.GivesV m u k i d q w tag 3 fun j =>
        ⟨lanes j, (g ((s.rv m u k a).lanes.getD j 0)).2.1, (g ((s.rv m u k a).lanes.getD j 0)).2.2, 0⟩) ∧
      ∀ j < 32, ∀ l < 32 / w', lanePart (lanes j) l w' = if l = n then (g ((s.rv m u k a).lanes.getD j 0)).1
        else if (s.rv m u k d).Has tag then lanePart ((s.rv m u k d).lanes.getD j 0) l w' else 0 := by
  refine ⟨fun j => setPart (if (s.rv m u k d).tag = tag ∨ (s.rv m u k d).tag = tagRAW then (s.rv m u k d).lanes.getD j 0 else 0) n w'
    (g ((s.rv m u k a).lanes.getD j 0)).1, givesV_of_frame h he hi rfl hf rfl (checkTag_nil hx) hm, fun j _ l _ => ?_⟩
  have room : w' * (n + 1) ≤ 32 := by
    rcases hw with rfl | rfl
    · exact Nat.mul_le_mul_left 8 hn
    · exact Nat.mul_le_mul_left 16 hn
  rw [lanePart_setPart room (hg _)]
  have keeps : ((s.rv m u k d).tag = tag ∨ (s.rv m u k d).tag = tagRAW) ↔ (s.rv m u k d).Has tag := or_comm
  have zero : lanePart 0 l w' = 0 := by simp [lanePart]
  by_cases hk : (s.rv m u k d).Has tag
  · rw [if_pos (keeps.2 hk), if_pos hk]
  · rw [if_neg (mt keeps.1 hk), if_neg hk, zero]

theorem satInt_eq (x : Int) : satInt x (-128) 127 = max (-128) (min 127 x) := by
  unfold satInt
  split_ifs <;> omega

end lanes

/-- Settles O30: each by its lanes; the signed lesser and greater by the order of their values. -/
theorem vectorIntegerLanes : Obligations.VectorIntegerLanes := by
  unfold Obligations.VectorIntegerLanes
  intro s m u k d a b q w tag h x y gives
  have hi : isMode w = true := decide_eq_true h.mode
  have checks {want : BitVec 3} (hx : x.Has want) (hy : y.Has want) : checkTag x a want ++ checkTag y b want = [] :=
    List.append_eq_nil_iff.2 ⟨checkTag_nil hx, checkTag_nil hy⟩
  refine ⟨fun hx hy hm => ⟨?_, ?_, ?_, ?_, ?_, ?_, ?_, ?_⟩, fun ht hm => ?_⟩
  · exact givesV_of_frame h (exec_vaddI ..) hi rfl rfl rfl (checks hx hy) hm
  · exact givesV_of_frame h (exec_vsubI ..) hi rfl rfl rfl (checks hx hy) hm
  · exact givesV_of_frame h (exec_vmulI ..) hi rfl rfl rfl (checks hx hy) hm
  · simp only [gives, ← minS_eq]
    exact givesV_of_frame h (exec_vminI ..) hi rfl rfl rfl (checks hx hy) hm
  · simp only [gives, ← maxS_eq]
    exact givesV_of_frame h (exec_vmaxI ..) hi rfl rfl rfl (checks hx hy) hm
  · exact givesV_of_frame h (exec_vshl ..) hi rfl rfl rfl (checks hx hy) hm
  · exact givesV_of_frame h (exec_vshr ..) hi rfl rfl rfl (checks hx hy) hm
  · exact givesV_of_frame h (exec_vsra ..) hi rfl rfl rfl (checks hx hy) hm
  · have hj := joinTag_ok (b := b) ht
    exact ⟨givesV_of_sylJoin h (exec_vand ..) hi hj hm, givesV_of_sylJoin h (exec_vor ..) hi hj hm,
      givesV_of_sylJoin h (exec_vxor ..) hi hj hm⟩

/-- Settles O32: each by the function that its lanes name. -/
theorem vectorFpLanes : Obligations.VectorFpLanes := by
  unfold Obligations.VectorFpLanes
  intro s m u k d a b q w x y z rm ftz fp two one fma hx hm
  refine ⟨fun h hy => ?_, fun h => ?_⟩
  · have hi : isMode w = true := decide_eq_true h.mode
    have checks : checkTag x a 2 ++ checkTag y b 2 = [] := List.append_eq_nil_iff.2 ⟨checkTag_nil hx, checkTag_nil hy⟩
    refine ⟨?_, ?_, ?_, ?_, ?_, ?_, fun hz => ?_⟩
    · exact givesV_of_frame h (exec_vaddF ..) hi rfl rfl rfl checks hm
    · exact givesV_of_frame h (exec_vsubF ..) hi rfl rfl rfl checks hm
    · exact givesV_of_frame h (exec_vmulF ..) hi rfl rfl rfl checks hm
    · exact givesV_of_frame h (exec_vdivF ..) hi rfl rfl rfl checks hm
    · exact givesV_of_frame h (exec_vminF ..) hi rfl rfl rfl checks hm
    · exact givesV_of_frame h (exec_vmaxF ..) hi rfl rfl rfl checks hm
    · have three : checkTag x a 2 ++ checkTag y b 2 ++ checkTag z d 2 = [] :=
        List.append_eq_nil_iff.2 ⟨checks, checkTag_nil hz⟩
      exact ⟨givesV_of_frame h (exec_vfmaF ..) hi rfl rfl rfl three hm, givesV_of_frame h (exec_vfmsF ..) hi rfl rfl rfl three hm⟩
  · have hi : isMode w = true := decide_eq_true h.mode
    refine ⟨?_, ?_, ?_, ?_, ?_, ?_, ?_⟩
    · exact givesV_of_frame h (exec_vsqrtF ..) hi rfl rfl rfl (checkTag_nil hx) hm
    · exact givesV_of_frame h (exec_vrcpF ..) hi rfl rfl rfl (checkTag_nil hx) hm
    · exact givesV_of_frame h (exec_vrsqF ..) hi rfl rfl rfl (checkTag_nil hx) hm
    · exact givesV_of_frame h (exec_vexp2F ..) hi rfl rfl rfl (checkTag_nil hx) hm
    · exact givesV_of_frame h (exec_vlog2F ..) hi rfl rfl rfl (checkTag_nil hx) hm
    · exact givesV_of_frame h (exec_vabsF ..) hi rfl rfl rfl (checkTag_nil hx) hm
    · exact givesV_of_frame h (exec_vnegF ..) hi rfl rfl rfl (checkTag_nil hx) hm

/-- Settles O33: the conversions lane by lane, the packs by the parts of their lanes. -/
theorem vectorConversions : Obligations.VectorConversions := by
  unfold Obligations.VectorConversions
  intro s m u k d a b n p q w x y z rm ftz sat part conv pack
  refine ⟨fun h => ?_, fun h hx hy hm hs => ?_⟩
  · have hi : isMode w = true := decide_eq_true h.mode
    have hn : n.toNat < 32 / 8 := n.isLt
    have hp : p.toNat < 32 / 16 := p.isLt
    refine ⟨fun hx hm => ?_, fun hx hm => ?_, fun hx hm => ?_, fun hx hm => ?_, fun hx hm => ?_, fun hx hm => ?_, ?_,
      fun hx hm => ?_⟩
    · exact givesV_of_frame h (exec_vcvtFI ..) hi rfl rfl rfl (checkTag_nil hx) hm
    · exact givesV_of_frame h (exec_vcvtIF ..) hi rfl rfl rfl (checkTag_nil hx) hm
    · exact givesV_of_frame h (exec_vupE4m3 ..) hi rfl rfl rfl (checkTag_nil hx) hm
    · exact givesV_of_frame h (exec_vupI8 ..) hi rfl rfl rfl (checkTag_nil hx) hm
    · exact givesV_of_frame h (exec_vupBf16 ..) hi rfl rfl rfl (checkTag_nil hx) hm
    · exact gives_of_sylPack (g := fun x => ((fpToE4m3 ftz sat x).1.toNat, (fpToE4m3 ftz sat x).2.1, (fpToE4m3 ftz sat x).2.2.toNat)) h
        (exec_vpkE4m3 ..) rfl hi (.inl rfl) hn (fun x => (fpToE4m3 ftz sat x).1.isLt) hx hm
    · have hsat : (fun x : Word => ((BitVec.ofInt 8 (max (-128) (min 127 x.toInt))).toNat, (0 : FpFlags), 0)) =
          fun x => ((BitVec.ofInt 8 (satInt x.toInt (-128) 127)).toNat, 0, 0) := funext fun x => by rw [satInt_eq]
      rw [hsat]
      exact fun hx hm => gives_of_sylPack (g := fun x => ((BitVec.ofInt 8 (satInt x.toInt (-128) 127)).toNat, 0, 0)) h
        (exec_vpkI8 ..) rfl hi (.inl rfl) hn (fun x => (BitVec.ofInt 8 (satInt x.toInt (-128) 127)).isLt) hx hm
    · exact gives_of_sylPack (g := fun x => ((fpToBf16 ftz x).1.toNat, (fpToBf16 ftz x).2, 0)) h
        (exec_vpkBf16 ..) rfl hi (.inr rfl) hp (fun x => (fpToBf16 ftz x).1.isLt) hx hm
  · have hi : (Instr.vbscl true d a b q w).wellFormed = true := decide_eq_true h.mode
    have upper : ((List.range 32).any fun j => (s.rq m u k q.toNat).getLsbD j && (x.lanes.getD j 0).toNat / 2 ^ 20 != 0) = false := by
      refine List.any_eq_false.2 fun j hj e => ?_
      obtain ⟨hq, hne⟩ := Bool.and_eq_true_iff.1 e
      exact bne_iff_ne.1 hne (Nat.div_eq_of_lt (hs j (List.mem_range.1 hj) hq))
    refine givesV_of_vectorSyl h.ready (exec_vbscl ..) rfl (vBase_static (one := true) h hi rfl (fun _ hr => hr) h.declaredQ) ?_
    refine List.append_eq_nil_iff.2 ⟨List.append_eq_nil_iff.2 ⟨List.append_eq_nil_iff.2 ⟨checkTag_nil hx, checkTag_nil hy⟩,
      mergeCheck_nil hm⟩, ?_⟩
    exact if_neg (Bool.eq_false_iff.1 upper)

end Sys2Proof.Machine
end

section
/-! The barriers at the end of a cycle (R388 to R393). -/

namespace Sys2Proof.Machine

-- One proof after the other, which keeps the memory of a build low.
set_option Elab.async false

section barriers

variable {c : Cell} {cycle : Nat} {js : List TbJob}

/-- What a command makes of its barrier, and the low part of the word that it delivers. -/
def TbJob.act (j : TbJob) (x : Tbar) : Tbar := if j.init then x.init j.a j.b else x.count 1 (j.a.toNat % 2 ^ 24)

def TbJob.delivery (j : TbJob) (cycle : Nat) (x : Tbar) : Delivery :=
  ⟨cycle + 1, j.k, j.op, j.t, x.word (if j.init then 0 else x.arr), []⟩

/-- A barrier after the commands of a list that name it. -/
def Cell.tbAfter (c : Cell) (js : List TbJob) (b : Nat) : Tbar := (js.filter fun j => j.tb == b).foldl (fun x j => j.act x) (c.tbar b)

theorem tbStep_tbar (j : TbJob) (b : Nat) : (c.tbStep cycle j).tbar b = if b = j.tb then j.act (c.tbar b) else c.tbar b := by
  have h : (c.tbStep cycle j).tbs = tput c.tbs j.tb (j.act (c.tbar j.tb)) := by
    unfold Cell.tbStep TbJob.act
    dsimp only
    split_ifs <;> rfl
  rw [Cell.tbar, h, tget_tput]
  by_cases hb : b = j.tb
  · rw [if_pos hb, if_pos hb, hb]
  · rw [if_neg hb, if_neg hb]; rfl

theorem tbStep_deliveries (j : TbJob) : (c.tbStep cycle j).deliveries =
    if j.t = 0 then c.deliveries else c.deliveries ++ [j.delivery cycle (j.act (c.tbar j.tb))] := by
  have h : (tput c.tbs j.tb (j.act (c.tbar j.tb)) |> fun t => tget Tbar.reset t j.tb) = j.act (c.tbar j.tb) := tget_tput_same ..
  by_cases ht : j.t = 0
  · rw [if_pos ht, Cell.tbStep, if_pos ht]; rfl
  · rw [if_neg ht, Cell.tbStep, if_neg ht]
    exact congrArg (fun x => c.deliveries ++ [j.delivery cycle x]) h

/-- A command leaves the rest of the cell. -/
theorem tbStep_rest (j : TbJob) : (c.tbStep cycle j).tbjobs = (c.tbjobs.filter fun x => x.op != j.op) ∧
    (c.tbStep cycle j).scb = (c.scb.filter fun e => e.op != j.op) ∧
    c.tbStep cycle j = { c with
      tbs := (c.tbStep cycle j).tbs, tbjobs := (c.tbStep cycle j).tbjobs, deliveries := (c.tbStep cycle j).deliveries
      scb := (c.tbStep cycle j).scb } := by
  unfold Cell.tbStep
  dsimp only
  split_ifs <;> exact ⟨rfl, rfl, rfl⟩

/-- The commands of a list, one after the other. -/
def Cell.tbRun (c : Cell) (cycle : Nat) (js : List TbJob) : Cell := js.foldl (fun c j => c.tbStep cycle j) c

theorem tbRun_cons (j : TbJob) : c.tbRun cycle (j :: js) = (c.tbStep cycle j).tbRun cycle js := rfl

theorem tbRun_tbar (b : Nat) : (c.tbRun cycle js).tbar b = c.tbAfter js b := by
  induction js generalizing c with
  | nil => rfl
  | cons j r ih =>
    rw [tbRun_cons, ih, Cell.tbAfter, Cell.tbAfter, tbStep_tbar]
    by_cases h : b = j.tb
    · rw [if_pos h, List.filter_cons_of_pos (by simpa using h.symm), List.foldl_cons]
    · rw [if_neg h, List.filter_cons_of_neg (by simpa using fun e => h e.symm)]

theorem filter_ne_any {α : Type} (f : α → Nat) (xs : List α) (j : TbJob) :
    ((xs.filter fun x => f x != j.op).filter fun x => !js.any fun i => i.op == f x) =
      xs.filter fun x => !(j :: js).any fun i => i.op == f x := by
  rw [List.filter_filter]
  refine List.filter_congr fun x _ => ?_
  rw [List.any_cons, Bool.not_or, Bool.and_comm, bne, Bool.beq_comm]

theorem tbRun_rest : (c.tbRun cycle js).tbjobs = (c.tbjobs.filter fun x => !js.any fun j => j.op == x.op) ∧
    (c.tbRun cycle js).scb = (c.scb.filter fun e => !js.any fun j => j.op == e.op) ∧
    c.tbRun cycle js = { c with
      tbs := (c.tbRun cycle js).tbs, tbjobs := (c.tbRun cycle js).tbjobs, deliveries := (c.tbRun cycle js).deliveries
      scb := (c.tbRun cycle js).scb } := by
  induction js generalizing c with
  | nil => simp [Cell.tbRun]
  | cons j r ih =>
    obtain ⟨hjobs, hscb, hrest⟩ := tbStep_rest (c := c) (cycle := cycle) j
    obtain ⟨ijobs, iscb, irest⟩ := ih (c := c.tbStep cycle j)
    rw [tbRun_cons]
    refine ⟨?_, ?_, irest.trans ?_⟩
    · rw [ijobs, hjobs, filter_ne_any]
    · rw [iscb, hscb, filter_ne_any]
    · exact congrArg (fun c' : Cell => { c' with
        tbs := ((c.tbStep cycle j).tbRun cycle r).tbs, tbjobs := ((c.tbStep cycle j).tbRun cycle r).tbjobs
        deliveries := ((c.tbStep cycle j).tbRun cycle r).deliveries, scb := ((c.tbStep cycle j).tbRun cycle r).scb }) hrest

theorem tbRun_deliveries_mono {d : Delivery} (h : d ∈ c.deliveries) : d ∈ (c.tbRun cycle js).deliveries := by
  induction js generalizing c with
  | nil => exact h
  | cons j r ih =>
    refine ih (c := c.tbStep cycle j) ?_
    rw [tbStep_deliveries]
    split_ifs
    · exact h
    · exact List.mem_append.2 (.inl h)

theorem tbRun_deliveries_op {d : Delivery} (h : d ∈ (c.tbRun cycle js).deliveries) :
    d ∈ c.deliveries ∨ d.op ∈ js.map fun j => j.op := by
  induction js generalizing c with
  | nil => exact .inl h
  | cons j r ih =>
    rcases ih (c := c.tbStep cycle j) h with h | h
    · rw [tbStep_deliveries] at h
      split_ifs at h
      · exact .inl h
      · refine (List.mem_append.1 h).imp_right fun h => ?_
        rw [List.mem_singleton.1 h]
        exact List.mem_cons_self
    · exact .inr (List.mem_cons_of_mem _ h)

/-- Each command with a register delivers its barrier's word as the commands up to it leave the barrier. -/
theorem tbRun_delivers {pre post : List TbJob} {j : TbJob} (hj : j.t ≠ 0) :
    j.delivery cycle (c.tbAfter (pre ++ [j]) j.tb) ∈ (c.tbRun cycle (pre ++ j :: post)).deliveries := by
  have hr : c.tbRun cycle (pre ++ j :: post) = ((c.tbRun cycle pre).tbStep cycle j).tbRun cycle post := List.foldl_append ..
  rw [hr]
  refine tbRun_deliveries_mono ?_
  have hf : ([j].filter fun x => x.tb == j.tb) = [j] := List.filter_cons_of_pos (by simp)
  rw [tbStep_deliveries, if_neg hj, tbRun_tbar, Cell.tbAfter, Cell.tbAfter, List.filter_append, List.foldl_append, hf]
  exact List.mem_append.2 (.inr List.mem_cons_self)

theorem tbs_rest {e c' : Cell} {t : Tab Tbar} (he : e = { c' with tbs := t })
    (h : c' = { c with tbs := c'.tbs, tbjobs := c'.tbjobs, deliveries := c'.deliveries, scb := c'.scb }) :
    e = { c with tbs := e.tbs, tbjobs := e.tbjobs, deliveries := e.deliveries, scb := e.scb } := by
  subst he
  exact congrArg (fun x : Cell => { x with tbs := t }) h

/-- The arrivals whose wait has ended, and the arming commands that are left after them. -/
def Cell.tbArrs (c : Cell) : List TbJob := c.tbjobs.filter fun j => !j.init && c.tbarrDue j

def Cell.tbInits (c : Cell) : List TbJob :=
  (c.tbjobs.filter fun x => !c.tbArrs.any fun j => j.op == x.op).filter fun j => j.init

theorem endBarriers_eq (cyc : Word) : c.endBarriers cycle cyc =
    { (c.tbRun cycle c.tbArrs).tbRun cycle c.tbInits with
      tbs := ((c.tbRun cycle c.tbArrs).tbRun cycle c.tbInits).tbs.map fun p => (p.1, p.2.complete cyc) } := by
  have hj : (c.tbRun cycle c.tbArrs).tbjobs.filter (fun j => j.init) = c.tbInits := by
    rw [tbRun_rest.1]; rfl
  rw [← hj]; rfl

theorem tbRun_two (is : List TbJob) : (c.tbRun cycle js).tbRun cycle is = c.tbRun cycle (js ++ is) := List.foldl_append.symm

theorem tbArrs_init {j : TbJob} (h : j ∈ c.tbArrs) : j.init = false := by
  have h := (List.mem_filter.1 h).2
  simpa using (Bool.and_eq_true_iff.1 h).1

theorem tbInits_init {j : TbJob} (h : j ∈ c.tbInits) : j.init = true := (List.mem_filter.1 h).2

theorem tbarrDue_eq (j : TbJob) :
    c.tbarrDue j = c.scb.all fun e => e.k != j.k || decide (j.op ≤ e.rank) || e.writes.isEmpty := by
  rw [Cell.tbarrDue]
  congr 1
  funext e
  rw [Bool.not_and, Bool.not_and, Bool.not_not, ← decide_not, bne]
  simp only [not_lt]

theorem foldl_congr_mem {α β : Type} {f g : β → α → β} {xs : List α} (h : ∀ j ∈ xs, ∀ x, f x j = g x j) (x : β) :
    xs.foldl f x = xs.foldl g x := by
  induction xs generalizing x with
  | nil => rfl
  | cons j r ih =>
    rw [List.foldl_cons, List.foldl_cons, h j List.mem_cons_self, ih fun i hi => h i (List.mem_cons_of_mem _ hi)]

theorem settleAll_cycle (ps : List (Nat × Nat)) (s : State) :
    (ps.foldl (fun s p => s.settleBarriers p.1 p.2) s).cycle = s.cycle := by
  induction ps generalizing s with
  | nil => rfl
  | cons p r ih => exact ih _

end barriers

/-- Settles O58: the commands of a barrier act on it in their order, those of other barriers leave it, and each delivers the
word that it leaves. -/
theorem barrierStepsRun : Obligations.BarrierStepsRun := by
  unfold Obligations.BarrierStepsRun
  refine ⟨fun s m u => ?_, fun s hcur hmods htodo hphase => ?_⟩
  · intro c due arrs left inits arrive arm finish counted armed
    have harrs : arrs = c.tbArrs := List.filter_congr fun j _ => by rw [tbarrDue_eq]
    have hinits : inits = c.tbInits := by
      show (c.tbjobs.filter fun x => !arrs.any fun j => j.op == x.op).filter (fun j => j.init) = _
      rw [harrs]; rfl
    have hcounted (js : List TbJob) (b : Nat) (h : ∀ j ∈ js, j ∈ c.tbArrs) : counted js b = c.tbAfter js b :=
      foldl_congr_mem (fun j hj x => by
        have hi := tbArrs_init (h j (List.mem_filter.1 hj).1)
        rw [TbJob.act, hi]; rfl) _
    have harmed (js : List TbJob) (b : Nat) (h : ∀ j ∈ js, j ∈ c.tbInits) : armed js b = c.tbAfter (c.tbArrs ++ js) b := by
      rw [Cell.tbAfter, List.filter_append, List.foldl_append]
      refine (foldl_congr_mem (fun j hj x => ?_) _).trans (congrArg (fun x => (js.filter fun j => j.tb == b).foldl (fun x j => j.act x) x) ?_)
      · have hi := tbInits_init (h j (List.mem_filter.1 hj).1)
        rw [TbJob.act, hi]; rfl
      · rw [harrs]; exact hcounted _ b fun _ h => h
    have hrun := endBarriers_eq (c := c) (cycle := s.cycle) ((s.cyc m).setWidth 32)
    rw [tbRun_two] at hrun
    have hrest := tbRun_rest (c := c) (cycle := s.cycle) (js := c.tbArrs ++ c.tbInits)
    have hdel : (c.endBarriers s.cycle ((s.cyc m).setWidth 32)).deliveries =
        (c.tbRun s.cycle (c.tbArrs ++ c.tbInits)).deliveries := by rw [hrun]
    refine ⟨c.endBarriers s.cycle ((s.cyc m).setWidth 32), rfl, fun b => ?_, ?_, ?_, ?_, ?_, ?_, ?_, ?_⟩
    · rw [hrun, harmed inits b fun _ h => hinits ▸ h, hinits]
      exact (tget_map (e := Tbar.reset) (f := fun x => x.complete ((s.cyc m).setWidth 32)) _ b (.inl rfl)).trans (congrArg (Tbar.complete · ((s.cyc m).setWidth 32)) (tbRun_tbar b))
    · rw [hrun, hinits]
      show _ = (c.tbjobs.filter fun x => !arrs.any fun j => j.op == x.op).filter _
      rw [harrs, List.filter_filter]
      refine hrest.1.trans (List.filter_congr fun x _ => ?_)
      rw [List.any_append, Bool.not_or, Bool.and_comm]
    · intro pre j post he ht x
      have hmem : ∀ i ∈ pre ++ [j], i ∈ c.tbArrs := fun i hi => by
        rw [← harrs, he]; simp only [List.mem_append, List.mem_cons] at hi ⊢; tauto
      have hx : x = c.tbAfter (pre ++ [j]) j.tb := hcounted _ _ hmem
      have hj := tbArrs_init (hmem j (List.mem_append.2 (.inr List.mem_cons_self)))
      have h := tbRun_delivers (c := c) (cycle := s.cycle) (pre := pre) (post := post ++ c.tbInits) ht
      rw [hdel, hx, ← harrs, he, List.append_assoc]
      rw [TbJob.delivery, hj] at h
      exact h
    · intro pre j post he ht x
      have hmem : ∀ i ∈ pre ++ [j], i ∈ c.tbInits := fun i hi => by
        rw [← hinits, he]; simp only [List.mem_append, List.mem_cons] at hi ⊢; tauto
      have hx : x = c.tbAfter (c.tbArrs ++ (pre ++ [j])) j.tb := harmed _ _ hmem
      have hj := tbInits_init (hmem j (List.mem_append.2 (.inr List.mem_cons_self)))
      have h := tbRun_delivers (c := c) (cycle := s.cycle) (pre := c.tbArrs ++ pre) (post := post) ht
      rw [hdel, hx, ← hinits, he, ← List.append_assoc c.tbArrs pre (j :: post), ← List.append_assoc c.tbArrs pre [j]]
      simp only [TbJob.delivery, hj, if_true, Tbar.word, Nat.add_zero] at h
      exact h
    · rw [hdel, harrs, hinits]
      exact fun d => tbRun_deliveries_op
    · rw [hdel]
      exact fun d => tbRun_deliveries_mono
    · rw [hrun, harrs, hinits]
      exact hrest.2.1
    · exact tbs_rest hrun hrest.2.2
  · have hstep : step s = .next (beginStage 11 s) := by
      rw [step, hcur, agendaStep, htodo, hphase]
      exact if_neg (by simpa using hmods)
    refine ⟨_, hstep, rfl, ?_, rfl⟩
    exact settleAll_cycle (s.eachCell fun c => (c.startCtx s.cycle).freezeControllers s.cycle).units _

end Sys2Proof.Machine
end

section
/-! The checks of a plain access (R100, R182, R184, R202). -/

namespace Sys2Proof.Machine

-- One proof after the other, which keeps the memory of a build low.
set_option Elab.async false

section access

variable {s : State} {m u k hn n : Nat} {off : Int} {kind : Access}

/-- The race check: what an access gives where the detector sees a race, and where it sees none. -/
def State.eaRace (s : State) (m u k c : Nat) (seen free : Ea) : Ea :=
  match (s.cell m u).raceAt c with
  | some r => if r.conflict ((s.strand m u k).recid.toNat, k) (s.strand m u k).lacq then seen else free
  | none => free

theorem eaRace_conflict {c : Nat} {seen free : Ea} {r : Race} (hr : (s.cell m u).raceAt c = some r)
    (hx : r.conflict ((s.strand m u k).recid.toNat, k) (s.strand m u k).lacq = true) : s.eaRace m u k c seen free = seen := by
  rw [State.eaRace, hr]; exact if_pos hx

theorem eaRace_free {c : Nat} {seen free : Ea} (h : ∀ r, (s.cell m u).raceAt c = some r →
    r.conflict ((s.strand m u k).recid.toNat, k) (s.strand m u k).lacq = false) : s.eaRace m u k c seen free = free := by
  rw [State.eaRace]
  cases hr : (s.cell m u).raceAt c with
  | none => rfl
  | some r => exact if_neg (by rw [h r hr]; exact Bool.false_ne_true)

/-- The part of the checks that follows the region check. -/
def State.eaAfter (s : State) (m u k hn n c : Nat) (off : Int) (kind : Access) : Ea :=
  let h := s.rh m u k hn
  let at' : Word := BitVec.ofInt 32 off
  if off.toNat % n ≠ 0 then .trap (trapReq causeMisalign at')
  else if kind ≠ .load ∧ h.permW = false ∨ kind = .atomic ∧ h.permLa = false then .trap (trapReq causePermitW at')
  else if kind ≠ .load ∧ h.disc then .trap (trapReq causeDiscardWrite at')
  else
    s.eaRace m u k c (.trap (trapReq causeMmRace at')) (.ok c h.disc (h.mig && kind != .load))

/-- The limit of a handle, and the cell offset that it gives an offset. -/
def Handle.limit (h : Handle) : Nat := if h.win then h.w2.toNat else 65536

def Handle.place (h : Handle) (off : Int) : Nat :=
  if h.win then h.w1.toNat + off.toNat else h.w3.toNat * 65536 % 2 ^ 23 + off.toNat

/-- The checks of an access of a cell, one after the other. -/
theorem ea_eq (hs : (s.cell m u).spire = false) : s.ea m u k hn off n kind =
    if (s.rh m u k hn).valid = false then
      .trap (trapReq (if (s.rh m u k hn).rev then causeHandleRevoked else causeHandleInvalid) (BitVec.ofNat 32 hn))
    else if (s.rh m u k hn).aper ≠ 0 then .trap (trapReq causeNonlocal (BitVec.ofNat 32 hn))
    else if off < 0 ∨ ((s.rh m u k hn).limit : Int) < off + n then .trap (trapReq causeBounds (BitVec.ofInt 32 off))
    else if kind ≠ .store ∧ (s.rh m u k hn).permR = false then .trap (trapReq causeBounds (BitVec.ofInt 32 off))
    else
      match regionCheck (s.desc m u k) (!(s.strand m u k).sibling) kind ((s.rh m u k hn).place off) n with
      | some cause => .trap (trapReq cause (BitVec.ofInt 32 off))
      | none => s.eaAfter m u k hn n ((s.rh m u k hn).place off) off kind := by
  have hspire : (s.sees m u k (.nop true)).spire = false := hs
  unfold State.ea View.ea
  rw [hspire]
  by_cases hv : (s.rh m u k hn).valid = false
  · rw [if_pos hv, if_pos]
    · rfl
    · exact congrArg (!·) hv
  · rw [if_neg hv, if_neg]
    · rfl
    · exact fun h => hv (by simpa using h)

theorem inside_iff {a n b size : Nat} : inside a n b size = true ↔ b ≤ a ∧ a + n ≤ b + size := by
  simp [inside]

theorem meets_iff {a n b size : Nat} : meets a n b size = true ↔ ¬ (n = 0 ∨ size = 0 ∨ a + n ≤ b ∨ b + size ≤ a) := by
  simp [meets]; omega

theorem conflict_iff {r : Race} {ctx : Nat × Nat} {lacq : Nat} : r.conflict ctx lacq = true ↔
    ∃ w, r.wr = some w ∧ w ≠ ctx ∧ ∀ released, r.wrel = some released → lacq ≤ released := by
  unfold Race.conflict
  cases r.wr with
  | none => simp
  | some w => cases r.wrel <;> simp

/-- The region check finds the first region that holds the bytes, and else looks at the carve-out. -/
theorem regionCheck_first {d : Desc} {bound : Bool} {c : Nat} {pre post : List Region} {r : Region}
    (hd : d.regions = pre ++ r :: post) (hr : inside c n r.off r.size = true)
    (hpre : ∀ x ∈ pre, inside c n x.off x.size = false) :
    regionCheck d bound kind c n = if r.admits bound kind then none else some causeBounds := by
  have hf : d.regions.find? (fun r => inside c n r.off r.size) = some r := by
    rw [hd]
    exact List.find?_eq_some_iff_append.2 ⟨hr, pre, post, rfl, fun x hx => by rw [hpre x hx]; rfl⟩
  rw [regionCheck, hf]

theorem regionCheck_none {d : Desc} {bound : Bool} {c : Nat} (hd : ∀ r ∈ d.regions, inside c n r.off r.size = false) :
    regionCheck d bound kind c n =
      if inside c n (d.wbase + d.spoff) d.spill then (if bound then none else some causeBounds)
      else if d.regions.any (fun r => meets c n r.off r.size) || meets c n (d.wbase + d.spoff) d.spill then some causeBounds
      else some causeDecl := by
  have hf : d.regions.find? (fun r => inside c n r.off r.size) = none :=
    List.find?_eq_none.2 fun r hr => by rw [hd r hr]; exact Bool.false_ne_true
  rw [regionCheck, hf]; rfl

end access

/-- Settles O24: the checks one after the other. -/
theorem accessChecks : Obligations.AccessChecks := by
  unfold Obligations.AccessChecks
  refine ⟨fun s m u k hn n off kind hs => ?_, fun d bound kind c n => ?_, fun r ctx lacq => conflict_iff⟩
  · intro h ea limit c bound at'
    have hlimit : (h.limit : Int) = limit := apply_ite (Nat.cast (R := Int)) (h.win = true) h.w2.toNat 65536
    have heq := ea_eq (k := k) (hn := hn) (n := n) (off := off) (kind := kind) hs
    rw [show (s.rh m u k hn).limit = limit from hlimit] at heq
    have reached (hv : h.valid = true) (ha : h.aper = 0) (h0 : 0 ≤ off) (hl : off + n ≤ limit)
        (hr : kind = .store ∨ h.permR = true) :
        ea = match regionCheck (s.desc m u k) bound kind c n with
          | some cause => .trap (trapReq cause at')
          | none => s.eaAfter m u k hn n c off kind := by
      refine heq.trans ((if_neg (by simpa using hv)).trans ((if_neg (not_not.2 ha)).trans ((if_neg ?_).trans (if_neg ?_))))
      · exact fun ho => ho.elim (not_lt.2 h0) (not_lt.2 hl)
      · rintro ⟨hk, hp⟩
        exact Bool.false_ne_true (hp.symm.trans (hr.resolve_left hk))
    refine ⟨fun hv => ?_, fun hv ha => ?_, fun hv ha hb => ?_, fun hv ha h0 hl hr => ⟨fun cause hc => ?_, fun hc => ?_⟩⟩
    · exact heq.trans (if_pos hv)
    · exact heq.trans ((if_neg (by simpa using hv)).trans (if_pos ha))
    · refine heq.trans ((if_neg (by simpa using hv)).trans ((if_neg (not_not.2 ha)).trans ?_))
      by_cases ho : off < 0 ∨ limit < off + n
      · exact if_pos ho
      · exact (if_neg ho).trans (if_pos ((or_assoc.2 hb).resolve_left ho))
    · have hreach := reached hv ha h0 hl hr
      rw [hc] at hreach
      exact hreach
    · have hreach := reached hv ha h0 hl hr
      rw [hc] at hreach
      refine ⟨fun hm => hreach.trans (if_pos hm), fun hm => ⟨fun hp => hreach.trans ((if_neg (not_not.2 hm)).trans (if_pos hp)),
        fun hw hla => ?_⟩⟩
      have hp : ¬ (kind ≠ .load ∧ h.permW = false ∨ kind = .atomic ∧ h.permLa = false) := by
        rintro (⟨hk, h0⟩ | ⟨hk, h0⟩)
        · exact Bool.false_ne_true (h0.symm.trans (hw.resolve_left hk))
        · exact Bool.false_ne_true (h0.symm.trans (hla hk))
      have hafter := hreach.trans ((if_neg (not_not.2 hm)).trans (if_neg hp))
      refine ⟨fun hk hd => hafter.trans (if_pos ⟨hk, hd⟩), fun hd => ?_⟩
      have hrace := hafter.trans (if_neg fun ⟨hk, hd'⟩ =>
        Bool.false_ne_true ((hd.resolve_left hk).symm.trans hd'))
      refine ⟨fun r hr hx => ?_, fun hno => ?_⟩
      · exact hrace.trans (eaRace_conflict hr hx)
      · exact hrace.trans (eaRace_free hno)
  · intro holds admits carve inCarve apart
    refine ⟨fun pre r post hd hr hpre => ?_, fun hd => ?_⟩
    · have heq := regionCheck_first (kind := kind) (bound := bound) hd (inside_iff.2 hr) fun x hx =>
        Bool.eq_false_iff.2 fun h => hpre x hx (inside_iff.1 h)
      have hadm : admits r ↔ r.admits bound kind = true := by
        unfold Region.admits
        show (match r.cls with | .priv => bound = true | .shared => True | .inbox => kind ≠ .store | .weight => kind = .load) ↔ _
        cases r.cls <;> simp
      rw [heq, hadm]
      exact ⟨fun h => if_pos h, fun h => if_neg h⟩
    · have heq := regionCheck_none (kind := kind) (bound := bound) fun r hr =>
        Bool.eq_false_iff.2 fun h => hd r hr (inside_iff.1 h)
      rw [heq]
      refine ⟨fun h => if_pos (inside_iff.2 h), fun h ha hc => ?_, fun h ho => ?_⟩
      · rw [if_neg fun hi => h (inside_iff.1 hi), if_neg]
        intro hm
        rcases Bool.or_eq_true_iff.1 hm with hm | hm
        · obtain ⟨r, hr, hm⟩ := List.any_eq_true.1 hm
          exact meets_iff.1 hm (ha r hr)
        · exact meets_iff.1 hm hc
      · rw [if_neg fun hi => h (inside_iff.1 hi), if_pos]
        refine Bool.or_eq_true_iff.2 (ho.imp (fun ⟨r, hr, hm⟩ => ?_) meets_iff.2)
        exact List.any_eq_true.2 ⟨r, hr, meets_iff.2 hm⟩

end Sys2Proof.Machine
end

section
/-! The vector loads and stores (R189 to R193). -/

namespace Sys2Proof.Machine

-- One proof after the other, which keeps the memory of a build low.
set_option Elab.async false

section vectorAccess

variable {s t : State} {m u k lat : Nat} {i : Instr} {d a : BitVec 6} {hn : BitVec 4} {scalars vecs : List (BitVec 6)}
  {tag : BitVec 3} {kind : Access} {c : Nat → Nat} {mig : Nat → Bool} {f : Nat → Int}

/-- The syllable of a vector access whose addresses are good, of which nothing holds the bytes. -/
def mvSyl (v : View) (d : BitVec 6) (hn : BitVec 4) (scalars vecs : List (BitVec 6)) (dests : List (Reg × Nat))
    (effects : List Effect) : Syl :=
  { mvBase v d hn scalars vecs with dests := dests, effects := effects }

/-- Such a syllable has its effects, one after the other. -/
theorem exec_of_mvSyl {f : View → Syl} {dests : List (Reg × Nat)} {effects : List Effect} (h : s.Ready m u k scalars [])
    (hh : s.DeclaresH m u k [hn.toNat]) (hv : s.DeclaresV m u k (d :: vecs)) (hs : (s.cell m u).spire = false)
    (hc : ∀ a ∈ vecs, clusterOf a.toNat = clusterOf d.toNat)
    (he : exec i s = runSyl s i true f) (hi : i.wellFormed = true)
    (hf : f (s.sees m u k i) = mvSyl (s.sees m u k i) d hn scalars vecs dests effects)
    (hl : effects.countP Effect.lands ≤ 1)
    (ho : effects.filter Effect.lands ++ (effects.filter Effect.syncs ++ (effects.filter Effect.reads ++
      effects.filter Effect.writes)) = effects) :
    ∃ next, exec i s = .next (effects.foldl (applyEffect m u k next) (s.committed m u k 1)) := by
  have hclusters : (vecs.flatMap fun a =>
      if clusterOf a.toNat ≠ clusterOf d.toNat then [trapReq causeCluster (a.setWidth 32)] else []) = [] :=
    List.flatMap_eq_nil_iff.2 fun a ha => if_neg (not_not.2 (hc a ha))
  have hy : (mvSyl (s.sees m u k i) d hn scalars vecs dests effects).Issues (s.strand m u k) :=
    { static := by
        show (s.sees m u k i).illegal false ++ _ ++ (s.sees m u k i).declV (d :: vecs) ++
          (s.sees m u k i).declS scalars ++ (s.sees m u k i).declH [hn.toNat] = []
        rw [illegal_cell hi hs, hclusters, declV_nil hv, declS_nil (show s.DeclaresS m u k scalars from h.declared),
          declH_nil hh]
        rfl
      dyn := rfl
      image := rfl
      pend := fun p hp => h.settled.pend p hp
      notes := fun n hn => h.settled.notes n hn
      loop := .inl rfl
      free := rfl
      room := by
        have hc : landCount [mvSyl (s.sees m u k i) d hn scalars vecs dests effects] = effects.countP Effect.lands := by
          simp [landCount, mvSyl]
        have := h.room
        omega }
  have hord : orderedEffects [mvSyl (s.sees m u k i) d hn scalars vecs dests effects] = effects :=
    (orderedEffects_memory rfl).trans ho
  exact ⟨(s.strand m u k).pc + 1, by
    rw [he, runSyl_commits h.opened (hf ▸ hy), hf, commitBundle_single hy.notes, hord]⟩

/-! ### Loads -/

/-- A load that reads sound words lands them under its tag. -/
theorem gives_of_mvLoad {g : View → Syl} {lanes : List Word} {rs : List (Nat × Nat)} {words : Vector Word 32}
    (h : s.Ready m u k scalars []) (hh : s.DeclaresH m u k [hn.toNat]) (hv : s.DeclaresV m u k (d :: vecs))
    (hs : (s.cell m u).spire = false) (hc : ∀ a ∈ vecs, clusterOf a.toNat = clusterOf d.toNat)
    (he : exec i s = runSyl s i true g) (hi : i.wellFormed = true)
    (hg : g (s.sees m u k i) = mvLoad (s.sees m u k i) (mvBase (s.sees m u k i) d hn scalars vecs) d tag lat lanes false rs)
    (hlanes : vregOf lanes tag = ⟨words, tag⟩) (hfits : tag = 7 → ∀ w ∈ lanes, w.toNat < 2 ^ 20)
    (hfree : ∀ r ∈ rs, (s.cell m u).held .load r.1 r.2 = false) (hclean : ∀ r ∈ rs, (s.cell m u).corrupt r.1 r.2 = false)
    (hflips : (s.cell m u).flips = []) :
    s.Gives m u k i (.v (s.pv m u k d)) (.vec ⟨words, tag⟩) lat := by
  have hheld : (rs.any fun r => (s.cell m u).held .load r.1 r.2) = false :=
    List.any_eq_false.2 fun r hr => by rw [hfree r hr]; exact Bool.false_ne_true
  have hbad : (rs.any fun r => (s.cell m u).corrupt r.1 r.2) = false :=
    List.any_eq_false.2 fun r hr => by rw [hclean r hr]; exact Bool.false_ne_true
  have hscl : ¬ (tag = tagSCL ∧ (lanes.any fun w => w.toNat / 2 ^ 20 != 0) = true) := fun ⟨ht, hl⟩ => by
    obtain ⟨w, hw, hx⟩ := List.any_eq_true.1 hl
    exact bne_iff_ne.1 hx (Nat.div_eq_of_lt (hfits ht w hw))
  have hf : g (s.sees m u k i) = mvSyl (s.sees m u k i) d hn scalars vecs [(.v (s.pv m u k d), lat)]
      [.land (s.result m u k (.v (s.pv m u k d)) (.vec ⟨words, tag⟩) lat)] := by
    rw [hg, mvLoad]
    dsimp only
    rw [sees_cell, hheld, hbad, finds_nil hflips, hlanes, if_neg fun h => hscl h.2]
    rfl
  obtain ⟨next, hx⟩ := exec_of_mvSyl h hh hv hs hc he hi hf (Nat.le_refl 1) rfl
  exact ⟨_, hx, (committed_issued h.opened.strand).land h.opened.strand next _⟩

/-- Where every lane's address is good, the lanes' addresses. -/
theorem laneEas_ok (js : List Nat) (h : ∀ j ∈ js, s.ea m u k hn.toNat (f j) 4 kind = .ok (c j) false (mig j)) :
    laneEas (s.sees m u k i) hn.toNat kind (js.map f) = .ok (js.map c, false, js.any mig) := by
  induction js with
  | nil => rfl
  | cons j r ih =>
    rw [List.map_cons, laneEas, sees_ea, h j List.mem_cons_self]
    dsimp only
    rw [ih fun x hx => h x (List.mem_cons_of_mem _ hx)]
    rfl

theorem vregOf_range (g : Nat → Word) :
    vregOf ((List.range 32).map g) tag = ⟨Vector.ofFn fun j : Fin 32 => g j, tag⟩ := by
  rw [vregOf]
  congr 2
  funext j
  simp

/-- A load of one word per lane. -/
theorem gives_of_sylLanesLoad {traps : View → List TrapReq} {offs : View → List Int} (h : s.Ready m u k scalars []) (hh : s.DeclaresH m u k [hn.toNat])
    (hv : s.DeclaresV m u k (d :: vecs)) (hs : (s.cell m u).spire = false)
    (hc : ∀ a ∈ vecs, clusterOf a.toNat = clusterOf d.toNat)
    (he : exec i s = runSyl s i true fun v => sylLanesLoad v (mvBase v d hn scalars vecs) d hn tag lat (offs v) (traps v))
    (ho : offs (s.sees m u k i) = (List.range 32).map f) (ht : traps (s.sees m u k i) = [])
    (hi : i.wellFormed = true) (hea : ∀ j < 32, s.ea m u k hn.toNat (f j) 4 .load = .ok (c j) false (mig j))
    (hfits : tag = 7 → ∀ j < 32, (memWord (s.cell m u).mem (c j)).toNat < 2 ^ 20)
    (hfree : ∀ j < 32, (s.cell m u).held .load (c j) 4 = false)
    (hclean : ∀ j < 32, (s.cell m u).corrupt (c j) 4 = false) (hflips : (s.cell m u).flips = []) :
    s.Gives m u k i (.v (s.pv m u k d)) (.vec ⟨Vector.ofFn fun j : Fin 32 => memWord (s.cell m u).mem (c j), tag⟩) lat := by
  refine gives_of_mvLoad (lanes := (List.range 32).map fun j => memWord (s.cell m u).mem (c j))
    (rs := ((List.range 32).map c).map fun c => (c, 4)) h hh hv hs hc he hi ?_ (vregOf_range _) ?_ ?_ ?_ hflips
  · rw [ho, sylLanesLoad, laneEas_ok _ fun j hj => hea j (List.mem_range.1 hj), ht]
    dsimp only
    rw [List.map_map]
    rfl
  · intro ht w hw
    obtain ⟨j, hj, rfl⟩ := List.mem_map.1 hw
    exact hfits ht j (List.mem_range.1 hj)
  all_goals
    intro r hr
    rw [List.map_map] at hr
    obtain ⟨j, hj, rfl⟩ := List.mem_map.1 hr
  · exact hfree j (List.mem_range.1 hj)
  · exact hclean j (List.mem_range.1 hj)

/-- The words of a run of bytes of a memory. -/
theorem wordsOf_memBytes (mem : List Host.Cell) (a n : Nat) :
    wordsOf (memBytes mem a (4 * n)) = (List.range n).map fun j => memWord mem (a + 4 * j) := by
  induction n generalizing a with
  | zero => rfl
  | succ n ih =>
    rw [Nat.mul_succ, memBytes_succ, memBytes_succ, memBytes_succ, memBytes_succ, wordsOf, ih, List.range_succ_eq_map,
      List.map_cons, List.map_map]
    congr 1
    · rw [memWord, memBytes_succ, memBytes_succ, memBytes_succ, memBytes_succ]; rfl
    · refine List.map_congr_left fun j _ => congrArg (memWord mem) ?_
      simp only [Nat.succ_eq_add_one]; omega

/-- Sound words are sound bytes. -/
theorem corrupt_run {x : Cell} {a n : Nat} (h : ∀ j < n, x.corrupt (a + 4 * j) 4 = false) (hf : x.flips = []) :
    x.corrupt a (4 * n) = false := by
  rw [Cell.corrupt, hf, List.any_nil, Bool.or_false]
  refine List.any_eq_false.2 fun w hw hm => ?_
  obtain ⟨h1, h2, h3⟩ : a < 8 * w + 8 ∧ 8 * w < a + 4 * n ∧ 0 < n := by simp [meets] at hm; omega
  have hj : (8 * w - a) / 4 < n := by omega
  have hc := h _ hj
  rw [Cell.corrupt, hf, List.any_nil, Bool.or_false] at hc
  refine List.any_eq_false.1 hc w hw ?_
  simp [meets]; omega

/-! ### Stores -/

/-- An effect that writes, whose place in a bundle is after the others. -/
def Effect.late (e : Effect) : Prop := e.lands = false ∧ e.syncs = false ∧ e.reads = false ∧ e.writes = true

theorem late_order {es : List Effect} (h : ∀ e ∈ es, e.late) : es.countP Effect.lands ≤ 1 ∧
    es.filter Effect.lands ++ (es.filter Effect.syncs ++ (es.filter Effect.reads ++ es.filter Effect.writes)) = es := by
  have hl : es.filter Effect.lands = [] := List.filter_eq_nil_iff.2 fun e he => by rw [(h e he).1]; exact Bool.false_ne_true
  have hs : es.filter Effect.syncs = [] := List.filter_eq_nil_iff.2 fun e he => by rw [(h e he).2.1]; exact Bool.false_ne_true
  have hr : es.filter Effect.reads = [] := List.filter_eq_nil_iff.2 fun e he => by rw [(h e he).2.2.1]; exact Bool.false_ne_true
  have hw : es.filter Effect.writes = es := List.filter_eq_self.2 fun e he => (h e he).2.2.2
  rw [List.countP_eq_length_filter, hl, hs, hr, hw]
  exact ⟨Nat.zero_le _, rfl⟩

/-- Notes of writers change the detectors alone. -/
theorem IssuedIn.races {x : Cell} {ls : List Landing} (next : BitVec 15) (rs : List Nat) (h : IssuedIn s t m u k x ls) :
    ∃ y, IssuedIn s ((rs.map Effect.raceWrite).foldl (applyEffect m u k next) t) m u k { x with races := y } ls := by
  induction rs generalizing t x with
  | nil => exact ⟨x.races, h⟩
  | cons r rs ih =>
    have hstep : IssuedIn s (applyEffect m u k next t (.raceWrite r)) m u k { x with
        races := x.races.map fun z => if z.off = r then { z with wr := some ((t.strand m u k).recid.toNat, k), wrel := none } else z } ls :=
      h.onCell (fun x' => { x' with
        races := x'.races.map fun z => if z.off = r then { z with wr := some ((t.strand m u k).recid.toNat, k), wrel := none } else z })
        (fun _ => rfl) (by rw [h.cell]; rfl)
    obtain ⟨y, hy⟩ := ih hstep
    exact ⟨y, hy⟩

/-- The cell with words stored one after the other. -/
def Cell.storeWords (x : Cell) (ps : List (Nat × Word)) : Cell := ps.foldl (fun x p => x.storeBytes p.1 (leBytes 4 p.2.toNat)) x

theorem IssuedIn.stores {x : Cell} {ls : List Landing} (next : BitVec 15) (ps : List (Nat × Word)) (h : IssuedIn s t m u k x ls) :
    IssuedIn s ((ps.map fun p => Effect.store p.1 (leBytes 4 p.2.toNat)).foldl (applyEffect m u k next) t) m u k
      (x.storeWords ps) ls := by
  induction ps generalizing t x with
  | nil => exact h
  | cons p r ih => exact ih (h.store next p.1 _)

theorem storeWords_rest (x : Cell) (ps : List (Nat × Word)) : x.storeWords ps =
    { x with mem := (x.storeWords ps).mem, bad := (x.storeWords ps).bad, flips := (x.storeWords ps).flips } :=
  List.foldlRecOn (motive := fun y : Cell => y = { x with mem := y.mem, bad := y.bad, flips := y.flips }) _ _ rfl
    fun _ h p _ => congrArg (fun z : Cell => z.storeBytes p.1 (leBytes 4 p.2.toNat)) h

theorem length_leBytes (n x : Nat) : (leBytes n x).length = n := by
  induction n generalizing x with
  | zero => rfl
  | succ n ih => rw [leBytes_succ, List.length_cons, ih]

theorem getD_leBytes (w : Word) {n j : Nat} (h : j < n) : (leBytes n w.toNat).getD j 0 = w.extractLsb' (8 * j) 8 := by
  rw [leBytes_eq_extract, List.getD_eq_getElem?_getD]
  simp [h]

/-- Of words stored one after the other, a byte keeps what the last one that holds it writes. -/
theorem memByte_storeWord (x : Cell) (a : Nat) (w : Word) (b : Nat) :
    memByte (x.storeBytes a (leBytes 4 w.toNat)).mem b =
      if a ≤ b ∧ b < a + 4 then w.extractLsb' (8 * (b - a)) 8 else memByte x.mem b := by
  have h := memByte_memWrite x.mem a (leBytes 4 w.toNat) b
  rw [length_leBytes] at h
  refine h.trans ?_
  by_cases hb : a ≤ b ∧ b < a + 4
  · rw [if_pos hb, if_pos hb, getD_leBytes w (by omega)]
  · rw [if_neg hb, if_neg hb]

theorem storeWords_succ (x : Cell) (g : Nat → Nat × Word) (n : Nat) : x.storeWords ((List.range (n + 1)).map g) =
    (x.storeWords ((List.range n).map g)).storeBytes (g n).1 (leBytes 4 (g n).2.toNat) := by
  rw [Cell.storeWords, List.range_succ, List.map_append, List.foldl_append]; rfl

theorem storeWords_untouched (x : Cell) (g : Nat → Nat × Word) {n b : Nat}
    (h : ∀ j < n, ¬ ((g j).1 ≤ b ∧ b < (g j).1 + 4)) :
    memByte (x.storeWords ((List.range n).map g)).mem b = memByte x.mem b := by
  induction n with
  | zero => rfl
  | succ n ih =>
    rw [storeWords_succ, memByte_storeWord, if_neg (h n (Nat.lt_succ_self n)), ih fun j hj => h j (Nat.lt_succ_of_lt hj)]

theorem storeWords_last (x : Cell) (g : Nat → Nat × Word) {n j b : Nat} (hj : j < n)
    (hb : (g j).1 ≤ b ∧ b < (g j).1 + 4) (h : ∀ l, j < l → l < n → ¬ ((g l).1 ≤ b ∧ b < (g l).1 + 4)) :
    memByte (x.storeWords ((List.range n).map g)).mem b = (g j).2.extractLsb' (8 * (b - (g j).1)) 8 := by
  induction n with
  | zero => cases hj
  | succ n ih =>
    rw [storeWords_succ, memByte_storeWord]
    rcases Nat.lt_succ_iff_lt_or_eq.1 hj with hn | rfl
    · rw [if_neg (h n hn (Nat.lt_succ_self n)), ih hn fun l hl hn => h l hl (Nat.lt_succ_of_lt hn)]
    · rw [if_pos hb]

theorem zip_lanes (x : Vector Word 32) : ((List.range 32).map c).zip x.toList = (List.range 32).map fun j => (c j, x.getD j 0) := by
  refine List.ext_getElem (by simp) fun j h1 h2 => ?_
  have hj : j < 32 := by simpa using h2
  simp [Vector.getD, hj]

/-- What a store of one word per lane leaves. -/
theorem exec_of_sylLanesStore {traps : View → List TrapReq} {offs : View → List Int} (h : s.Ready m u k scalars []) (hh : s.DeclaresH m u k [hn.toNat])
    (hv : s.DeclaresV m u k (d :: vecs)) (hs : (s.cell m u).spire = false)
    (hc : ∀ a ∈ vecs, clusterOf a.toNat = clusterOf d.toNat)
    (he : exec i s = runSyl s i true fun v => sylLanesStore v (mvBase v d hn scalars vecs) d hn (offs v) (traps v))
    (ho : offs (s.sees m u k i) = (List.range 32).map f) (ht : traps (s.sees m u k i) = []) (hi : i.wellFormed = true)
    (hea : ∀ j < 32, s.ea m u k hn.toNat (f j) 4 .store = .ok (c j) false false ∧ (s.cell m u).held .store (c j) 4 = false) :
    ∃ t y, exec i s = .next t ∧ IssuedIn s t m u k { (s.cell m u).storeWords ((List.range 32).map fun j =>
      (c j, (s.rv m u k d).lanes.getD j 0)) with races := y } [] := by
  have hheld : (((List.range 32).map c).any fun c => (s.cell m u).held .store c 4) = false := by
    refine List.any_eq_false.2 fun a ha => ?_
    obtain ⟨j, hj, rfl⟩ := List.mem_map.1 ha
    rw [(hea j (List.mem_range.1 hj)).2]; exact Bool.false_ne_true
  have hraces : ∃ rs : List Nat, ((List.range 32).map c).flatMap (raceEffect (s.sees m u k i)) = rs.map Effect.raceWrite := by
    refine ⟨((List.range 32).map c).flatMap fun a => ((s.cell m u).raceAt a).toList.map fun r => r.off, ?_⟩
    rw [List.map_flatMap]
    refine congrArg₂ List.flatMap (funext fun a => ?_) rfl
    rw [raceEffect_eq, List.map_map]; rfl
  obtain ⟨rs, hrs⟩ := hraces
  have hf : sylLanesStore (s.sees m u k i) (mvBase (s.sees m u k i) d hn scalars vecs) d hn
      (offs (s.sees m u k i)) (traps (s.sees m u k i)) =
      mvSyl (s.sees m u k i) d hn scalars vecs [] ((((List.range 32).map fun j => (c j, (s.rv m u k d).lanes.getD j 0)).map
        fun p => Effect.store p.1 (leBytes 4 p.2.toNat)) ++ rs.map Effect.raceWrite) := by
    rw [ho, sylLanesStore, laneEas_ok (mig := fun _ => false) _ fun j hj => (hea j (List.mem_range.1 hj)).1, ht]
    dsimp only
    rw [sees_cell, hheld, hrs, sees_rv, zip_lanes]
    rfl
  obtain ⟨hl, ho⟩ := late_order (es := (((List.range 32).map fun j => (c j, (s.rv m u k d).lanes.getD j 0)).map
        fun p => Effect.store p.1 (leBytes 4 p.2.toNat)) ++ rs.map Effect.raceWrite) fun e he => by
    rcases List.mem_append.1 he with he | he <;> obtain ⟨p, _, rfl⟩ := List.mem_map.1 he <;> exact ⟨rfl, rfl, rfl, rfl⟩
  obtain ⟨next, hx⟩ := exec_of_mvSyl h hh hv hs hc he hi hf hl ho
  rw [List.foldl_append] at hx
  obtain ⟨y, hy⟩ := ((committed_issued h.opened.strand).stores next _).races next rs
  exact ⟨_, y, hx, hy⟩

theorem bytesOf_cons (w : Word) (ws : List Word) : bytesOf (w :: ws) = leBytes 4 w.toNat ++ bytesOf ws := rfl

theorem length_bytesOf (ws : List Word) : (bytesOf ws).length = 4 * ws.length := by
  induction ws with
  | nil => rfl
  | cons w r ih => rw [bytesOf_cons, List.length_append, length_leBytes, ih, List.length_cons]; omega

theorem getD_bytesOf (ws : List Word) {b : Nat} (h : b < 4 * ws.length) :
    (bytesOf ws).getD b 0 = (ws.getD (b / 4) 0).extractLsb' (8 * (b % 4)) 8 := by
  induction ws generalizing b with
  | nil => simp at h
  | cons w r ih =>
    rw [bytesOf_cons]
    by_cases hb : b < 4
    · rw [List.getD_append _ _ _ _ (by rw [length_leBytes]; exact hb), getD_leBytes w hb, Nat.div_eq_of_lt hb, Nat.mod_eq_of_lt hb]
      rfl
    · obtain ⟨n, rfl⟩ : ∃ n, b = n + 4 := ⟨b - 4, by omega⟩
      rw [List.length_cons] at h
      rw [List.getD_append_right _ _ _ _ (by rw [length_leBytes]; omega), length_leBytes, Nat.add_sub_cancel, ih (by omega),
        Nat.add_div_right n (by decide), Nat.add_mod_right, List.getD_cons_succ]

theorem stores_of_vst (h : s.Ready m u k [a] []) (hh : s.DeclaresH m u k [hn.toNat]) (hv : s.DeclaresV m u k [d])
    (hs : (s.cell m u).spire = false) {imm : BitVec 4} {x : Nat} (ht : tag = 0 ∨ (s.rv m u k d).Has tag)
    (hea : s.ea m u k hn.toNat (s.rs m u k a + imm.signExtend 32 * 128).toInt 128 .store = .ok x false false)
    (hfree : (s.cell m u).held .store x 128 = false) :
    s.Stores m u k (.vst true d hn a tag imm) x (bytesOf (s.rv m u k d).lanes.toList) := by
  have htags : checkTag (s.rv m u k d) d tag = [] := by
    rcases ht with ht | ht
    · simp [checkTag, ht]
    · exact checkTag_nil ht
  have hea' : (s.sees m u k (.vst true d hn a tag imm)).ea hn.toNat
      (mvOffset ((s.sees m u k (.vst true d hn a tag imm)).rs a) imm) 128 .store = .ok x false false := hea
  obtain ⟨hl, ho⟩ := late_order (es := Effect.store x (bytesOf (s.rv m u k d).lanes.toList) ::
      raceEffect (s.sees m u k (.vst true d hn a tag imm)) x) fun e he => by
    rw [raceEffect_eq] at he
    rcases List.mem_cons.1 he with rfl | he
    · exact ⟨rfl, rfl, rfl, rfl⟩
    · obtain ⟨p, _, rfl⟩ := List.mem_map.1 he
      exact ⟨rfl, rfl, rfl, rfl⟩
  obtain ⟨next, hx⟩ := exec_of_mvSyl (vecs := []) (dests := []) (effects := Effect.store x (bytesOf (s.rv m u k d).lanes.toList) ::
      raceEffect (s.sees m u k (.vst true d hn a tag imm)) x) h hh hv hs (fun _ h => (List.not_mem_nil h).elim) (exec_vst ..) rfl (by
    dsimp only
    rw [hea']
    dsimp only
    rw [sees_rv, htags, sees_cell, hfree]
    rfl) hl ho
  have hstored := (committed_issued (s := s) (m := m) (u := u) h.opened.strand).store next x (bytesOf (s.rv m u k d).lanes.toList)
  have ht := hstored.raceEffect (i := .vst true d hn a tag imm) (off := x) next rfl rfl
  exact ⟨_, hx, ht, memByte_of_issuedIn_store ht⟩

/-- A vector load of 128 bytes. -/
theorem gives_of_vld (h : s.Ready m u k [a] []) (hh : s.DeclaresH m u k [hn.toNat]) (hv : s.DeclaresV m u k [d])
    (hs : (s.cell m u).spire = false) {imm : BitVec 4} {g : Bool}
    (hea : s.ea m u k hn.toNat (s.rs m u k a + imm.signExtend 32 * 128).toInt 128 .load = .ok (c 0) false g)
    (hc : ∀ j, c j = c 0 + 4 * j) (hfits : tag = 7 → ∀ j < 32, (memWord (s.cell m u).mem (c j)).toNat < 2 ^ 20)
    (hfree : (s.cell m u).held .load (c 0) 128 = false) (hclean : ∀ j < 32, (s.cell m u).corrupt (c j) 4 = false)
    (hflips : (s.cell m u).flips = []) :
    s.Gives m u k (.vld true d hn a tag imm) (.v (s.pv m u k d))
      (.vec ⟨Vector.ofFn fun j : Fin 32 => memWord (s.cell m u).mem (c j), tag⟩) 4 := by
  have hwords : wordsOf (memBytes (s.cell m u).mem (c 0) 128) = (List.range 32).map fun j => memWord (s.cell m u).mem (c j) :=
    (wordsOf_memBytes _ _ 32).trans (List.map_congr_left fun j _ => by rw [hc j])
  have hea' : (s.sees m u k (.vld true d hn a tag imm)).ea hn.toNat
      (mvOffset ((s.sees m u k (.vld true d hn a tag imm)).rs a) imm) 128 .load = .ok (c 0) false g := hea
  refine gives_of_mvLoad (vecs := []) (lanes := (List.range 32).map fun j => memWord (s.cell m u).mem (c j))
    (rs := [(c 0, 128)]) h hh hv hs (fun _ h => (List.not_mem_nil h).elim) (exec_vld ..) rfl ?_ (vregOf_range _) ?_ ?_ ?_ hflips
  · dsimp only
    rw [hea']
    dsimp only
    rw [sees_cell, ← hwords]
    rfl
  · intro ht w hw
    obtain ⟨j, hj, rfl⟩ := List.mem_map.1 hw
    exact hfits ht j (List.mem_range.1 hj)
  · intro r hr
    rw [List.mem_singleton.1 hr]; exact hfree
  · intro r hr
    rw [List.mem_singleton.1 hr]
    exact corrupt_run (n := 32) (fun j hj => hc j ▸ hclean j hj) hflips

/-- A vector load of one word into every lane. -/
theorem gives_of_vldb (h : s.Ready m u k [a] []) (hh : s.DeclaresH m u k [hn.toNat]) (hv : s.DeclaresV m u k [d])
    (hs : (s.cell m u).spire = false) {imm : BitVec 4} {g : Bool}
    (hea : s.ea m u k hn.toNat (s.rs m u k a + imm.signExtend 32 * 128).toInt 4 .load = .ok (c 0) false g)
    (hc : ∀ j, c j = c 0) (hfits : tag = 7 → ∀ j < 32, (memWord (s.cell m u).mem (c j)).toNat < 2 ^ 20)
    (hfree : (s.cell m u).held .load (c 0) 4 = false) (hclean : ∀ j < 32, (s.cell m u).corrupt (c j) 4 = false)
    (hflips : (s.cell m u).flips = []) :
    s.Gives m u k (.vldb true d hn a tag imm) (.v (s.pv m u k d))
      (.vec ⟨Vector.ofFn fun j : Fin 32 => memWord (s.cell m u).mem (c j), tag⟩) 4 := by
  have hwords : List.replicate 32 (memWord (s.cell m u).mem (c 0)) = (List.range 32).map fun j => memWord (s.cell m u).mem (c j) := by
    rw [List.map_congr_left (g := fun _ => memWord (s.cell m u).mem (c 0)) fun j _ => by rw [hc j], List.map_const', List.length_range]
  have hea' : (s.sees m u k (.vldb true d hn a tag imm)).ea hn.toNat
      (mvOffset ((s.sees m u k (.vldb true d hn a tag imm)).rs a) imm) 4 .load = .ok (c 0) false g := hea
  refine gives_of_mvLoad (vecs := []) (lanes := (List.range 32).map fun j => memWord (s.cell m u).mem (c j))
    (rs := [(c 0, 4)]) h hh hv hs (fun _ h => (List.not_mem_nil h).elim) (exec_vldb ..) rfl ?_ (vregOf_range _) ?_ ?_ ?_ hflips
  · dsimp only
    rw [hea']
    dsimp only
    rw [sees_cell, ← hwords]
    rfl
  · intro ht w hw
    obtain ⟨j, hj, rfl⟩ := List.mem_map.1 hw
    exact hfits ht j (List.mem_range.1 hj)
  · intro r hr
    rw [List.mem_singleton.1 hr]; exact hfree
  · intro r hr
    rw [List.mem_singleton.1 hr]
    exact hclean 0 (by decide)

theorem declaresV_two (h : s.DeclaresV m u k [d]) (h' : s.DeclaresV m u k [a]) : s.DeclaresV m u k [d, a] := by
  rcases h with h | h
  · exact .inl h
  · refine h'.imp_right fun h' r hr => ?_
    rcases List.mem_cons.1 hr with rfl | hr
    · exact h _ List.mem_cons_self
    · exact h' r hr

/-- What an issued store leaves of its cell, where only memory and detectors have changed. -/
theorem stored_rest {x y z : Cell} {w : WaitFor}
    (hx : x = { y with mem := x.mem, bad := x.bad, flips := x.flips, races := x.races })
    (hz : z = { x with strands := z.strands, waits := (x.endWait w).waits }) :
    z = { y with
      strands := z.strands, waits := (y.endWait w).waits, mem := z.mem, bad := z.bad, flips := z.flips, races := z.races } := by
  have hmem : z.mem = x.mem := by rw [hz]
  have hbad : z.bad = x.bad := by rw [hz]
  have hflips : z.flips = x.flips := by rw [hz]
  have hraces : z.races = x.races := by rw [hz]
  rw [hmem, hbad, hflips, hraces]
  exact hz.trans (congrArg (fun v : Cell => { v with strands := z.strands, waits := (v.endWait w).waits }) hx)

theorem lanes_of_issued {y : List Race} (h : IssuedIn s t m u k { (s.cell m u).storeWords ((List.range 32).map fun j =>
      (c j, (s.rv m u k d).lanes.getD j 0)) with races := y } []) :
    Elsewhere s t m u k ∧
      t.cell m u = { s.cell m u with
        strands := (t.cell m u).strands
        waits := ((s.cell m u).endWait (.strand k)).waits
        mem := (t.cell m u).mem
        bad := (t.cell m u).bad
        flips := (t.cell m u).flips
        races := (t.cell m u).races } ∧
      t.strand m u k = { s.strand m u k with
        pc := (s.strand m u k).pc + 1, beat := (s.strand m u k).beat + 1, waiting := .none } ∧
      (∀ b, (∀ j < 32, ¬ (c j ≤ b ∧ b < c j + 4)) → memByte (t.cell m u).mem b = memByte (s.cell m u).mem b) ∧
      ∀ j < 32, ∀ b, c j ≤ b → b < c j + 4 → (∀ l, j < l → l < 32 → ¬ (c l ≤ b ∧ b < c l + 4)) →
        memByte (t.cell m u).mem b = ((s.rv m u k d).lanes.getD j 0).extractLsb' (8 * (b - c j)) 8 := by
  have hmem : (t.cell m u).mem = ((s.cell m u).storeWords ((List.range 32).map fun j =>
      (c j, (s.rv m u k d).lanes.getD j 0))).mem := by rw [h.cell]
  refine ⟨h.elsewhere, ?_, ?_, fun b hb => ?_, fun j hj b h1 h2 hl => ?_⟩
  · exact stored_rest (congrArg (fun v : Cell => { v with races := y }) (storeWords_rest ..)) h.cell
  · rw [h.strand, List.append_nil]
  · rw [hmem]; exact storeWords_untouched _ _ hb
  · rw [hmem]; exact storeWords_last _ _ hj ⟨h1, h2⟩ hl

end vectorAccess

/-- The tag of the offsets of a gather or a scatter is none or that of integers. -/
theorem offsets_tag {y : VReg} (h : y.tag = 0 ∨ y.tag = 1) (r : BitVec 6) : checkTag y r tagI32 = [] := checkTag_nil h

theorem store_tags {y : VReg} (h : tag = 0 ∨ y.tag = 0 ∨ y.tag = tag) (r : BitVec 6) : checkTag y r tag = [] := by
  rcases h with h | h
  · simp [checkTag, h]
  · exact checkTag_nil h

/-- Settles O26: each vector access is one of its range, or one of a word per lane. -/
theorem vectorLoadsAndStores : Obligations.VectorLoadsAndStores := by
  unfold Obligations.VectorLoadsAndStores
  have hnone (d : BitVec 6) : ∀ x ∈ ([] : List (BitVec 6)), clusterOf x.toNat = clusterOf d.toNat := fun _ h => (List.not_mem_nil h).elim
  refine ⟨fun s m u k d h a tag i c mig hh hv hs => ?_, fun s m u k d h a tag i c hh hv hs => ?_⟩
  · intro mem base stride lanes fits clean free gives each hfits hclean hflips
    refine ⟨fun hr hea hc hfree => ?_, fun hr hea hc hfree => ?_, fun hr he hea hfree => ?_, fun hr hva hcl => ?_⟩
    · exact gives_of_vld hr hh hv hs hea hc hfits hfree hclean hflips
    · exact gives_of_vldb hr hh hv hs hea hc hfits (hfree 0 (by decide)) hclean hflips
    · exact gives_of_sylLanesLoad (vecs := [])
        (offs := fun v => strideOffsets (mvOffset (v.rs a) i) (v.rs (a + 1)).toInt) (traps := fun _ => [])
        (f := fun j : Nat => (BitVec.ofInt 32 (base + j * stride)).toInt) (c := c) (mig := mig)
        hr hh hv hs (hnone d) (exec_vlds ..) rfl rfl (beq_iff_eq.2 he) hea hfits hfree hclean hflips
    · intro x htag hea hfree
      have hvs : s.DeclaresV m u k [d, a] := declaresV_two hv hva
      exact gives_of_sylLanesLoad (vecs := [a])
        (offs := fun v => laneOffsets (v.rv a) i) (traps := fun v => checkTag (v.rv a) a tagI32)
        (f := fun j : Nat => (x.lanes.getD j 0 + i.signExtend 32 * 128).toInt) (c := c) (mig := mig)
        hr hh hvs hs (by simpa using hcl) (exec_vgth ..) rfl (offsets_tag htag a) rfl hea hfits hfree hclean hflips
  · intro x base stride each lane htag
    refine ⟨fun hr hea hfree => ?_, fun hr he hea => ?_, fun hr hva hcl => ?_⟩
    · refine ⟨bytesOf x.lanes.toList, (length_bytesOf _).trans (by simp), fun b hb => ?_, stores_of_vst hr hh hv hs htag hea hfree⟩
      rw [getD_bytesOf _ (by simpa using hb)]
      simp [Vector.getD, List.getD_eq_getElem?_getD]
    · obtain ⟨t, y, hx, ht⟩ := exec_of_sylLanesStore (vecs := [])
        (offs := fun v => strideOffsets (mvOffset (v.rs a) i) (v.rs (a + 1)).toInt) (traps := fun v => checkTag (v.rv d) d tag)
        (f := fun j : Nat => (BitVec.ofInt 32 (base + j * stride)).toInt) (c := c)
        hr hh hv hs (hnone d) (exec_vsts ..) rfl (store_tags htag d) (beq_iff_eq.2 he) hea
      exact ⟨t, hx, lanes_of_issued ht⟩
    · intro z hz hea
      obtain ⟨t, y, hx, ht⟩ := exec_of_sylLanesStore (vecs := [a])
        (offs := fun v => laneOffsets (v.rv a) i) (traps := fun v => checkTag (v.rv a) a tagI32 ++ checkTag (v.rv d) d tag)
        (f := fun j : Nat => (z.lanes.getD j 0 + i.signExtend 32 * 128).toInt) (c := c)
        hr hh (declaresV_two hv hva) hs (by simpa using hcl) (exec_vsct ..) rfl
        (List.append_eq_nil_iff.2 ⟨offsets_tag hz a, store_tags htag d⟩) rfl hea
      exact ⟨t, hx, lanes_of_issued ht⟩

end Sys2Proof.Machine
end

section
/-! One-sided operations through a handle of the issuing cell (R261, R263). -/

namespace Sys2Proof.Machine

-- One proof after the other, which keeps the memory of a build low.
set_option Elab.async false

section oneSided

variable {s : State} {m u k c : Nat} {i : Instr} {f : View → Syl} {a b t : BitVec 6} {r : BitVec 1} {hn : BitVec 4}
  {kind : RemoteKind} {carried : View → Word} {reads : List (BitVec 6)}

/-- A command of class E after effects of any kind, which change its cell as `g` says. -/
theorem exec_of_effects {names : List (BitVec 6)} {es : List Effect} {x : Cmd} {g : Cell → Cell} (h : s.Ready m u k reads names)
    (he : exec i s = runSyl s i true f) (static : (f (s.sees m u k i)).static = []) (dyn : (f (s.sees m u k i)).dyn = [])
    (hr : (f (s.sees m u k i)).reads = reads.map (s.ps m u k))
    (hn : ∀ p ∈ (f (s.sees m u k i)).names, p ∈ names.map (s.ps m u k)) (loop : (f (s.sees m u k i)).loop = .none)
    (free : (f (s.sees m u k i)).blocked = false) (hx : (f (s.sees m u k i)).effects = es ++ [.cmd x])
    (hl : es.countP Effect.lands ≤ 1)
    (ho : es.filter Effect.lands ++ (es.filter Effect.reads ++ es.filter fun e => e.writes || e.syncs) = es)
    (hc : (f (s.sees m u k i)).cls = .engine) (image : (f (s.sees m u k i)).image = none)
    (hg : es.foldl (applyEffect m u k ((s.strand m u k).pc + 1)) (s.left m u k 1 id) = s.left m u k 1 g) :
    exec i s = .next (applyCmd (s.left m u k 2 g) m u k x) := by
  have room : (s.strand m u k).landing.length + landCount [f (s.sees m u k i)] ≤ 32 := by
    have hcount : landCount [f (s.sees m u k i)] = es.countP Effect.lands := by
      rw [landCount, List.flatMap_cons, List.flatMap_nil, List.append_nil, hx, List.countP_append]; rfl
    have := h.room
    omega
  have order : orderedEffects [f (s.sees m u k i)] = es ++ [.cmd x] := by
    rw [orderedEffects_engine hc, hx, List.filter_append, List.filter_append, List.filter_append]
    refine Eq.trans ?_ (congrArg (· ++ [Effect.cmd x]) ho)
    show (es.filter Effect.lands ++ []) ++ ((es.filter Effect.reads ++ []) ++ ((es.filter fun e => e.writes || e.syncs) ++ [.cmd x])) = _
    simp only [List.append_nil, List.append_assoc]
  rw [exec_of_issues h.opened he (control_issues h static dyn hr hn (.inl loop) free room image), order, List.foldl_append, hg]
  rfl

/-- A landing of an issuing command. -/
theorem lands_left (n : Nat) (g : Cell → Cell) (next : BitVec 15) (l : Landing) :
    applyEffect m u k next (s.left m u k n g) (.land l) =
      s.left m u k n fun c => (g c).onStrand k fun st => { st with landing := st.landing ++ [l] } := onStrand_left ..

/-- What a local operation makes of its cell before it is performed. -/
def State.beforeLocal (s : State) (m u k c : Nat) (kind : RemoteKind) (x : Cell) : Cell :=
  if kind = .rld then x
  else if kind.access = .store then (s.landsTok m u k 0 x).wrote k c
  else x.onStrand k fun st => { st with
    landing := st.landing ++ [{ s.result m u k (.sp 4) (.word 0) 1 with taint := s.taintOf m u c 4 }] }

/-- The effects of a local operation before its command. -/
def State.localEffects (s : State) (m u k c : Nat) (i : Instr) (kind : RemoteKind) : List Effect :=
  (if kind = .rld then [] else [(s.sees m u k i).landLocal kind c]) ++
    if kind.access = .store then (s.sees m u k i).engineRace c 4 else []

theorem localEffects_order : (s.localEffects m u k c i kind).countP Effect.lands ≤ 1 ∧
    (s.localEffects m u k c i kind).filter Effect.lands ++ ((s.localEffects m u k c i kind).filter Effect.reads ++
      (s.localEffects m u k c i kind).filter fun e => e.writes || e.syncs) = s.localEffects m u k c i kind := by
  unfold State.localEffects View.engineRace View.landLocal
  by_cases hk : kind = .rld
  · subst hk
    exact ⟨Nat.zero_le _, rfl⟩
  · rw [if_neg hk]
    by_cases hs : kind.access = .store
    · rw [if_pos hs]
      cases (s.sees m u k i).cell.raceAt c <;> exact ⟨Nat.le_refl 1, rfl⟩
    · rw [if_neg hs]
      exact ⟨Nat.le_refl 1, rfl⟩

theorem localEffects_left : (s.localEffects m u k c i kind).foldl (applyEffect m u k ((s.strand m u k).pc + 1)) (s.left m u k 1 id) =
    s.left m u k 1 (s.beforeLocal m u k c kind) := by
  unfold State.localEffects View.landLocal
  by_cases hk : kind = .rld
  · subst hk; rfl
  · rw [if_neg hk, List.singleton_append, List.foldl_cons, lands_left]
    by_cases hs : kind.access = .store
    · rw [if_pos hs, if_neg (by rw [hs]; decide), engineRace_left]
      · refine left_congr ?_
        rw [State.beforeLocal, if_neg hk, if_pos hs]; rfl
      · rfl
    · rw [if_neg hs]
      refine left_congr ?_
      have hat : kind.access = .atomic := by revert hk hs; cases kind <;> decide
      rw [State.beforeLocal, if_neg hk, if_neg hs, if_pos hat]; rfl

/-- The registers that a one-sided operation reads. -/
def oneSidedReads (kind : RemoteKind) (a b t : BitVec 6) : List (BitVec 6) :=
  if kind = .rld then [a] else if kind = .rstc then [a, b, t] else [a, b]

/-- What every one-sided operation checks, reads and names. -/
structure OneSidedForm (s : State) (m u k : Nat) (kind : RemoteKind) (a b t : BitVec 6) (y : Syl) : Prop where
  static : y.static = []
  reads : y.reads = (oneSidedReads kind a b t).map (s.ps m u k)
  names : ∀ p ∈ y.names, p ∈ (tokenRegs t).map (s.ps m u k)
  loop : y.loop = .none
  cls : y.cls = .engine
  image : y.image = none

/-- The form of the syllable that every one-sided operation starts from. -/
def oneSidedBase (v : View) (kind : RemoteKind) (a b : BitVec 6) (hn : BitVec 4) (t : BitVec 6) : Syl :=
  let base := engineSyl v true (if kind = .rld then [a] else [a, b]) t
  let y : Syl :=
    { base with
      reads := if kind = .rstc then base.reads ++ [v.ps t] else base.reads
      static := base.static ++ v.declH [hn.toNat] }
  if kind = .rld then y else { y with dests := [(.sp 4, 1)], specials := [.sp 4] }

theorem oneSidedBase_form (h : s.Ready m u k (oneSidedReads kind a b t) (tokenRegs t)) (hi : i.wellFormed = true)
    (hh : s.DeclaresH m u k [hn.toNat]) :
    OneSidedForm s m u k kind a b t (oneSidedBase (s.sees m u k i) kind a b hn t) := by
  have hsub : ∀ x ∈ (if kind = .rld then [a] else [a, b]), x ∈ oneSidedReads kind a b t := by
    unfold oneSidedReads
    split_ifs <;> simp
  have hready : s.Ready m u k (if kind = .rld then [a] else [a, b]) (tokenRegs t) :=
    { opened := h.opened
      declared := h.declared.mono fun x hx => List.mem_append.2 ((List.mem_append.1 hx).imp_right (hsub x))
      settled :=
        { pend := fun p hp => ⟨fun hm => (h.settled.pend p hp).1 (by
            obtain ⟨x, hx, hp⟩ := List.mem_map.1 hm
            exact hp ▸ List.mem_map_of_mem (hsub x hx)), (h.settled.pend p hp).2⟩
          notes := fun d hd hm => h.settled.notes d hd (by
            obtain ⟨x, hx, hp⟩ := List.mem_map.1 hm
            exact hp ▸ List.mem_map_of_mem (hsub x hx)) }
      room := h.room }
  have static := engine_static hready (illegal_nil hi)
  have hd : (s.sees m u k i).declH [hn.toNat] = [] := declH_nil hh
  refine ⟨?_, ?_, ?_, ?_, ?_, ?_⟩
  · have hs : (oneSidedBase (s.sees m u k i) kind a b hn t).static =
        (engineSyl (s.sees m u k i) true (if kind = .rld then [a] else [a, b]) t).static ++ (s.sees m u k i).declH [hn.toNat] := by
      unfold oneSidedBase
      split_ifs <;> rfl
    rw [hs, static, hd]; rfl
  · unfold oneSidedBase; cases kind <;> rfl
  · intro p hp
    refine tokenRegs_names p ?_
    unfold oneSidedBase at hp
    cases kind <;> exact hp
  all_goals
    unfold oneSidedBase
    cases kind <;> rfl

/-- A token that is null is not waited for. -/
theorem tokenWait_null (v : View) : v.tokenWait 0 = (false, false) := if_pos rfl

/-- A local operation whose address is good gives its command. -/
theorem exec_of_local (h : s.Ready m u k (oneSidedReads kind a b t) (tokenRegs t))
    (he : exec i s = runSyl s i true fun v => sylOneSided v kind a b r hn t (carried v)) (hi : i.wellFormed = true)
    (hh : s.DeclaresH m u k [hn.toNat]) (hvalid : (s.rh m u k hn.toNat).valid = true) (haper : (s.rh m u k hn.toNat).aper = 0)
    (hea : s.ea m u k hn.toNat (s.rs m u k a).toInt 4 kind.access = .ok c false false)
    (hheld : (s.cell m u).held kind.access c 4 = false) (hspire : (s.cell m u).spire = true → c < 2 ^ 20)
    (hc : carried (s.sees m u k i) = 0) (herr : s.NoErrors m u k) (hflips : kind.access = .store ∨ (s.cell m u).flips = []) :
    exec i s = .next (applyCmd (s.left m u k 2 (s.beforeLocal m u k c kind)) m u k (.localOp kind c
      (memWord (s.cell m u).mem c) (kind == .rld && (s.cell m u).corrupt c 4) (s.rs m u k b) (s.ps m u k t))) := by
  have hform := oneSidedBase_form (i := i) h hi hh
  have hlate : (s.sees m u k i).copyLate = [] := lateErr_nil (v := s.sees m u k i) herr _
  have hfinds : (if kind.access = .store then (s.sees m u k i).engineRace c 4 else (s.sees m u k i).finds [(c, 4)]) =
      if kind.access = .store then (s.sees m u k i).engineRace c 4 else [] := by
    by_cases hs : kind.access = .store
    · rw [if_pos hs, if_pos hs]
    · rw [if_neg hs, if_neg hs, finds_nil (hflips.resolve_left hs)]
  have hraw : sylOneSided (s.sees m u k i) kind a b r hn t 0 =
      { oneSidedBase (s.sees m u k i) kind a b hn t with
        dyn := (s.sees m u k i).copyLate ++ [], blocked := (s.cell m u).held kind.access c 4, begins := (s.sees m u k i).beginsToken 0
        effects := (if kind = .rld then [] else [(s.sees m u k i).landLocal kind c]) ++ [] ++
          (if kind.access = .store then (s.sees m u k i).engineRace c 4 else (s.sees m u k i).finds [(c, 4)]) ++
          [.cmd (.localOp kind c (memWord (s.cell m u).mem c) (kind == .rld && true && (s.cell m u).corrupt c 4) (s.rs m u k b)
            ((s.sees m u k i).pt t))] } := by
    rw [sylOneSided]
    dsimp only
    rw [if_pos ⟨hvalid, haper⟩, show (s.sees m u k i).ea hn.toNat ((s.sees m u k i).rs a).toInt 4 kind.access = _ from hea]
    dsimp only
    rw [if_neg fun e => absurd (hspire e.1) (not_lt.2 e.2), tokenWait_null]
    rfl
  have hsyl : sylOneSided (s.sees m u k i) kind a b r hn t (carried (s.sees m u k i)) =
      { oneSidedBase (s.sees m u k i) kind a b hn t with
        dyn := [], blocked := false, begins := (s.sees m u k i).beginsToken 0
        effects := s.localEffects m u k c i kind ++ [.cmd (.localOp kind c (memWord (s.cell m u).mem c)
          (kind == .rld && (s.cell m u).corrupt c 4) (s.rs m u k b) (s.ps m u k t))] } := by
    rw [hc, hraw, hlate, hheld, hfinds, sees_pt, Bool.and_true, List.append_nil, List.append_nil]
    rfl
  refine exec_of_effects (f := fun v => sylOneSided v kind a b r hn t (carried v)) (es := s.localEffects m u k c i kind) h he ?_ ?_ ?_ ?_ ?_ ?_ ?_
    localEffects_order.1 localEffects_order.2 ?_ ?_ localEffects_left
  · rw [hsyl]; exact hform.static
  · rw [hsyl]
  · rw [hsyl]; exact hform.reads
  · rw [hsyl]; exact hform.names
  · rw [hsyl]; exact hform.loop
  · rw [hsyl]
  · rw [hsyl]
  · rw [hsyl]; exact hform.cls
  · rw [hsyl]; exact hform.image

/-- What a local operation gives, and what it leaves of its cell. -/
def State.localGives (s : State) (m u k c : Nat) (t : BitVec 6) (kind : RemoteKind) (old : Word) (bad : Bool) (x : Word) (y : Cell) : Cell :=
  match kind with
  | .rst | .rstc => s.answers m u k t 0 [] (y.storeBytes c (leBytes 4 x.toNat))
  | .rld => s.answers m u k t old (if bad then [.taint 0xC0] else []) y
  | .rldBlock => y
  | kind => s.answers m u k t old (if bad then [.taint 0xC0] else []) (y.storeBytes c (leBytes 4 (atomicWord kind old x).toNat))

theorem give_eq (y : Cell) (x : Word) (ns : List Note) :
    (if s.ps m u k t = 0 then y else (y.awaits k s.op (s.ps m u k t)).deliverAt (s.cycle + 1) k s.op (s.ps m u k t) x ns) =
      s.answers m u k t x ns y := by
  rw [State.answers, State.asks]
  split_ifs with h
  · rfl
  · rw [Cell.awaits, if_neg h]; rfl

theorem localOp_eq (y : Cell) (old x : Word) (bad : Bool) :
    y.localOp s.cycle k s.op kind c old bad x (s.ps m u k t) = s.localGives m u k c t kind old bad x y := by
  unfold Cell.localOp State.localGives
  cases kind <;> dsimp only
  all_goals exact give_eq ..

end oneSided

/-- Settles O44: each operation is the access that it performs. -/
theorem oneSidedLocal : Obligations.OneSidedLocal := by
  unfold Obligations.OneSidedLocal
  intro s m u k a b r h t c cell hh y old nullTok notes ea herr hdecl hvalid haper hspire
  have runs {kind : RemoteKind} {b : BitVec 6} {i : Instr} {carried : View → Word} (hr : s.Ready m u k (oneSidedReads kind a b t) (tokenRegs t))
      (he : exec i s = runSyl s i true fun v => sylOneSided v kind a b r h t (carried v)) (hi : i.wellFormed = true)
      (hea : ea kind.access) (hc : carried (s.sees m u k i) = 0) (hflips : kind.access = .store ∨ (s.cell m u).flips = []) :
      s.Runs m u k i fun x => s.localGives m u k c t kind old (kind == .rld && cell.corrupt c 4) (s.rs m u k b)
        (s.beforeLocal m u k c kind x) :=
    (exec_of_local hr he hi hdecl hvalid haper hea.1 hea.2 hspire hc herr hflips).trans (congrArg Host.Outcome.next
      ((onCell_left 2 _ fun x => x.localOp s.cycle k s.op kind c old (kind == .rld && cell.corrupt c 4) (s.rs m u k b)
        (s.ps m u k t)).trans (left_congr (localOp_eq ..))))
  refine ⟨fun hr ht hea hf => ?_, fun hea => ⟨fun hr => ?_, fun hr h0 => ?_⟩, fun hr hea hf => ?_⟩
  · have hwf : (Instr.rld true a r h t).wellFormed = true := bne_iff_ne.2 fun e => ht (BitVec.eq_of_toNat_eq e)
    exact runs (kind := .rld) (b := 0) hr.tokens (exec_rld ..) hwf hea rfl (.inr hf)
  · exact runs (kind := .rst) (b := b) hr (exec_rst ..) rfl hea rfl (.inl rfl)
  · exact runs (kind := .rstc) (b := b) (carried := fun v => v.rs t) hr (exec_rstc ..) rfl hea h0 (.inl rfl)
  · exact ⟨runs (kind := .rfadd) (b := b) hr (exec_rfadd ..) rfl hea rfl (.inr hf),
      runs (kind := .radd) (b := b) hr (exec_radd ..) rfl hea rfl (.inr hf),
      by rw [← maxS_eq]; exact runs (kind := .rmax) (b := b) hr (exec_rmax ..) rfl hea rfl (.inr hf),
      runs (kind := .rswp) (b := b) hr (exec_rswp ..) rfl hea rfl (.inr hf)⟩


end Sys2Proof.Machine
end

section
/-! One-sided operations on other cells (R249, R250, R260 to R262), and what an ending command leaves alone. -/

namespace Sys2Proof.Machine

-- One proof after the other, which keeps the memory of a build low.
set_option Elab.async false

/-! ### What commands leave alone -/

section kept

variable {s t : State} {m u k : Nat} {α : Type} {p : Cell → α}

/-- Nothing has issued or stalled since, and what `p` tells of a cell stands. -/
def Keeps (p : Cell → α) (m u : Nat) (s t : State) : Prop := t.last = s.last ∧ p (t.cell m u) = p (s.cell m u)

theorem Keeps.refl (s : State) : Keeps p m u s s := ⟨rfl, rfl⟩

theorem Keeps.trans {r : State} (h : Keeps p m u s t) (h' : Keeps p m u t r) : Keeps p m u s r :=
  ⟨h'.1.trans h.1, h'.2.trans h.2⟩

theorem keeps_onCell {f : Cell → Cell} (s : State) (h : p (f (s.cell m u)) = p (s.cell m u)) : Keeps p m u s (s.onCell m u f) :=
  ⟨rfl, (congrArg p (State.cell_onCell_same s m u f)).trans h⟩

theorem keeps_setCell {c : Cell} (s : State) (h : p c = p (s.cell m u)) : Keeps p m u s (s.setCell m u c) :=
  ⟨rfl, (congrArg p (by simp)).trans h⟩

theorem keeps_send (s : State) (strand : Nat) (dst : Addr) (vc : Nat) (b : Body) : Keeps p m u s (s.send m u strand dst vc b) :=
  ⟨rfl, rfl⟩

/-- What of a strand no command in flight changes. -/
structure Strand.Core where
  landing : List Landing
  pc : BitVec 15
  s : Vector Word 64
  q : Vector Word 12
  h : Vector Handle 16
  v : Vector VReg 64

def Strand.core (st : Strand) : Strand.Core := ⟨st.landing, st.pc, st.s, st.q, st.h, st.v⟩

/-- The memory of a cell and the core of a strand. -/
def Cell.kept (k : Nat) (c : Cell) : List Host.Cell × Strand.Core := (c.mem, (c.strand k).core)

/-- A change of a strand beside its core keeps the cores of all strands. -/
theorem kept_onStrand (c : Cell) (j : Nat) {f : Strand → Strand} (h : ∀ st, (f st).core = st.core) :
    (c.onStrand j f).kept k = c.kept k := by
  rw [Cell.kept, Cell.kept, Cell.strand_onStrand]
  split_ifs with hk
  · rw [h, hk.1]; rfl
  · rfl

/-- What an entry that lands leaves, in so far as it is not of the token table. -/
theorem keeps_landToken (i : Nat) (h : ∀ (c : Cell) (ts : Tab TokEntry) (n : Nat), p { c with tokens := ts, landings := n } = p c) :
    Keeps p m u s (s.landToken m u i) := by
  refine (keeps_onCell (f := fun c => c.landToken i) s (h (s.cell m u) _ _)).trans ?_
  refine List.foldlRecOn (motive := fun t => Keeps p m u (s.onCell m u fun c => c.landToken i) t) _ _ (Keeps.refl _) fun t ht x _ => ?_
  cases x with
  | none => exact ht
  | some w =>
    dsimp only
    split_ifs
    · exact ht.trans (keeps_send ..)
    · exact ht

theorem keeps_ackToken (i : Nat) (e : Word) (h : ∀ (c : Cell) (ts : Tab TokEntry) (n : Nat), p { c with tokens := ts, landings := n } = p c) :
    Keeps p m u s (s.ackToken m u i e) := by
  have hc : Keeps p m u s (s.onCell m u fun c => c.onToken i fun x =>
      { x with count := x.count - 1, err := if x.err = 0 then e else x.err }) := keeps_onCell s (h _ _ (s.cell m u).landings)
  unfold State.ackToken
  dsimp only
  split_ifs
  · exact hc.trans (keeps_landToken i h)
  · exact hc

theorem kept_deliverAt (c : Cell) (due j op reg : Nat) (x : Word) (ns : List Note) :
    (c.deliverAt due j op reg x ns).kept k = c.kept k := rfl

/-- A late error waits at its strand, whose core stands. -/
theorem kept_report (o : EngOp) (c : Cell) (w : Word) (a : Addr) : (o.report c w a).kept k = c.kept k := by
  unfold EngOp.report Cell.onContext
  dsimp only
  split_ifs
  · exact kept_onStrand c o.k (f := fun st => { st with errs := st.errs ++ [⟨o.op, false, (errTrap w o.carry).1, (errTrap w o.carry).2, o.token, a.chip, a.unit⟩] }) fun _ => rfl
  · rfl

/-- A command that has failed leaves the engine and the scoreboard, its error waits at its strand, and its register is
delivered. -/
def Cell.failed (c : Cell) (o : EngOp) (op cycle : Nat) (here : Addr) : Cell :=
  let c := o.report { c.endWait (.copy op) with ops := c.ops.filter fun x => x.op != op, scb := (c.scbDrop op).scb } o.err
    (o.target.getD here)
  if o.t = 0 ∨ o.kind = .store then c
  else c.deliverAt (cycle + 1) o.k op o.t (Config.errorValue op) [.trap op (errTrap o.err o.carry).1 (errTrap o.err o.carry).2]

theorem finishOp_failed {op : Nat} {o : EngOp} (ho : (s.cell m u).engOp op = some o) (he : o.err ≠ 0) : s.finishOp m u op =
    if !o.allStarted || !o.out.isEmpty then s else s.onCell m u fun c => c.failed o op s.cycle (s.addr m u) := by
  have hok : (o.err == 0) = false := beq_eq_false_iff_ne.2 he
  rw [State.finishOp, ho]
  dsimp only
  simp only [hok, Bool.false_and, Bool.or_false, Bool.false_eq_true, if_false, Bool.false_or, decide_eq_true_eq]
  refine congrArg (fun x => if (!o.allStarted || !o.out.isEmpty) = true then s else x) (congrArg (s.onCell m u) (funext fun c => ?_))
  unfold Cell.failed
  cases o.kind <;> simp

theorem kept_failed (c : Cell) (o : EngOp) (op cycle : Nat) (here : Addr) : (c.failed o op cycle here).kept k = c.kept k := by
  unfold Cell.failed
  dsimp only
  split_ifs
  · exact kept_report ..
  · exact (kept_deliverAt ..).trans (kept_report ..)

/-- The memory and the strands' cores stand. -/
theorem keeps_finishOp {op : Nat} {o : EngOp} (ho : (s.cell m u).engOp op = some o) (he : o.err ≠ 0) :
    Keeps (Cell.kept k) m u s (s.finishOp m u op) := by
  rw [finishOp_failed ho he]
  split_ifs
  · exact Keeps.refl s
  · exact keeps_onCell s (kept_failed ..)

theorem engOp_op {c : Cell} {op : Nat} {o : EngOp} (ho : c.engOp op = some o) : o.op = op := by
  simpa using List.find?_some ho

theorem engOp_onEngOp {c : Cell} {op : Nat} {o o' : EngOp} (ho : c.engOp op = some o) (h : o'.op = op) :
    (c.onEngOp op fun _ => o').engOp op = some o' := by
  have hl (l : List EngOp) (hl : l.find? (fun x => x.op == op) = some o) :
      (l.map fun x => if x.op = op then o' else x).find? (fun x => x.op == op) = some o' := by
    induction l with
    | nil => cases hl
    | cons x r ih =>
      by_cases hx : x.op = op
      · rw [List.map_cons, if_pos hx, List.find?_cons_of_pos (by simpa using h)]
      · rw [List.map_cons, if_neg hx, List.find?_cons_of_neg (by simpa using hx)]
        exact ih (by rwa [List.find?_cons_of_neg (by simpa using hx)] at hl)
  exact hl c.ops ho

/-- The acknowledgements of a command's token after an answer. -/
def State.acked (s : State) (m u : Nat) (o o' : EngOp) (e : Word) (counts : Bool) : State :=
  match o.entry with
  | none => s
  | some i =>
    if e = 0 ∧ counts = false then s
    else if e ≠ 0 ∧ o.kind = EngKind.copy then
      (s.onCell m u fun c => c.onToken i fun x => { x with count := o'.writesOut + 1 }).ackToken m u i e
    else s.ackToken m u i e

theorem keeps_acked {o o' : EngOp} {e : Word} {counts : Bool}
    (h : ∀ (c : Cell) (ts : Tab TokEntry) (n : Nat), p { c with tokens := ts, landings := n } = p c) :
    Keeps p m u s (s.acked m u o o' e counts) := by
  unfold State.acked
  cases o.entry with
  | none => exact Keeps.refl s
  | some i =>
    dsimp only
    split_ifs
    · exact Keeps.refl s
    · exact (keeps_onCell (f := fun c => c.onToken i fun x => { x with count := o'.writesOut + 1 }) s
        (h (s.cell m u) _ (s.cell m u).landings)).trans (keeps_ackToken i e h)
    · exact keeps_ackToken i e h

/-- The command after an answer, on the scoreboard too. -/
def Cell.answered (c : Cell) (op : Nat) (o : EngOp) : Cell := (c.onEngOp op fun _ => o).shrinkScb o o.done

theorem settleReq_eq {op sector : Nat} {e : Word} {counts : Bool} {o : EngOp} (ho : (s.cell m u).engOp op = some o) :
    s.settleReq m u op sector e counts =
      ((s.onCell m u fun c => c.answered op (o.settled sector e counts)).acked m u o (o.settled sector e counts) e counts).finishOp m u op := by
  rw [State.settleReq, ho]; rfl

theorem answered_scb (c : Cell) (op : Nat) (o : EngOp) : c.answered op o =
    { c with ops := c.ops.map fun x => if x.op = op then o else x, scb := (c.answered op o).scb } := by
  unfold Cell.answered Cell.shrinkScb
  split <;> rfl

theorem settled_err {o : EngOp} {sector : Nat} {e : Word} {counts : Bool} (he : e ≠ 0) : (o.settled sector e counts).err ≠ 0 := by
  show (if o.err = 0 then e else o.err) ≠ 0
  split_ifs with h
  · exact he
  · exact h

/-- A command whose request has failed is settled, and the memory and the strands' cores stand. -/
theorem keeps_settleReq {op sector : Nat} {e : Word} {counts : Bool} (he : e ≠ 0) :
    Keeps (Cell.kept k) m u s (s.settleReq m u op sector e counts) := by
  cases ho : (s.cell m u).engOp op with
  | none => rw [State.settleReq, ho]; exact Keeps.refl s
  | some o =>
    have hans := keeps_onCell (m := m) (u := u) (p := Cell.kept k) (f := fun c => c.answered op (o.settled sector e counts)) s
      ((congrArg (Cell.kept k) (answered_scb ..)).trans rfl)
    have hack (α : Type) (p : Cell → α) (h : ∀ (c : Cell) (ts : Tab TokEntry) (n : Nat), p { c with tokens := ts, landings := n } = p c) :=
      keeps_acked (s := s.onCell m u fun c => c.answered op (o.settled sector e counts)) (m := m) (u := u) (o := o)
        (o' := o.settled sector e counts) (e := e) (counts := counts) h
    have hop : (((s.onCell m u fun c => c.answered op (o.settled sector e counts)).acked m u o (o.settled sector e counts) e
        counts).cell m u).engOp op = some (o.settled sector e counts) := by
      have hops := (hack _ Cell.ops fun _ _ _ => rfl).2
      rw [State.cell_onCell_same, answered_scb] at hops
      refine (congrArg (fun l : List EngOp => l.find? fun x => x.op == op) hops).trans ?_
      exact engOp_onEngOp ho (engOp_op ho : o.op = op)
    rw [settleReq_eq ho]
    exact (hans.trans (hack _ _ fun _ _ _ => rfl)).trans (keeps_finishOp hop (settled_err he))

/-- A command enters the engine for another cell, or ends as it enters, and the memory and the strands' cores stand. -/
theorem keeps_enterRemote (o : EngOp) (disc : Bool) : Keeps (Cell.kept k) m u s (s.enterRemote m u o disc) := by
  have hclaim (c : Cell) (a : Word) (d : Addr) : (c.claimSlot (s.chip m) u a d).kept k = c.kept k := by
    unfold Cell.claimSlot
    split_ifs <;> rfl
  have henter (c : Cell) : (c.enterOp o).kept k = c.kept k := rfl
  have halloc (c : Cell) (n : Nat) : (match o.entry with
      | some i => c.allocToken i o.k o.recid n .pending o.carry 0 0
      | none => c).kept k = c.kept k := by
    cases o.entry <;> rfl
  unfold State.enterRemote
  cases disc
  · exact keeps_setCell s ((henter _).trans ((halloc _ _).trans (hclaim ..)))
  · exact (keeps_setCell s ((henter _).trans (halloc _ _))).trans (keeps_settleReq (by decide))

/-- What an issuing command that lands a token leaves of its strand. -/
theorem issued_of_keeps {t : State} {g : Cell → Cell} {tok : Word} (hk : k < 4) (h : Keeps (Cell.kept k) m u (s.left m u k 2 g) t)
    (hg : (g (s.wentCell m u k)).kept k = (s.landsTok m u k tok (s.wentCell m u k)).kept k) :
    t.last = .issued ∧ (t.cell m u).mem = (s.cell m u).mem ∧
      (t.strand m u k).landing = (s.strand m u k).landing ++ [s.result m u k (.sp 4) (.word tok) 1] ∧
      (t.strand m u k).pc = (s.strand m u k).pc + 1 ∧ (t.strand m u k).s = (s.strand m u k).s ∧
      (t.strand m u k).q = (s.strand m u k).q ∧ (t.strand m u k).h = (s.strand m u k).h ∧
      (t.strand m u k).v = (s.strand m u k).v := by
  obtain ⟨hlast, hkept⟩ := h
  rw [cell_left, hg] at hkept
  have hmem := congrArg Prod.fst hkept
  have hcore := congrArg Prod.snd hkept
  have hst : ((s.landsTok m u k tok (s.wentCell m u k)).strand k) =
      { s.went m u k with landing := (s.strand m u k).landing ++ [s.result m u k (.sp 4) (.word tok) 1] } := by
    rw [State.landsTok, Cell.strand_onStrand, if_pos ⟨rfl, hk⟩, strand_wentCell hk]; rfl
  have hcore' : (t.strand m u k).core = _ := hcore.trans (congrArg Strand.core hst)
  exact ⟨hlast, hmem, congrArg Strand.Core.landing hcore', congrArg Strand.Core.pc hcore', congrArg Strand.Core.s hcore',
    congrArg Strand.Core.q hcore', congrArg Strand.Core.h hcore', congrArg Strand.Core.v hcore'⟩

end kept

/-! ### The syllable -/

section remote

variable {s : State} {m u k : Nat} {i : Instr} {a b t : BitVec 6} {r : BitVec 1} {hn : BitVec 4}
  {kind : RemoteKind} {carried : View → Word}

theorem sylOneSided_far {v : View} {x : Word} (h : ¬ ((v.rh hn.toNat).valid = true ∧ (v.rh hn.toNat).aper = 0)) :
    sylOneSided v kind a b r hn t x =
      { oneSidedBase v kind a b hn t with
        dyn := firstTrap (v.handleChecks hn.toNat (v.rs a) 4 4 false (!decide (kind = .rst ∨ kind = .rstc)) (!decide (kind = .rld))
            (!decide (kind = .rst ∨ kind = .rstc) && !decide (kind = .rld)) ++
          v.illegalIf (v.writesReserved kind (v.rh hn.toNat) (v.rs a) (v.rs b))) ++ v.copyLate
        blocked := (v.rh hn.toNat).migrates true || v.copyFull || (!decide (kind = .rld) && v.tokenFull x (v.rh hn.toNat).disc)
        effects := (if kind = .rld then (if (v.rh hn.toNat).disc then [.discRead] else [])
          else [v.landTok (v.cell.nextToken v.chip v.b.u)]) ++
          [.cmd (.remote kind (r == 1) (v.rh hn.toNat) (v.rs a) (v.rs b) x (v.pt t))] } := by
  rw [sylOneSided]
  exact if_neg h

/-- The engine and the scoreboard have room. -/
theorem copyFull_false (hops : (s.cell m u).ops.length < 32) (hscb : (s.cell m u).scb.length < 32) :
    (s.sees m u k i).copyFull = false := by
  rw [View.copyFull, not_scbFull hscb, Bool.or_false]
  exact decide_eq_false (not_le.2 hops)

/-- What an operation on another cell makes of its cell before its command. -/
def State.beforeRemote (s : State) (m u k : Nat) (kind : RemoteKind) (disc : Bool) (x : Cell) : Cell :=
  if kind = .rld then (if disc then x.count fun n => { n with discRead := countUp n.discRead } else x)
  else s.landsTok m u k ((s.cell m u).nextToken (s.chip m) u) x

/-- An operation on another cell that passes its checks gives its command. -/
theorem exec_of_remote (h : s.Ready m u k (oneSidedReads kind a b t) (tokenRegs t))
    (he : exec i s = runSyl s i true fun v => sylOneSided v kind a b r hn t (carried v)) (hi : i.wellFormed = true)
    (hh : s.DeclaresH m u k [hn.toNat]) (haper : (s.rh m u k hn.toNat).aper ≠ 0)
    (hchecks : (s.sees m u k i).handleChecks hn.toNat (s.rs m u k a) 4 4 false (!decide (kind = .rst ∨ kind = .rstc))
      (!decide (kind = .rld)) (!decide (kind = .rst ∨ kind = .rstc) && !decide (kind = .rld)) = [])
    (hres : (s.sees m u k i).writesReserved kind (s.rh m u k hn.toNat) (s.rs m u k a) (s.rs m u k b) = false)
    (hmig : (s.rh m u k hn.toNat).migrates true = false) (hops : (s.cell m u).ops.length < 32)
    (hscb : (s.cell m u).scb.length < 32)
    (htok : kind ≠ .rld → (s.sees m u k i).tokenFull (carried (s.sees m u k i)) (s.rh m u k hn.toNat).disc = false)
    (herr : s.NoErrors m u k) :
    exec i s = .next (applyCmd (s.left m u k 2 (s.beforeRemote m u k kind (s.rh m u k hn.toNat).disc)) m u k
      (.remote kind (r == 1) (s.rh m u k hn.toNat) (s.rs m u k a) (s.rs m u k b) (carried (s.sees m u k i)) (s.ps m u k t))) := by
  have hform := oneSidedBase_form (i := i) h hi hh
  have hlate : (s.sees m u k i).copyLate = [] := lateErr_nil (v := s.sees m u k i) herr _
  have hfar := sylOneSided_far (kind := kind) (a := a) (b := b) (r := r) (t := t) (v := s.sees m u k i)
    (x := carried (s.sees m u k i)) (hn := hn) fun e => haper e.2
  have hfull : (!decide (kind = .rld) && (s.sees m u k i).tokenFull (carried (s.sees m u k i)) (s.rh m u k hn.toNat).disc) = false := by
    by_cases hk : kind = .rld
    · rw [decide_eq_true hk]; rfl
    · rw [htok hk, Bool.and_false]
  refine exec_of_effects (f := fun v => sylOneSided v kind a b r hn t (carried v)) (es := if kind = .rld then
      (if (s.rh m u k hn.toNat).disc then [.discRead] else []) else
        [(s.sees m u k i).landTok ((s.cell m u).nextToken (s.chip m) u)]) h he ?_ ?_ ?_ ?_ ?_ ?_ ?_ ?_ ?_ ?_ ?_ ?_
  · rw [hfar]; exact hform.static
  · rw [hfar]
    show firstTrap (_ ++ _) ++ _ = []
    rw [sees_rs, sees_rs, hchecks, sees_rh, hres, hlate]; rfl
  · rw [hfar]; exact hform.reads
  · rw [hfar]; exact hform.names
  · rw [hfar]; exact hform.loop
  · rw [hfar]
    show (_ || _ || _) = false
    rw [sees_rh, hmig, copyFull_false hops hscb, hfull]; rfl
  · rw [hfar, sees_pt]; rfl
  · split_ifs
    · exact Nat.zero_le _
    · exact Nat.zero_le _
    · exact Nat.le_refl 1
  · split_ifs <;> rfl
  · rw [hfar]; exact hform.cls
  · rw [hfar]; exact hform.image
  · unfold State.beforeRemote
    split_ifs
    · exact onCell_left 1 id fun c => c.count fun n => { n with discRead := countUp n.discRead }
    · rfl
    · exact lands_left 1 id ((s.strand m u k).pc + 1) _

/-! ### The command -/

/-- The kinds that write. -/
def RemoteKind.writes (kind : RemoteKind) : Prop := kind ≠ .rld ∧ kind ≠ .rldBlock

/-- The request of an operation that writes in another cell. -/
def farReq (k op : Nat) (kind : RemoteKind) (tok : Word) (ordered : Bool) (off : Nat) (x carry : Word) : Req :=
  { kind := kind.reqKind, copy := false, ordered := ordered, off := off, data := leBytes 4 x.toNat, bad := [], operand := x
    carry := carry, token := tok, op := op, sector := 0, sectors := 1, tbar := none, strand := k }

/-- The command of an operation that writes in another cell. -/
def farOp (k op rid : Nat) (kind : RemoteKind) (t : Nat) (entry : Option Nat) (tok : Word) (relaxed ordered disc : Bool)
    (to' : Addr × Nat) (cycle : Nat) (x carry : Word) : EngOp :=
  { op := op, k := k, recid := rid, kind := kind.engKind, t := t, entry := entry, token := tok, relaxed := relaxed
    serial := false, src := none, srcOff := to'.2, dst := some to'.1, dstOff := to'.2, len := 0, zeros := false, tbar := none
    andThen := 0, sb := 0, carry := carry, next := 1, done := 0, nextAt := cycle
    out := if disc then [] else [⟨farReq k op kind tok ordered to'.2 x carry, to'.1, cycle, 0, .ready⟩]
    err := 0 }

theorem issueRemote_writes (hk : kind.writes) (op : Nat) (relaxed : Bool) (h : Handle) (x y z : Word) (t : Nat) :
    s.issueRemote m u k op kind relaxed h x y z t =
      (s.onCell m u fun c => if kind = .rst ∨ kind = .rstc then c.answer s.cycle k op t ((s.cell m u).nextToken (s.chip m) u)
        else c.awaits k op t).enterRemote m u
        (farOp k op ((s.cell m u).strand k).recid.toNat kind t (if (s.cell m u).spire then none else (s.cell m u).freeToken)
          ((s.cell m u).nextToken (s.chip m) u) relaxed (!relaxed) h.disc (h.target (s.addr m u) x.toNat) s.cycle y
          ((s.cell m u).carryNow (s.chip m) u z)) h.disc := by
  obtain ⟨h1, h2⟩ := hk
  cases kind with
  | rld => exact absurd rfl h1
  | rldBlock => exact absurd rfl h2
  | _ => rfl

/-- An operation that writes in another cell issues. -/
theorem issues_of_remote (hw : kind.writes) (h : s.Ready m u k (oneSidedReads kind a b t) (tokenRegs t))
    (he : exec i s = runSyl s i true fun v => sylOneSided v kind a b r hn t (carried v)) (hi : i.wellFormed = true)
    (hh : s.DeclaresH m u k [hn.toNat]) (haper : (s.rh m u k hn.toNat).aper ≠ 0)
    (hchecks : (s.sees m u k i).handleChecks hn.toNat (s.rs m u k a) 4 4 false (!decide (kind = .rst ∨ kind = .rstc))
      (!decide (kind = .rld)) (!decide (kind = .rst ∨ kind = .rstc) && !decide (kind = .rld)) = [])
    (hres : (s.sees m u k i).writesReserved kind (s.rh m u k hn.toNat) (s.rs m u k a) (s.rs m u k b) = false)
    (hmig : (s.rh m u k hn.toNat).migrates true = false) (hops : (s.cell m u).ops.length < 32)
    (hscb : (s.cell m u).scb.length < 32)
    (htok : (s.sees m u k i).tokenFull (carried (s.sees m u k i)) (s.rh m u k hn.toNat).disc = false)
    (herr : s.NoErrors m u k) :
    ∃ t' tok, exec i s = .next t' ∧ t'.last = .issued ∧ (t'.cell m u).mem = (s.cell m u).mem ∧
      (t'.strand m u k).landing = (s.strand m u k).landing ++ [s.result m u k (.sp 4) (.word tok) 1] ∧
      (t'.strand m u k).pc = (s.strand m u k).pc + 1 ∧ (t'.strand m u k).s = (s.strand m u k).s ∧
      (t'.strand m u k).h = (s.strand m u k).h := by
  have hx := exec_of_remote h he hi hh haper hchecks hres hmig hops hscb (fun _ => htok) herr
  have hb : s.beforeRemote m u k kind (s.rh m u k hn.toNat).disc = s.landsTok m u k ((s.cell m u).nextToken (s.chip m) u) :=
    funext fun x => if_neg hw.1
  rw [hb] at hx
  have hask (c : Cell) (cycle op d : Nat) (x : Word) :
      (if kind = .rst ∨ kind = .rstc then c.answer cycle k op d x else c.awaits k op d).kept k = c.kept k := by
    unfold Cell.answer Cell.awaits
    split_ifs
    · rfl
    · exact (kept_deliverAt ..).trans (kept_onStrand c k fun _ => rfl)
    · rfl
    · exact kept_onStrand c k fun _ => rfl
  have hkeeps : Keeps (Cell.kept k) m u (s.left m u k 2 (s.landsTok m u k ((s.cell m u).nextToken (s.chip m) u)))
      (applyCmd (s.left m u k 2 (s.landsTok m u k ((s.cell m u).nextToken (s.chip m) u))) m u k (.remote kind (r == 1)
        (s.rh m u k hn.toNat) (s.rs m u k a) (s.rs m u k b) (carried (s.sees m u k i)) (s.ps m u k t))) := by
    show Keeps _ m u _ (State.issueRemote ..)
    rw [issueRemote_writes hw]
    exact (keeps_onCell _ (hask ..)).trans (keeps_enterRemote ..)
  obtain ⟨hlast, hmem, hland, hpc, hss, -, hh, -⟩ := issued_of_keeps h.opened.strand hkeeps rfl
  exact ⟨_, _, hx, hlast, hmem, hland, hpc, hss, hh⟩

/-- A command for another cell enters with its token, when it carries none and its page is not discarded. -/
theorem enterRemote_left {o : EngOp} {e n : Nat} {g : Cell → Cell} (he : o.entry = some e) (hc : o.carry = 0) :
    (s.left m u k n g).enterRemote m u o false =
      s.left m u k n fun c => ((g c).allocToken e o.k o.recid o.sectors .pending 0 0 0).enterOp o := by
  have hx (t : State) : t.enterRemote m u o false = t.onCell m u fun c => (c.allocToken e o.k o.recid o.sectors .pending 0 0 0).enterOp o := by
    simp only [State.enterRemote, he, hc, Bool.false_eq_true, if_false]
    rfl
  rw [hx, onCell_left]

/-- What such an operation leaves of its cell, when its page is not discarded. -/
def State.entersFar (s : State) (m u k e : Nat) (kind : RemoteKind) (relaxed ordered : Bool) (to' : Addr × Nat) (x tok : Word)
    (gen : BitVec 4) (t : BitVec 6) (c : Cell) : Cell :=
  s.claims k [] [] { c with
    tokens := tput (s.cell m u).tokens e { TokEntry.free with
      state := .pending, gen := gen, recid := (s.strand m u k).recid.toNat, k := k, count := 1 }
    ops := (s.cell m u).ops ++ [farOp k s.op (s.strand m u k).recid.toNat kind (s.ps m u k t) (some e) tok relaxed ordered false to'
      s.cycle x 0] }

theorem asks_proj {α : Type} (p : Cell → α) (hp : ∀ (c : Cell) (g : Strand → Strand), p (c.onStrand k g) = p c) (c : Cell) :
    p (s.asks m u k t c) = p c := by
  unfold State.asks
  split_ifs
  · rfl
  · exact hp ..

theorem order_bit (r : BitVec 1) : (!(r == 1)) = (r == 0) := by revert r; decide

theorem farOp_sectors (hw : kind.writes) {op rid : Nat} {j : Nat} {entry : Option Nat} {tok : Word} {relaxed ordered disc : Bool}
    {to' : Addr × Nat} {cycle : Nat} {x z : Word} :
    (farOp k op rid kind j entry tok relaxed ordered disc to' cycle x z).sectors = 1 ∧
      (farOp k op rid kind j entry tok relaxed ordered disc to' cycle x z).bulk = false := by
  obtain ⟨h1, h2⟩ := hw
  cases kind with
  | rld => exact absurd rfl h1
  | rldBlock => exact absurd rfl h2
  | _ => exact ⟨rfl, rfl⟩

theorem enters_eq (hw : kind.writes) {e : Nat} {relaxed ordered : Bool} {to' : Addr × Nat} {x tok : Word} {c : Cell} (htok : c.tokens = (s.cell m u).tokens)
    (hops : c.ops = (s.cell m u).ops) :
    (c.allocToken e k (s.strand m u k).recid.toNat 1 .pending 0 0 0).enterOp
      (farOp k s.op (s.strand m u k).recid.toNat kind (s.ps m u k t) (some e) tok relaxed ordered false to' s.cycle x 0) =
    s.entersFar m u k e kind relaxed ordered to' x tok
      (if ((s.cell m u).token e).gen = 15 then 1 else ((s.cell m u).token e).gen + 1) t c := by
  have htoken : c.token e = (s.cell m u).token e := congrArg (fun l => tget TokEntry.free l e) htok
  rw [State.entersFar, ← htoken, ← htok, ← hops, Cell.enterOp, (farOp_sectors hw).2, Bool.and_false, Bool.and_false]
  rfl

theorem addr_left (n : Nat) (g : Cell → Cell) : (s.left m u k n g).addr m u = s.addr m u :=
  congrArg (fun n => (⟨n, u⟩ : Addr)) (chip_left n g)

theorem runs_of_remote {e : Nat} (hw : kind.writes) (h : s.Ready m u k (oneSidedReads kind a b t) (tokenRegs t))
    (he : exec i s = runSyl s i true fun v => sylOneSided v kind a b r hn t (carried v)) (hi : i.wellFormed = true)
    (hh : s.DeclaresH m u k [hn.toNat]) (haper : (s.rh m u k hn.toNat).aper ≠ 0)
    (hchecks : (s.sees m u k i).handleChecks hn.toNat (s.rs m u k a) 4 4 false (!decide (kind = .rst ∨ kind = .rstc))
      (!decide (kind = .rld)) (!decide (kind = .rst ∨ kind = .rstc) && !decide (kind = .rld)) = [])
    (hmig : (s.rh m u k hn.toNat).migrates true = false) (hops : (s.cell m u).ops.length < 32)
    (hscb : (s.cell m u).scb.length < 32) (hdisc : (s.rh m u k hn.toNat).disc = false) (hspire : (s.cell m u).spire = false)
    (hfree : (s.cell m u).freeToken = some e) (hc : carried (s.sees m u k i) = 0) (herr : s.NoErrors m u k) :
    let gen : BitVec 4 := if ((s.cell m u).token e).gen = 15 then 1 else ((s.cell m u).token e).gen + 1
    let tok := tokenWord (s.chip m) u gen e
    s.Runs m u k i fun c => s.entersFar m u k e kind (r == 1) (r == 0) ((s.rh m u k hn.toNat).target (s.addr m u) (s.rs m u k a).toNat)
      (s.rs m u k b) tok gen t (if kind = .rst ∨ kind = .rstc then s.answers m u k t tok [] (s.landsTok m u k tok c)
        else s.asks m u k t (s.landsTok m u k tok c)) := by
  intro gen tok
  have hres : (s.sees m u k i).writesReserved kind (s.rh m u k hn.toNat) (s.rs m u k a) (s.rs m u k b) = false := by
    rw [View.writesReserved, show (s.sees m u k i).spire = false from hspire]; rfl
  have htok : (s.sees m u k i).tokenFull (carried (s.sees m u k i)) (s.rh m u k hn.toNat).disc = false := by
    rw [hc, View.tokenFull, sees_cell, hfree, Cell.slotsFull]
    simp
  have hnext : (s.cell m u).nextToken (s.chip m) u = tok := by rw [Cell.nextToken, hspire, hfree]; rfl
  have hx := exec_of_remote h he hi hh haper hchecks hres hmig hops hscb (fun _ => htok) herr
  have hb : s.beforeRemote m u k kind (s.rh m u k hn.toNat).disc = s.landsTok m u k tok := funext fun x => by
    rw [State.beforeRemote, if_neg hw.1, hnext]
  rw [hb, hc] at hx
  refine hx.trans (congrArg Host.Outcome.next ?_)
  show State.issueRemote .. = _
  have hst : (s.landsTok m u k tok (s.wentCell m u k)).strand k =
      { s.went m u k with landing := (s.strand m u k).landing ++ [s.result m u k (.sp 4) (.word tok) 1] } := by
    rw [State.landsTok, Cell.strand_onStrand, if_pos ⟨rfl, h.opened.strand⟩, strand_wentCell h.opened.strand]; rfl
  have hrid : ((s.landsTok m u k tok (s.wentCell m u k)).strand k).recid = (s.strand m u k).recid := by rw [hst]; rfl
  have hsp : (s.landsTok m u k tok (s.wentCell m u k)).spire = false := hspire
  have hfr : (s.landsTok m u k tok (s.wentCell m u k)).freeToken = some e := hfree
  have hnx : (s.landsTok m u k tok (s.wentCell m u k)).nextToken (s.chip m) u = tok := hnext
  have hcarry : (s.landsTok m u k tok (s.wentCell m u k)).carryNow (s.chip m) u 0 = 0 := if_pos rfl
  rw [issueRemote_writes hw, order_bit, hdisc, cell_left, chip_left, onCell_left, hrid, hsp, hfr, hnx, addr_left, hcarry,
    if_neg Bool.false_ne_true, enterRemote_left (e := e) rfl rfl]
  refine left_congr ?_
  have hasks : (if kind = .rst ∨ kind = .rstc then (s.landsTok m u k tok (s.wentCell m u k)).answer s.cycle k s.op (s.ps m u k t) tok
      else (s.landsTok m u k tok (s.wentCell m u k)).awaits k s.op (s.ps m u k t)) =
      if kind = .rst ∨ kind = .rstc then s.answers m u k t tok [] (s.landsTok m u k tok (s.wentCell m u k))
      else s.asks m u k t (s.landsTok m u k tok (s.wentCell m u k)) := by rw [answer_eq]; rfl
  rw [(farOp_sectors hw).1]
  refine (congrArg (fun x : Cell => (x.allocToken e k (s.strand m u k).recid.toNat 1 .pending 0 0 0).enterOp _) hasks).trans ?_
  refine enters_eq hw ?_ ?_
  · split_ifs
    · exact answers_proj Cell.tokens (fun _ _ => rfl) (fun _ _ => rfl) ..
    · exact asks_proj Cell.tokens (fun _ _ => rfl) ..
  · split_ifs
    · exact answers_proj Cell.ops (fun _ _ => rfl) (fun _ _ => rfl) ..
    · exact asks_proj Cell.ops (fun _ _ => rfl) ..

/-- A write of what a register of a cell reserves is ill-formed. -/
theorem traps_of_reserved (h : s.Ready m u k (oneSidedReads kind a b t) (tokenRegs t))
    (he : exec i s = runSyl s i true fun v => sylOneSided v kind a b r hn t (carried v)) (hi : i.wellFormed = true)
    (hh : s.DeclaresH m u k [hn.toNat]) (haper : (s.rh m u k hn.toNat).aper ≠ 0)
    (hchecks : (s.sees m u k i).handleChecks hn.toNat (s.rs m u k a) 4 4 false (!decide (kind = .rst ∨ kind = .rstc))
      (!decide (kind = .rld)) (!decide (kind = .rst ∨ kind = .rstc) && !decide (kind = .rld)) = [])
    (hres : (s.sees m u k i).writesReserved kind (s.rh m u k hn.toNat) (s.rs m u k a) (s.rs m u k b) = true)
    (herr : s.NoErrors m u k) (htl : (s.strand m u k).tl ≠ 2) : s.Traps m u k i 0x01 (encode i) := by
  have hform := oneSidedBase_form (i := i) h hi hh
  have hlate : (s.sees m u k i).copyLate = [] := lateErr_nil (v := s.sees m u k i) herr _
  have hfar := sylOneSided_far (kind := kind) (a := a) (b := b) (r := r) (t := t) (v := s.sees m u k i)
    (x := carried (s.sees m u k i)) (hn := hn) fun e => haper e.2
  have hdyn : (sylOneSided (s.sees m u k i) kind a b r hn t (carried (s.sees m u k i))).dyn = [trapReq causeIllegalOp (encode i)] := by
    rw [hfar]
    show firstTrap (_ ++ _) ++ _ = _
    rw [sees_rs, sees_rs, hchecks, sees_rh, hres, hlate]; rfl
  have hreads : (sylOneSided (s.sees m u k i) kind a b r hn t (carried (s.sees m u k i))).reads =
      (oneSidedReads kind a b t).map (s.ps m u k) := by rw [hfar]; exact hform.reads
  rw [State.Traps, he, runSyl_closes h.opened, closeBundle_takes_dyn (y := sylOneSided (s.sees m u k i) kind a b r hn t
    (carried (s.sees m u k i))) (t := trapReq causeIllegalOp (encode i))]
  · exact congrArg _ (takeTrap_eq_trapped rfl rfl rfl rfl htl (show causeIllegalOp ≠ causeXlatMiss by decide) rfl)
  · rw [hfar]; exact hform.static
  · intro p hp
    refine ⟨hreads ▸ (h.settled.pend p hp).1, fun e => (h.settled.pend p hp).2 (hform.names _ ?_)⟩
    rw [hfar] at e; exact e
  · intro d hd
    rw [hreads]; exact h.settled.notes d hd
  · rw [hfar]; exact .inl hform.loop
  · rw [hfar]; exact hform.image
  · rw [hdyn]; exact leads_singleton
  · rw [hdyn]
    intro x hx
    rw [List.mem_singleton.1 hx]; rfl

theorem writesReserved_false {h : Handle} {x y : Word} (hk : kind ≠ .rst ∧ kind ≠ .rstc) :
    (s.sees m u k i).writesReserved kind h x y = false := by
  have hb : (kind == .rst || kind == .rstc) = false := by simp [hk]
  rw [View.writesReserved, hb, Bool.and_false]; rfl

/-- rld of another cell takes nothing but its engine entry. -/
theorem runs_of_rld (h : s.Ready m u k [a] [t]) (ht : t ≠ 0) (hh : s.DeclaresH m u k [hn.toNat])
    (haper : (s.rh m u k hn.toNat).aper ≠ 0)
    (hchecks : (s.sees m u k (.nop true)).handleChecks hn.toNat (s.rs m u k a) 4 4 false true false false = [])
    (hmig : (s.rh m u k hn.toNat).migrates true = false) (hops : (s.cell m u).ops.length < 32)
    (hscb : (s.cell m u).scb.length < 32) (herr : s.NoErrors m u k) :
    exec (.rld true a r hn t) s = .next ((s.left m u k 2 (s.beforeRemote m u k .rld (s.rh m u k hn.toNat).disc)).issueRemote m u k s.op
      .rld (r == 1) (s.rh m u k hn.toNat) (s.rs m u k a) (s.rs m u k 0) 0 (s.ps m u k t)) := by
  have hwf : (Instr.rld true a r hn t).wellFormed = true := bne_iff_ne.2 fun e => ht (BitVec.eq_of_toNat_eq e)
  exact exec_of_remote (kind := .rld) (b := 0) (carried := fun _ => 0) h.tokens (exec_rld ..) hwf hh haper hchecks
    (writesReserved_false ⟨by decide, by decide⟩) hmig hops hscb (fun e => absurd rfl e) herr

theorem engineAligned_nil {off n align : Nat} {write wld : Bool} (h : s.Admits m u k off n write wld) (ha : off % align = 0) :
    (s.sees m u k i).engineAligned off n align write wld = [] := by
  have hnil : (s.sees m u k i).engineRegionAt off n write wld (BitVec.ofNat 32 off) ++
      (s.sees m u k i).engineRaceAt off n (BitVec.ofNat 32 off) = [] := by
    rcases List.take_eq_nil_iff.1 (show List.take 1 _ = [] from h) with h | h
    · cases h
    · exact h
  obtain ⟨hregion, hrace⟩ := List.append_eq_nil_iff.1 hnil
  rw [View.engineAligned, hregion, hrace, if_neg (not_not.2 ha)]
  rfl

/-- The block form of rld gives its command. -/
theorem exec_of_rldBlock (h : s.Ready m u k [a, b] [t]) (hi : (Instr.rldBlock true a b r hn t).wellFormed = true)
    (hh : s.DeclaresH m u k [hn.toNat]) (hdisc : (s.rh m u k hn.toNat).disc = false)
    (hside : (s.sees m u k (.nop true)).sideChecks hn.toNat (s.rs m u k a) 4 128 128 false false = [])
    (hadm : s.Admits m u k (s.rs m u k b).toNat 128 true false) (hal : (s.rs m u k b).toNat % 128 = 0)
    (hmig : (s.rh m u k hn.toNat).migrates false = false) (hops : (s.cell m u).ops.length < 32)
    (hscb : (s.cell m u).scb.length < 32) (herr : s.NoErrors m u k) :
    exec (.rldBlock true a b r hn t) s = .next ((s.left m u k 2 fun c => c.wroteRange k [((s.rs m u k b).toNat, 128)]).issueRemote
      m u k s.op .rldBlock (r == 1) (s.rh m u k hn.toNat) (s.rs m u k a) (s.rs m u k b) 0 (s.ps m u k t)) := by
  have hlate : (s.sees m u k (.rldBlock true a b r hn t)).copyLate = [] := lateErr_nil (v := s.sees m u k (.rldBlock true a b r hn t)) herr _
  refine exec_of_engine (es := (s.sees m u k (.rldBlock true a b r hn t)).engineRace (s.rs m u k b).toNat 128) h.tokens
    (exec_rldBlock s true a b r hn t) (x := .remote .rldBlock (r == 1) (s.rh m u k hn.toNat) (s.rs m u k a) (s.rs m u k b) 0
      (s.ps m u k t)) ?_ ?_ rfl tokenRegs_names rfl ?_ ?_ mem_engineRace rfl rfl
    (engineRace_left 1 id ((s.strand m u k).pc + 1) (s.rs m u k b).toNat 128 rfl)
  · exact List.append_eq_nil_iff.2 ⟨engine_static h.tokens (illegal_nil hi), declH_nil hh⟩
  · show firstTrap (_ ++ _) ++ _ = []
    rw [sees_rs, sees_rs, show (s.sees m u k (.rldBlock true a b r hn t)).sideChecks hn.toNat (s.rs m u k a) 4 128 128 false false = _ from hside,
      engineAligned_nil hadm hal, hlate]
    rfl
  · show (_ || _) = false
    rw [sees_rh, hmig, copyFull_false hops hscb]
    rfl
  · show (if _ then _ else _) ++ _ ++ _ = _
    rw [sees_rh, hdisc, sees_pt, sees_rs, sees_rs]
    rfl

end remote

/-- Settles O43: each operation by the command that it gives, and what that leaves of the cell. -/
theorem oneSidedRemote : Obligations.OneSidedRemote := by
  unfold Obligations.OneSidedRemote
  intro s m u k a b r h t v c st hh off y p herr hdecl hvalid hmig hops hscb
  have hnot (kind : RemoteKind) (hk : kind ≠ .rst ∧ kind ≠ .rstc) {i : Instr} {x : Word} :
      (s.sees m u k i).writesReserved kind hh off x = false := writesReserved_false hk
  refine ⟨fun haper => ?_, fun hdisc => ?_⟩
  · intro issues
    refine ⟨fun hchecks => ⟨fun hr => ⟨fun hres htl => ?_, fun hres htok => ?_⟩,
      fun hr => ⟨fun hres htl => ?_, fun hres htok => ?_⟩⟩, fun hchecks hr htok => ⟨?_, ?_, ?_, ?_⟩, fun hchecks hr ht hdisc => ?_⟩
    · exact traps_of_reserved (kind := .rst) (b := b) (carried := fun _ => 0) hr (exec_rst ..) rfl hdecl haper hchecks hres herr htl
    · exact issues_of_remote (kind := .rst) (b := b) (carried := fun _ => 0) ⟨by decide, by decide⟩ hr (exec_rst ..) rfl hdecl haper
        hchecks hres hmig hops hscb htok herr
    · exact traps_of_reserved (kind := .rstc) (b := b) (carried := fun v => v.rs t) hr (exec_rstc ..) rfl hdecl haper hchecks hres
        herr htl
    · exact issues_of_remote (kind := .rstc) (b := b) (carried := fun v => v.rs t) ⟨by decide, by decide⟩ hr (exec_rstc ..) rfl hdecl
        haper hchecks hres hmig hops hscb htok herr
    · exact issues_of_remote (kind := .rfadd) (b := b) (carried := fun _ => 0) ⟨by decide, by decide⟩ hr (exec_rfadd ..) rfl hdecl
        haper hchecks (hnot _ ⟨by decide, by decide⟩) hmig hops hscb htok herr
    · exact issues_of_remote (kind := .radd) (b := b) (carried := fun _ => 0) ⟨by decide, by decide⟩ hr (exec_radd ..) rfl hdecl
        haper hchecks (hnot _ ⟨by decide, by decide⟩) hmig hops hscb htok herr
    · exact issues_of_remote (kind := .rmax) (b := b) (carried := fun _ => 0) ⟨by decide, by decide⟩ hr (exec_rmax ..) rfl hdecl
        haper hchecks (hnot _ ⟨by decide, by decide⟩) hmig hops hscb htok herr
    · exact issues_of_remote (kind := .rswp) (b := b) (carried := fun _ => 0) ⟨by decide, by decide⟩ hr (exec_rswp ..) rfl hdecl
        haper hchecks (hnot _ ⟨by decide, by decide⟩) hmig hops hscb htok herr
    · refine (runs_of_rld hr ht hdecl haper hchecks hmig hops hscb herr).trans (congrArg Host.Outcome.next ?_)
      rw [State.issueRemote]
      dsimp only
      rw [if_pos hdisc, onCell_left]
      refine left_congr ?_
      rw [left_cycle, answer_eq, State.beforeRemote, if_pos rfl, if_pos hdisc]
  · intro base req
    refine ⟨fun haper hspire => ⟨fun hchecks hr ht => ?_, fun e he => ?_⟩, fun hside hadm hal hmig' hr hb ht => ?_⟩
    · refine (runs_of_rld hr ht hdecl haper hchecks hmig hops hscb herr).trans (congrArg Host.Outcome.next ?_)
      rw [State.issueRemote]
      dsimp only
      have hb : s.beforeRemote m u k .rld (s.rh m u k h.toNat).disc = id :=
        funext fun x => (if_pos rfl).trans (if_neg fun e => Bool.false_ne_true (hdisc.symm.trans e))
      rw [if_neg fun e => Bool.false_ne_true (hdisc.symm.trans e), hb, onCell_left, cell_left, order_bit]
      have hrid : ((id (s.wentCell m u k)).strand k).recid = st.recid := (congrArg Strand.recid (strand_wentCell hr.opened.strand)).trans rfl
      have hasks : (s.asks m u k t (s.wentCell m u k)).ops = (s.wentCell m u k).ops := asks_proj Cell.ops (fun _ _ => rfl) ..
      rw [hrid, addr_left]
      refine left_congr ?_
      rw [← hasks]
      rfl
    · intro gen tok enters tok'
      refine ⟨fun hchecks => ⟨fun hr => ?_, fun hr h0 => ?_⟩, fun hchecks hr => ?_⟩
      · exact runs_of_remote (kind := .rst) (b := b) (carried := fun _ => 0) ⟨by decide, by decide⟩ hr (exec_rst ..) rfl hdecl haper
          hchecks hmig hops hscb hdisc hspire he rfl herr
      · exact runs_of_remote (kind := .rstc) (b := b) (carried := fun v => v.rs t) ⟨by decide, by decide⟩ hr (exec_rstc ..) rfl hdecl
          haper hchecks hmig hops hscb hdisc hspire he h0 herr
      · intro atomic
        refine ⟨?_, ?_, ?_, ?_⟩
        · exact runs_of_remote (kind := .rfadd) (b := b) (carried := fun _ => 0) ⟨by decide, by decide⟩ hr (exec_rfadd ..) rfl hdecl
            haper hchecks hmig hops hscb hdisc hspire he rfl herr
        · exact runs_of_remote (kind := .radd) (b := b) (carried := fun _ => 0) ⟨by decide, by decide⟩ hr (exec_radd ..) rfl hdecl
            haper hchecks hmig hops hscb hdisc hspire he rfl herr
        · exact runs_of_remote (kind := .rmax) (b := b) (carried := fun _ => 0) ⟨by decide, by decide⟩ hr (exec_rmax ..) rfl hdecl
            haper hchecks hmig hops hscb hdisc hspire he rfl herr
        · exact runs_of_remote (kind := .rswp) (b := b) (carried := fun _ => 0) ⟨by decide, by decide⟩ hr (exec_rswp ..) rfl hdecl
            haper hchecks hmig hops hscb hdisc hspire he rfl herr
    · have hwf : (Instr.rldBlock true a b r h t).wellFormed = true := Bool.and_eq_true_iff.2
        ⟨bne_iff_ne.2 fun e => hb (BitVec.eq_of_toNat_eq e), bne_iff_ne.2 fun e => ht (BitVec.eq_of_toNat_eq e)⟩
      refine (exec_of_rldBlock hr hwf hdecl hdisc hside hadm hal hmig' hops hscb herr).trans (congrArg Host.Outcome.next ?_)
      rw [State.issueRemote]
      dsimp only
      rw [onCell_left, cell_left, addr_left]
      refine left_congr ?_
      have hasks : (s.asks m u k t ((s.wentCell m u k).wroteRange k [(y.toNat, 128)])).ops = (s.wentCell m u k).ops :=
        (asks_proj Cell.ops (fun _ _ => rfl) ..).trans ((congrArg Cell.ops (wroteRange_eq ..)).trans rfl)
      have hrid : ((((s.wentCell m u k).wroteRange k [(y.toNat, 128)]).strand k).recid) = st.recid := by
        rw [strand_wroteRange]
        exact (congrArg Strand.recid (strand_wentCell hr.opened.strand)).trans rfl
      have hsrc : (s.rh m u k h.toNat).disc = false := hdisc
      rw [hrid, ← hasks, hsrc]
      by_cases haper : (s.rh m u k h.toNat).aper = 0
      · rw [if_pos (.inl haper), if_pos haper, if_pos haper]; rfl
      · rw [if_neg (by simp [haper]), if_neg haper, if_neg haper]; rfl

end Sys2Proof.Machine
end
